-- ==== Sys2Proof/Word.lean ====
section
/-! DEFINITION. The word types of Fyvis 2 and the plain table type that the state uses. -/

namespace Sys2Proof

/-- One byte. -/
abbrev Byte := BitVec 8

/-- One 64-bit word: a general register, a constant-window entry, an object word (R10, R25, R168). -/
abbrev Word := BitVec 64

/-- A table of plain data by number: rising keys, no key twice. -/
abbrev Tbl (α : Type) := List (Nat × α)

/-- The entry at `k`, or `d` where the table lists none. -/
def Tbl.get {α : Type} (d : α) : Tbl α → Nat → α
  | [], _ => d
  | (j, v) :: t, k => if k = j then v else Tbl.get d t k

/-- The entry at `k`, if the table lists one. -/
def Tbl.find {α : Type} : Tbl α → Nat → Option α
  | [], _ => none
  | (j, v) :: t, k => if k = j then some v else Tbl.find t k

/-- The table with `v` at `k`. -/
def Tbl.set {α : Type} : Tbl α → Nat → α → Tbl α
  | [], k, v => [(k, v)]
  | (j, w) :: t, k, v =>
    if k = j then (k, v) :: t else if k < j then (k, v) :: (j, w) :: t else (j, w) :: Tbl.set t k v

/-- The table without an entry at `k`. -/
def Tbl.erase {α : Type} (t : Tbl α) (k : Nat) : Tbl α := t.filter fun e => e.1 != k

/-- The keys of a table. -/
def Tbl.keys {α : Type} (t : Tbl α) : List Nat := t.map (·.1)

/-- The values of a table. -/
def Tbl.vals {α : Type} (t : Tbl α) : List α := t.map (·.2)

end Sys2Proof
end

