-- ==== Sys2Proof/Config.lean ====
section
/-! DEFINITION. What an implementation fixes and the spec leaves open: free values. None has a body, so a statement holds
whatever they are. -/

namespace Sys2Proof

/-- The cipher on a 128-byte line, plaintext to ciphertext and back: of a key (data, tweak), a device ID and a local line
number, which make the tweak (R323, R438). Free but for being invertible: the spec names the cipher and not its values. Log 11. -/
opaque Config.cipher (data tweak : BitVec 256) (dev line : Nat) : BitVec 1024 ≃ BitVec 1024

/-- SHA-384, by which a component is measured and a measurement register extended (R436). Free: log 17. -/
opaque Config.sha384 (bytes : List (BitVec 8)) : BitVec 384

/-- The two signatures and the certificate of an attestation report, from the words that they cover (R437): free bytes.
Log 17. -/
opaque Config.signature (words : List Word) (scheme : Nat) (i : Nat) : Word

end Sys2Proof
end

