-- ==== Sys2Proof/Syntax.lean ====
section
/-! DEFINITION. The instructions of Fyvis 2 and the part's happenings: one constructor of `Instr` for each row of the
opcode table, and the plain operand types they use. -/

namespace Sys2Proof

/-- A guard field, word[25:21] (R77): bits [3:0] name a predicate, bit 4 negates it. -/
abbrev Guard := BitVec 5

/-- A predicate number, p0 to p15. -/
abbrev Pred := BitVec 4

/-- What a register field names (R10). Codes 13 to 15 name nothing and are refused by the decoder. -/
inductive Reg where
  | g (n : Fin 10)
  | gz
  | k
  | gq
  deriving DecidableEq, Repr

/-- The scopes of R6. Codes 6 and 7 are reserved. -/
inductive Scope where
  | thread | core | cluster | die | device | pod
  deriving DecidableEq, Repr

/-- The access sizes of R78. -/
inductive Size where
  | b | h | w | d
  deriving DecidableEq, Repr

/-- Integer lanes (R98, majors 0x18 and 0x1A). -/
inductive LaneI where
  | b | h | w
  deriving DecidableEq, Repr

/-- Float lanes (R98, major 0x19). -/
inductive LaneF where
  | hf | bh | s
  deriving DecidableEq, Repr

/-- The format codes of major 0x1B (R99). -/
inductive Fmt where
  | b | h | w | hf | bh | s | n4
  deriving DecidableEq, Repr

/-- The spaces of a remote access (R95). -/
inductive RSpace where
  | tcm | scratch
  deriving DecidableEq, Repr

/-- The system registers of R280. -/
inductive SysReg where
  | status | cause | epc | eword | eaddr | task | trapvec | tscr | tnd
  | migthr | agelim | choruscfg | nfl | rtb | cycle
  deriving DecidableEq, Repr

/-- What identifies a management command (R427): the issuing function and its tag. -/
structure CmdHdr where
  fn  : Nat
  tag : BitVec 32
  deriving DecidableEq, Repr

/-- The launch-queue state that QUEUE.SET writes (R327): SUB is origin column and row, width and height. -/
structure QueueCfg where
  en : Bool
  owner : Nat
  prio : Nat
  cap : Nat
  subCol : Nat
  subRow : Nat
  subW : Nat
  subH : Nat
  deriving DecidableEq, Repr

/-- The eight words of a launch record (R329). -/
structure LaunchRec where
  w0 : Word
  w1 : Word
  w2 : Word
  w3 : Word
  w4 : Word
  w5 : Word
  w6 : Word
  w7 : Word
  deriving DecidableEq, Repr

/-- What ROUTE.SET sets (R428). Routers: 0 to 2047 torus, 2048 to 2055 die, 2056 and 2057 fabric, 2058 + port a
Trodon port. -/
inductive RouteOp where
  | bitmap (router : Nat) (map : BitVec 256)
  | forward (xdie dev : Nat) (mask : BitVec 128)
  | vcWeights (cluster vc0 vc1 vc2 vc3 : Nat)
  | agelim (cluster n : Nat)
  deriving DecidableEq, Repr

/-- What DEBUG.SET sets (R428): a debug entry, CHORUSCFG with its ring, a cluster's trace ring, a cluster's SPER. -/
inductive DebugOp where
  | entry (idx : Nat) (words : Vector Word 8)
  | chorus (cfg : Word) (ring size : Nat)
  | traceRing (cluster ring size : Nat)
  | sper (cluster n : Nat)
  deriving DecidableEq, Repr

/-- The counter sets that CNT.READ names (R444). -/
inductive CntUnit where
  | slice (n : Nat)
  | cluster (n : Nat)
  | port (n : Nat)
  | router (n : Nat)
  | interface (core : Nat)
  | cdie (n : Nat)
  | xdie (n : Nat)
  deriving DecidableEq, Repr

/-- A firmware image (R435). The outcomes of the two signature checks stand for the signatures themselves. -/
structure BootImage where
  ecdsaKeyHash : BitVec 384
  lmsKeyHash : BitVec 384
  ecdsaValid : Bool
  lmsValid : Bool
  svn : Nat
  raiseSvn : Bool
  /-- component number and bytes, in the order of the component table; components 0 to 4 are the five of R436 -/
  components : List (Nat × List (BitVec 8))
  deriving DecidableEq, Repr

/-- A fabric packet (R377): the header's fields and its data. -/
structure FabricPacket where
  ddev : Nat
  sdev : Nat
  vc : Nat
  ord : Bool
  ten : Nat
  op : Nat
  seq : Nat
  ackt : Nat
  pa : Nat
  arg : Word
  sagt : Nat
  data : List Byte
  deriving DecidableEq, Repr

/-- A management command as the host writes it to MCQ (R427, R428). `reserved` is a command of any other OPC, and one of the given OPC with a
reserved bit set: in word 0 [55:40], in an operand word, or in words 6 and 7 of KEY.LOAD (R438). -/
inductive HostCmd where
  | queueSet (q : Nat) (cfg : QueueCfg)
  | sliceSet (die overflow log lim : Nat)
  | asidSet (asid : Nat) (e : Word)
  | taskSet (tenant taskn asid : Nat) (segtab : Word)
  | keyLoadData (k : Nat) (key : BitVec 256)
  | keyLoadTweak (k : Nat) (key : BitVec 256)
  | routeSet (op : RouteOp)
  | groupSetWrite (router idx : Nat) (w0 w1 w2 w3 : Word)
  | groupSetRetire (router idx : Nat)
  | fqSet (tenant addr cap : Nat)
  | faultAnswerReissue (token : Nat)
  | faultAnswerDeliver (token : Nat)
  | shootdown (asid va len ctr : Nat)
  | moveStart (old new : Nat) (large : Bool) (leaf ctr status : Nat)
  | moveEnd (old : Nat)
  | preempt (q seq pond area : Nat)
  | resume (area : Nat)
  | debugSet (op : DebugOp)
  | dump (core asid va size entry : Nat)
  | powerOperatingPoint (die point : Nat)
  | powerCluster (cluster : Nat) (gate : Bool)
  | powerHbmRefresh (stack mode : Nat)
  | powerLinkWidth (link width : Nat)
  | withdraw (cluster : Nat) (on : Bool)
  | cntRead (unit : CntUnit) (clear : Bool)
  | launch (q : Nat) (r : LaunchRec)
  | attest (nonce : BitVec 256) (va : Word)
  | objSet (asid va ty img : Nat)
  | pageZero (pa size key : Nat)
  | funcSet (fn asid base size : Nat)
  | devSet (id : Nat)
  | reserved (opc : Nat)
  deriving DecidableEq, Repr

/-- The operands of a happening: none, numbers, a management command with its header, a firmware image, a fabric
packet, a BAR2 access (offset, bytes to write or none, length), an instruction word, or a command put by MCQ. -/
inductive EvArg where
  | none
  | cmd (h : CmdHdr) (c : HostCmd)
  | boot (img : BootImage)
  | fabric (p : FabricPacket)
  | bar2 (off : Nat) (wr : Option (List Byte)) (len : Nat)
  | word (w : BitVec 32)
  deriving DecidableEq, Repr

/-- The names of the happenings: the 118 rows without an instruction word. -/
inductive EvKind where
  | tadpoleBinding | quantumExpiry | replyArrival | icacheLineArrival | sfuOperationFinish | hardwareMigration
  | migrationDeparture | migrRetry | tadpoleArrival | wake | gangFormationTimeout | tlbWalkCompletion
  | l1Fill | writeBackAtHome | sliceRequest | hbmAccessCompletion | eftOperation | reservationRevocation
  | overflowChainRead | omegaCombine | logAppendArrival | logAreaFullTimeout | pairCheck | accessCounterHalving
  | faultRecordDeferred | engineSelection | quadSignal | mmaF4 | mmaBf | mmaH
  | accZero | accDrain | fmtSet | qmma | cp1d | cp2d
  | cpGather | cpScatter | cpFill | cpSignal | copyUnit | jobCompletion
  | clReduce | clBcast | clAllreduce | clChunk | groupContribution | groupDelivery
  | packetArrival | packetGrant | packetPromotion | messageArrival | messageRetry | streamMessageMove
  | handlerStart | remoteAccessService | probeToken | phaseEnd | fabricPacketArrival | endToEndAcknowledgement
  | linkResend | portDown | linkTraining | dependenceMet | headBlocking | pondPlacement
  | pondEnd | queueSet | sliceSet | asidSet | taskSet | keyLoadData
  | keyLoadTweak | routeSet | groupSetWrite | groupSetRetire | fqSet | faultAnswerReissue
  | faultAnswerDeliver | shootdown | shootdownCluster | moveStart | movePass | moveEnd
  | preempt | resume | debugSet | dump | powerOperatingPoint | powerCluster
  | powerHbmRefresh | powerLinkWidth | withdraw | cntRead | launch | attest
  | objSet | pageZero | funcSet | devSet | mrq | meq
  | hstat | bar2Access | functionLevelReset | boot | thermalTrip | chorusTick
  | traceDrain | traceDrainTimeout | mcq | illegalWord | fetchTrap | operatingPointPauseEnd
  | clusterPowerUp | finalPassTimeout | linkAcknowledgement | ideEnable
  deriving DecidableEq, Repr

/-- A happening that is due, with up to three numbers and an operand. -/
structure Event where
  kind : EvKind
  a : Nat := 0
  b : Nat := 0
  c : Nat := 0
  arg : EvArg := .none
  deriving DecidableEq, Repr

/-- The happening that a command becomes when the host agent starts it; none for a reserved OPC (R428). -/
def HostCmd.kind : HostCmd → Option EvKind
  | .queueSet _ _ => some .queueSet
  | .sliceSet _ _ _ _ => some .sliceSet
  | .asidSet _ _ => some .asidSet
  | .taskSet _ _ _ _ => some .taskSet
  | .keyLoadData _ _ => some .keyLoadData
  | .keyLoadTweak _ _ => some .keyLoadTweak
  | .routeSet _ => some .routeSet
  | .groupSetWrite _ _ _ _ _ _ => some .groupSetWrite
  | .groupSetRetire _ _ => some .groupSetRetire
  | .fqSet _ _ _ => some .fqSet
  | .faultAnswerReissue _ => some .faultAnswerReissue
  | .faultAnswerDeliver _ => some .faultAnswerDeliver
  | .shootdown _ _ _ _ => some .shootdown
  | .moveStart _ _ _ _ _ _ => some .moveStart
  | .moveEnd _ => some .moveEnd
  | .preempt _ _ _ _ => some .preempt
  | .resume _ => some .resume
  | .debugSet _ => some .debugSet
  | .dump _ _ _ _ _ => some .dump
  | .powerOperatingPoint _ _ => some .powerOperatingPoint
  | .powerCluster _ _ => some .powerCluster
  | .powerHbmRefresh _ _ => some .powerHbmRefresh
  | .powerLinkWidth _ _ => some .powerLinkWidth
  | .withdraw _ _ => some .withdraw
  | .cntRead _ _ => some .cntRead
  | .launch _ _ => some .launch
  | .attest _ _ => some .attest
  | .objSet _ _ _ _ => some .objSet
  | .pageZero _ _ _ => some .pageZero
  | .funcSet _ _ _ _ => some .funcSet
  | .devSet _ => some .devSet
  | .reserved _ => none

/-- One constructor for each row of the opcode table: 267 instruction words, then 118 happenings of the part. Register
fields carry the names of R76: rd, ra, rb; `gd` is the guard. The operands of a happening stand in the state's event
latch while it is taken. -/
inductive Instr where
  /-- `ADD` (R124): Writes the 64-bit wrapping sum of the ra and rb registers to rd. -/
  | add (gd : Guard) (rd ra rb : Reg)
  /-- `SUB` (R124): Writes the 64-bit wrapping difference a − b to rd. -/
  | sub (gd : Guard) (rd ra rb : Reg)
  /-- `AND` (R124): Writes the bitwise AND of a and b to rd. -/
  | and (gd : Guard) (rd ra rb : Reg)
  /-- `OR` (R124): Writes the bitwise OR of a and b to rd. -/
  | or (gd : Guard) (rd ra rb : Reg)
  /-- `XOR` (R124): Writes the bitwise XOR of a and b to rd. -/
  | xor (gd : Guard) (rd ra rb : Reg)
  /-- `ANDN` (R124): Writes a AND NOT b to rd. -/
  | andn (gd : Guard) (rd ra rb : Reg)
  /-- `ORN` (R124): Writes a OR NOT b to rd. -/
  | orn (gd : Guard) (rd ra rb : Reg)
  /-- `MIN` (R124): Writes the smaller of a and b, read as unsigned, to rd. -/
  | min (gd : Guard) (rd ra rb : Reg)
  /-- `MAX` (R124): Writes the larger of a and b, read as unsigned, to rd. -/
  | max (gd : Guard) (rd ra rb : Reg)
  /-- `MINS` (R124): Writes the smaller of a and b, read as signed, to rd. -/
  | mins (gd : Guard) (rd ra rb : Reg)
  /-- `MAXS` (R124): Writes the larger of a and b, read as signed, to rd. -/
  | maxs (gd : Guard) (rd ra rb : Reg)
  /-- `SHL` (R124): Shifts a left by b[5:0] and writes the result to rd. -/
  | shl (gd : Guard) (rd ra rb : Reg)
  /-- `SHR` (R124): Shifts a right logically by b[5:0] and writes the result to rd. -/
  | shr (gd : Guard) (rd ra rb : Reg)
  /-- `SRA` (R124): Shifts a right arithmetically by b[5:0] and writes the result to rd. -/
  | sra (gd : Guard) (rd ra rb : Reg)
  /-- `ROL` (R124): Rotates a left by b[5:0] and writes the result to rd. -/
  | rol (gd : Guard) (rd ra rb : Reg)
  /-- `ROR` (R124): Rotates a right by b[5:0] and writes the result to rd. -/
  | ror (gd : Guard) (rd ra rb : Reg)
  /-- `CLZ` (R124): Writes the count of leading zero bits of a, 64 for zero, to rd. -/
  | clz (gd : Guard) (rd ra : Reg)
  /-- `CTZ` (R124): Writes the count of trailing zero bits of a, 64 for zero, to rd. -/
  | ctz (gd : Guard) (rd ra : Reg)
  /-- `POPC` (R124): Writes the number of set bits of a to rd. -/
  | popc (gd : Guard) (rd ra : Reg)
  /-- `SEXT_B` (R124): Sign-extends a[7:0] to 64 bits into rd. -/
  | sextB (gd : Guard) (rd ra : Reg)
  /-- `SEXT_H` (R124): Sign-extends a[15:0] to 64 bits into rd. -/
  | sextH (gd : Guard) (rd ra : Reg)
  /-- `SEXT_W` (R124): Sign-extends a[31:0] to 64 bits into rd. -/
  | sextW (gd : Guard) (rd ra : Reg)
  /-- `ZEXT_B` (R124): Zero-extends a[7:0] into rd. -/
  | zextB (gd : Guard) (rd ra : Reg)
  /-- `ZEXT_H` (R124): Zero-extends a[15:0] into rd. -/
  | zextH (gd : Guard) (rd ra : Reg)
  /-- `ZEXT_W` (R124): Zero-extends a[31:0] into rd. -/
  | zextW (gd : Guard) (rd ra : Reg)
  /-- `MOV` (R124): Copies a to rd; a slot-0 write to g9 that completes a message sends it. -/
  | mov (gd : Guard) (rd ra : Reg)
  /-- `LDK` (R125): Reads constant-window entry a[7:0] into rd, waiting on the range scoreboard if needed. -/
  | ldk (gd : Guard) (rd ra : Reg)
  /-- `STK` (R125): Writes b into constant-window entry a[7:0], waiting on the range scoreboard if needed. -/
  | stk (gd : Guard) (ra rb : Reg)
  /-- `SEL` (R124): Writes a to rd if predicate pn is set, else b. -/
  | sel (gd : Guard) (rd ra rb : Reg) (p : Pred)
  /-- `NOP` (R124): Takes its issue cycle and has no effect. -/
  | nop (gd : Guard)
  /-- `ADD_K` (R124): Writes the wrapping sum of a and a constant-window entry to rd. -/
  | addK (gd : Guard) (rd ra : Reg) (k : BitVec 8)
  /-- `SUB_K` (R124): Writes a minus a constant-window entry to rd. -/
  | subK (gd : Guard) (rd ra : Reg) (k : BitVec 8)
  /-- `AND_K` (R124): Writes a AND a constant-window entry to rd. -/
  | andK (gd : Guard) (rd ra : Reg) (k : BitVec 8)
  /-- `OR_K` (R124): Writes a OR a constant-window entry to rd. -/
  | orK (gd : Guard) (rd ra : Reg) (k : BitVec 8)
  /-- `XOR_K` (R124): Writes a XOR a constant-window entry to rd. -/
  | xorK (gd : Guard) (rd ra : Reg) (k : BitVec 8)
  /-- `ANDN_K` (R124): Writes a AND NOT a constant-window entry to rd. -/
  | andnK (gd : Guard) (rd ra : Reg) (k : BitVec 8)
  /-- `ORN_K` (R124): Writes a OR NOT a constant-window entry to rd. -/
  | ornK (gd : Guard) (rd ra : Reg) (k : BitVec 8)
  /-- `MIN_K` (R124): Writes the unsigned minimum of a and an entry to rd. -/
  | minK (gd : Guard) (rd ra : Reg) (k : BitVec 8)
  /-- `MAX_K` (R124): Writes the unsigned maximum of a and an entry to rd. -/
  | maxK (gd : Guard) (rd ra : Reg) (k : BitVec 8)
  /-- `MINS_K` (R124): Writes the signed minimum of a and an entry to rd. -/
  | minsK (gd : Guard) (rd ra : Reg) (k : BitVec 8)
  /-- `MAXS_K` (R124): Writes the signed maximum of a and an entry to rd. -/
  | maxsK (gd : Guard) (rd ra : Reg) (k : BitVec 8)
  /-- `MOV_K` (R124): Copies a constant-window entry to rd. -/
  | movK (gd : Guard) (rd : Reg) (k : BitVec 8)
  /-- `STK_K` (R125): Writes a into the constant-window entry named by k8. -/
  | stkK (gd : Guard) (ra : Reg) (k : BitVec 8)
  /-- `CMP_EQ` (R129): Sets pd to a = b. -/
  | cmpEq (gd : Guard) (p : Pred) (ra rb : Reg)
  /-- `CMP_NE` (R129): Sets pd to a ≠ b. -/
  | cmpNe (gd : Guard) (p : Pred) (ra rb : Reg)
  /-- `CMP_LT` (R129): Sets pd to the signed a < b. -/
  | cmpLt (gd : Guard) (p : Pred) (ra rb : Reg)
  /-- `CMP_GE` (R129): Sets pd to the signed a ≥ b. -/
  | cmpGe (gd : Guard) (p : Pred) (ra rb : Reg)
  /-- `CMP_LE` (R129): Sets pd to the signed a ≤ b. -/
  | cmpLe (gd : Guard) (p : Pred) (ra rb : Reg)
  /-- `CMP_GT` (R129): Sets pd to the signed a > b. -/
  | cmpGt (gd : Guard) (p : Pred) (ra rb : Reg)
  /-- `CMP_LTU` (R129): Sets pd to the unsigned a < b. -/
  | cmpLtu (gd : Guard) (p : Pred) (ra rb : Reg)
  /-- `CMP_GEU` (R129): Sets pd to the unsigned a ≥ b. -/
  | cmpGeu (gd : Guard) (p : Pred) (ra rb : Reg)
  /-- `CMP_LEU` (R129): Sets pd to the unsigned a ≤ b. -/
  | cmpLeu (gd : Guard) (p : Pred) (ra rb : Reg)
  /-- `CMP_GTU` (R129): Sets pd to the unsigned a > b. -/
  | cmpGtu (gd : Guard) (p : Pred) (ra rb : Reg)
  /-- `TST` (R129): Sets pd to (a AND b) ≠ 0. -/
  | tst (gd : Guard) (p : Pred) (ra rb : Reg)
  /-- `CMP_EQ_K` (R129): Sets pd to a equal to a constant-window entry. -/
  | cmpEqK (gd : Guard) (p : Pred) (ra : Reg) (k : BitVec 8)
  /-- `CMP_NE_K` (R129): Sets pd to a not equal to an entry. -/
  | cmpNeK (gd : Guard) (p : Pred) (ra : Reg) (k : BitVec 8)
  /-- `CMP_LT_K` (R129): Sets pd to the signed a < entry. -/
  | cmpLtK (gd : Guard) (p : Pred) (ra : Reg) (k : BitVec 8)
  /-- `CMP_GE_K` (R129): Sets pd to the signed a ≥ entry. -/
  | cmpGeK (gd : Guard) (p : Pred) (ra : Reg) (k : BitVec 8)
  /-- `CMP_LE_K` (R129): Sets pd to the signed a ≤ entry. -/
  | cmpLeK (gd : Guard) (p : Pred) (ra : Reg) (k : BitVec 8)
  /-- `CMP_GT_K` (R129): Sets pd to the signed a > entry. -/
  | cmpGtK (gd : Guard) (p : Pred) (ra : Reg) (k : BitVec 8)
  /-- `CMP_LTU_K` (R129): Sets pd to the unsigned a < entry. -/
  | cmpLtuK (gd : Guard) (p : Pred) (ra : Reg) (k : BitVec 8)
  /-- `CMP_GEU_K` (R129): Sets pd to the unsigned a ≥ entry. -/
  | cmpGeuK (gd : Guard) (p : Pred) (ra : Reg) (k : BitVec 8)
  /-- `CMP_LEU_K` (R129): Sets pd to the unsigned a ≤ entry. -/
  | cmpLeuK (gd : Guard) (p : Pred) (ra : Reg) (k : BitVec 8)
  /-- `CMP_GTU_K` (R129): Sets pd to the unsigned a > entry. -/
  | cmpGtuK (gd : Guard) (p : Pred) (ra : Reg) (k : BitVec 8)
  /-- `TST_K` (R129): Sets pd to (a AND entry) ≠ 0. -/
  | tstK (gd : Guard) (p : Pred) (ra : Reg) (k : BitVec 8)
  /-- `PAND` (R130): Sets pd to pa AND pb. -/
  | pand (gd : Guard) (rd ra rb : Pred)
  /-- `POR` (R130): Sets pd to pa OR pb. -/
  | por (gd : Guard) (rd ra rb : Pred)
  /-- `PXOR` (R130): Sets pd to pa XOR pb. -/
  | pxor (gd : Guard) (rd ra rb : Pred)
  /-- `PNOT` (R130): Sets pd to NOT pa. -/
  | pnot (gd : Guard) (rd ra : Pred)
  /-- `PMOV` (R130): Copies pa to pd. -/
  | pmov (gd : Guard) (rd ra : Pred)
  /-- `BFX` (R127): Extracts len bits of a at pos, zero-extended, into rd. -/
  | bfx (gd : Guard) (rd ra : Reg) (p : BitVec 6) (l : BitVec 5)
  /-- `BFXS` (R127): Extracts len bits of a at pos, sign-extended, into rd. -/
  | bfxs (gd : Guard) (rd ra : Reg) (p : BitVec 6) (l : BitVec 5)
  /-- `BFI` (R127): Inserts the low len bits of a into rd at pos. -/
  | bfi (gd : Guard) (rd ra : Reg) (p : BitVec 6) (l : BitVec 5)
  /-- `SHL_IMM` (R127): Shifts a left by the encoded amount n into rd. -/
  | shlImm (gd : Guard) (rd ra : Reg) (n : BitVec 6)
  /-- `SHR_IMM` (R127): Shifts a right logically by the encoded amount n into rd. -/
  | shrImm (gd : Guard) (rd ra : Reg) (n : BitVec 6)
  /-- `SRA_IMM` (R127): Shifts a right arithmetically by the encoded amount n into rd. -/
  | sraImm (gd : Guard) (rd ra : Reg) (n : BitVec 6)
  /-- `ROL_IMM` (R127): Rotates a left by the encoded amount n into rd. -/
  | rolImm (gd : Guard) (rd ra : Reg) (n : BitVec 6)
  /-- `ROR_IMM` (R127): Rotates a right by the encoded amount n into rd. -/
  | rorImm (gd : Guard) (rd ra : Reg) (n : BitVec 6)
  /-- `MUL` (R128): Writes the low 64 bits of a × b to rd. -/
  | mul (gd : Guard) (rd ra rb : Reg)
  /-- `MULH` (R128): Writes the high 64 bits of the unsigned product to rd. -/
  | mulh (gd : Guard) (rd ra rb : Reg)
  /-- `MULHS` (R128): Writes the high 64 bits of the signed product to rd. -/
  | mulhs (gd : Guard) (rd ra rb : Reg)
  /-- `DIV` (R128): Writes the unsigned quotient to rd, all ones and DZ on a zero divisor. -/
  | div (gd : Guard) (rd ra rb : Reg)
  /-- `DIVS` (R128): Writes the signed truncated quotient to rd, with the DZ and OF corner cases. -/
  | divs (gd : Guard) (rd ra rb : Reg)
  /-- `REM` (R128): Writes the unsigned remainder to rd, a and DZ on a zero divisor. -/
  | rem (gd : Guard) (rd ra rb : Reg)
  /-- `REMS` (R128): Writes the signed remainder to rd, with the DZ and OF corner cases. -/
  | rems (gd : Guard) (rd ra rb : Reg)
  /-- `BR` (R133): Sets the next PC to PC + 4 × sext(disp21). -/
  | br (gd : Guard) (rd : BitVec 21)
  /-- `CALL` (R133): Writes PC + 4 to g7 and branches by disp21. -/
  | call (gd : Guard) (rd : BitVec 21)
  /-- `JMP` (R133): Branches to a[31:0], trapping 0x22 if misaligned. -/
  | jmp (gd : Guard) (ra : Reg)
  /-- `RET` (R133): Branches to g7[31:0], trapping 0x22 if misaligned. -/
  | ret (gd : Guard)
  /-- `LOOP` (R133): Decrements ra and branches by disp13 while the result is non-zero. -/
  | loop (gd : Guard) (ra : Reg) (rd : BitVec 13)
  /-- `LD` (R144): Loads 1 to 8 bytes at [sN + ra + kM], zero-extended, into rd. -/
  | ld (gd : Guard) (rd ra : Reg) (sg : Fin 8) (k : BitVec 8) (sz : Size)
  /-- `ST` (R144): Stores the low 1 to 8 bytes of rd at [sN + ra + kM]. -/
  | st (gd : Guard) (rd ra : Reg) (sg : Fin 8) (k : BitVec 8) (sz : Size)
  /-- `LDS` (R144): Loads 1, 2 or 4 bytes at [sN + ra + rb], sign-extended, into rd. -/
  | lds (gd : Guard) (rd ra : Reg) (sg : Fin 8) (rb : Reg) (sz : Size)
  /-- `LD_RR` (R144): Loads at the register-indexed address [sN + ra + rb] into rd. -/
  | ldRr (gd : Guard) (rd ra : Reg) (sg : Fin 8) (rb : Reg) (sz : Size)
  /-- `ST_RR` (R144): Stores rd at the register-indexed address [sN + ra + rb]. -/
  | stRr (gd : Guard) (rd ra : Reg) (sg : Fin 8) (rb : Reg) (sz : Size)
  /-- `LDP` (R144): Loads 16 bytes into the register pair rd, rd + 1. -/
  | ldp (gd : Guard) (rd ra : Reg) (sg : Fin 8) (rb : Reg)
  /-- `STP` (R144): Stores the register pair rd, rd + 1 as 16 bytes. -/
  | stp (gd : Guard) (rd ra : Reg) (sg : Fin 8) (rb : Reg)
  /-- `RSV` (R149): Queues a reservation of a word at its home and waits for the grant, which forwards the word into rd. -/
  | rsv (gd : Guard) (rd ra : Reg) (sg : Fin 8) (rb : Reg) (sz : Size)
  /-- `RLS` (R149): Writes rd into the reserved word at its home, ends the reservation and grants the next reserver. -/
  | rls (gd : Guard) (rd ra : Reg) (sg : Fin 8) (rb : Reg) (sz : Size)
  /-- `RLSX` (R149): Ends a reservation without writing the word. -/
  | rlsx (gd : Guard) (ra : Reg) (sg : Fin 8) (rb : Reg) (sz : Size)
  /-- `LOG_ADD` (R152): Posts a logged add entry to the log of the address's home. -/
  | logAdd (gd : Guard) (rd ra : Reg) (sg : Fin 8) (rb : Reg) (sz : Size)
  /-- `LOG_FADD` (R152): Posts a logged FP32 add entry to the log of the address's home. -/
  | logFadd (gd : Guard) (rd ra : Reg) (sg : Fin 8) (rb : Reg)
  /-- `LOG_MIN` (R152): Posts a logged signed-minimum entry to the home's log. -/
  | logMin (gd : Guard) (rd ra : Reg) (sg : Fin 8) (rb : Reg) (sz : Size)
  /-- `LOG_MAX` (R152): Posts a logged signed-maximum entry to the home's log. -/
  | logMax (gd : Guard) (rd ra : Reg) (sg : Fin 8) (rb : Reg) (sz : Size)
  /-- `LOG_OR` (R152): Posts a logged OR entry to the home's log. -/
  | logOr (gd : Guard) (rd ra : Reg) (sg : Fin 8) (rb : Reg) (sz : Size)
  /-- `FENCE_ACQ` (R147): Orders later accesses after earlier loads, dropping clean L1 bytes at die scope and above. -/
  | fenceAcq (gd : Guard) (sc : Scope)
  /-- `FENCE_REL` (R147): Orders later stores after earlier accesses, writing back dirty L1 bytes at die scope and above. -/
  | fenceRel (gd : Guard) (sc : Scope)
  /-- `FENCE_FULL` (R147): Performs a release then an acquire and takes a place in the total fence order. -/
  | fenceFull (gd : Guard) (sc : Scope)
  /-- `LD_ACQ_W` (R148): Loads a word, at its home for die scope and above, then acquires. -/
  | ldAcqW (gd : Guard) (rd ra : Reg) (sc : Scope) (sg : Fin 8)
  /-- `LD_ACQ_D` (R148): Loads a double-word, at its home for die scope and above, then acquires. -/
  | ldAcqD (gd : Guard) (rd ra : Reg) (sc : Scope) (sg : Fin 8)
  /-- `ST_REL_W` (R148): Releases, then stores a word, written through at die scope and above. -/
  | stRelW (gd : Guard) (rd ra : Reg) (sc : Scope) (sg : Fin 8)
  /-- `ST_REL_D` (R148): Releases, then stores a double-word, written through at die scope and above. -/
  | stRelD (gd : Guard) (rd ra : Reg) (sc : Scope) (sg : Fin 8)
  /-- `SEAL` (R154): Seals the range of a segment register in an open seal record. -/
  | seal (gd : Guard) (ra : Reg) (sc : Scope) (rb : Reg)
  /-- `UNSEAL` (R155): Drains a seal record, waits for its copies, drops sealed lines and advances the generation. -/
  | unseal (gd : Guard) (rd ra : Reg) (sc : Scope)
  /-- `PREF` (R156): Requests a line into the cluster L1 without trapping or faulting. -/
  | pref (gd : Guard) (ra : Reg) (sg : Fin 8)
  /-- `CWB` (R156): Writes back a line's dirty bytes and waits for the home's acknowledgement. -/
  | cwb (gd : Guard) (ra : Reg) (sg : Fin 8)
  /-- `CDROP` (R156): Drops a cluster L1 line, discarding its dirty bytes. -/
  | cdrop (gd : Guard) (ra : Reg) (sg : Fin 8)
  /-- `SCB_WAIT` (R159): Waits until no scoreboard entry overlaps the TCM range [a, a + b). -/
  | scbWait (gd : Guard) (ra rb : Reg)
  /-- `SEG_LD` (R160): Loads a segment register and its selector from segment-table entry a[7:0]. -/
  | segLd (gd : Guard) (rd : Fin 8) (ra : Reg)
  /-- `SEG_NARROW` (R160): Narrows a segment to base + a, limit b, and writes its table entry. -/
  | segNarrow (gd : Guard) (rd : Fin 8) (ra rb : Reg)
  /-- `SEG_GIVE` (R161): Hands a segment's write capability through a bounded queue as a marked slot. -/
  | segGive (gd : Guard) (rd : Fin 8) (ra : Reg) (sc : Scope)
  /-- `SEG_TAKE` (R162): Takes a marked capability from the head of a bounded queue into a segment register. -/
  | segTake (gd : Guard) (rd : Fin 8) (ra : Reg)
  /-- `LDX` (R164): Reads a remote core's TCM or cluster's scratchpad by active message into rd. -/
  | ldx (gd : Guard) (rd ra rb : Reg) (sp : RSpace) (sz : Size)
  /-- `STX` (R164): Writes rd into a remote core's TCM or cluster's scratchpad by active message. -/
  | stx (gd : Guard) (rd ra rb : Reg) (sp : RSpace) (sz : Size)
  /-- `STX_N4` (R164): Writes one remote FP4 nibble by an atomic read-modify-write at the target. -/
  | stxN4 (gd : Guard) (rd ra rb : Reg) (sp : RSpace)
  /-- `OBJ_INIT` (R185): Creates a typed object from an image in TCM at its home. -/
  | objInit (gd : Guard) (ra : Reg) (sc : Scope) (rb : Reg)
  /-- `OBJ_FREE` (R186): Returns an object's granules to untyped. -/
  | objFree (gd : Guard) (ra : Reg) (sc : Scope)
  /-- `OBJ_READ` (R187): Reads an object's principal word in home order with acquire. -/
  | objRead (gd : Guard) (rd ra : Reg) (sc : Scope)
  /-- `CNT_ADD` (R188): Adds b to a counter, returns the old value and wakes satisfied waiters. -/
  | cntAdd (gd : Guard) (rd ra : Reg) (sc : Scope) (rb : Reg)
  /-- `CNT_SWAP` (R188): Replaces a counter's value with b and returns the old value. -/
  | cntSwap (gd : Guard) (rd ra : Reg) (sc : Scope) (rb : Reg)
  /-- `CNT_CAS` (R188): Writes b to a counter if it equals rd and returns the old value. -/
  | cntCas (gd : Guard) (rd ra : Reg) (sc : Scope) (rb : Reg)
  /-- `CNT_WAITGE` (R188): Returns the counter once it is at least b, parking until then. -/
  | cntWaitge (gd : Guard) (rd ra : Reg) (sc : Scope) (rb : Reg)
  /-- `CNT_WAITEQ` (R188): Returns the counter once it equals b, parking until then. -/
  | cntWaiteq (gd : Guard) (rd ra : Reg) (sc : Scope) (rb : Reg)
  /-- `BAR_ARRIVE` (R190): Arrives at a phased barrier with release and returns the status word. -/
  | barArrive (gd : Guard) (rd ra : Reg) (sc : Scope)
  /-- `BAR_WAIT` (R190): Waits until phase b[15:0] of a barrier has been swept. -/
  | barWait (gd : Guard) (ra : Reg) (sc : Scope) (rb : Reg)
  /-- `BAR_SYNC` (R190): Arrives at a barrier and parks until its phase is swept. -/
  | barSync (gd : Guard) (rd ra : Reg) (sc : Scope)
  /-- `TKT_ACQ` (R191): Draws a ticket and parks until it is served. -/
  | tktAcq (gd : Guard) (rd ra : Reg) (sc : Scope)
  /-- `TKT_TRY` (R191): Takes a free ticket lock without waiting and sets pd to the outcome. -/
  | tktTry (gd : Guard) (rd : Pred) (ra : Reg) (sc : Scope)
  /-- `TKT_REL` (R191): Advances SERVING and wakes the holder of the next ticket. -/
  | tktRel (gd : Guard) (ra : Reg) (sc : Scope)
  /-- `CND_WAIT` (R194): Records the thread at a condition and releases the paired lock on its behalf. -/
  | cndWait (gd : Guard) (ra : Reg) (sc : Scope) (rb : Reg)
  /-- `CND_SIG` (R194): Removes the oldest condition waiter and requests the lock for it. -/
  | cndSig (gd : Guard) (ra : Reg) (sc : Scope)
  /-- `CND_BCAST` (R194): Requests the lock for every condition waiter in arrival order. -/
  | cndBcast (gd : Guard) (ra : Reg) (sc : Scope)
  /-- `Q_PUT` (R193): Puts a TCM payload into a bounded queue, parking while it is full. -/
  | qPut (gd : Guard) (ra : Reg) (sc : Scope) (rb : Reg)
  /-- `Q_GET` (R193): Takes the head payload of a bounded queue into TCM, parking while it is empty. -/
  | qGet (gd : Guard) (rd ra : Reg) (sc : Scope) (rb : Reg)
  /-- `Q_TRYPUT` (R193): Puts a payload if there is room and sets pd to the outcome. -/
  | qTryput (gd : Guard) (rd : Pred) (ra : Reg) (sc : Scope) (rb : Reg)
  /-- `Q_TRYGET` (R193): Takes a payload if one is held and sets pd to the outcome. -/
  | qTryget (gd : Guard) (rd : Pred) (ra : Reg) (sc : Scope) (rb : Reg)
  /-- `VADD` (R198): Adds packed integer lanes with wrapping. -/
  | vadd (gd : Guard) (rd ra rb : Reg) (l : LaneI)
  /-- `VSUB` (R198): Subtracts packed integer lanes with wrapping. -/
  | vsub (gd : Guard) (rd ra rb : Reg) (l : LaneI)
  /-- `VADDS` (R198): Adds packed signed lanes with saturation. -/
  | vadds (gd : Guard) (rd ra rb : Reg) (l : LaneI)
  /-- `VSUBS` (R198): Subtracts packed signed lanes with saturation. -/
  | vsubs (gd : Guard) (rd ra rb : Reg) (l : LaneI)
  /-- `VMUL` (R198): Multiplies packed lanes keeping the low half. -/
  | vmul (gd : Guard) (rd ra rb : Reg) (l : LaneI)
  /-- `VMULH` (R198): Multiplies packed signed lanes keeping the high half. -/
  | vmulh (gd : Guard) (rd ra rb : Reg) (l : LaneI)
  /-- `VMAC` (R198): Adds packed lane products to the lanes of rd. -/
  | vmac (gd : Guard) (rd ra rb : Reg) (l : LaneI)
  /-- `VDOT4` (R199): Accumulates four signed byte products into each 32-bit lane of rd. -/
  | vdot4 (gd : Guard) (rd ra rb : Reg)
  /-- `VMIN` (R198): Takes the signed minimum of packed lanes. -/
  | vmin (gd : Guard) (rd ra rb : Reg) (l : LaneI)
  /-- `VMAX` (R198): Takes the signed maximum of packed lanes. -/
  | vmax (gd : Guard) (rd ra rb : Reg) (l : LaneI)
  /-- `VABS` (R198): Takes the saturated absolute value of packed lanes. -/
  | vabs (gd : Guard) (rd ra : Reg) (l : LaneI)
  /-- `VAVG` (R198): Takes the rounded unsigned average of packed lanes. -/
  | vavg (gd : Guard) (rd ra rb : Reg) (l : LaneI)
  /-- `VSHL` (R198): Shifts packed lanes left by per-lane amounts. -/
  | vshl (gd : Guard) (rd ra rb : Reg) (l : LaneI)
  /-- `VSHR` (R198): Shifts packed lanes right logically by per-lane amounts. -/
  | vshr (gd : Guard) (rd ra rb : Reg) (l : LaneI)
  /-- `VSRA` (R198): Shifts packed lanes right arithmetically by per-lane amounts. -/
  | vsra (gd : Guard) (rd ra rb : Reg) (l : LaneI)
  /-- `VCMP_EQ` (R198): Sets each lane to all ones where the lanes are equal. -/
  | vcmpEq (gd : Guard) (rd ra rb : Reg) (l : LaneI)
  /-- `VCMP_NE` (R198): Sets each lane to all ones where the lanes differ. -/
  | vcmpNe (gd : Guard) (rd ra rb : Reg) (l : LaneI)
  /-- `VCMP_LT` (R198): Sets each lane to all ones where the signed x < y. -/
  | vcmpLt (gd : Guard) (rd ra rb : Reg) (l : LaneI)
  /-- `VCMP_GE` (R198): Sets each lane to all ones where the signed x ≥ y. -/
  | vcmpGe (gd : Guard) (rd ra rb : Reg) (l : LaneI)
  /-- `VCMP_LTU` (R198): Sets each lane to all ones where the unsigned x < y. -/
  | vcmpLtu (gd : Guard) (rd ra rb : Reg) (l : LaneI)
  /-- `VCMP_GEU` (R198): Sets each lane to all ones where the unsigned x ≥ y. -/
  | vcmpGeu (gd : Guard) (rd ra rb : Reg) (l : LaneI)
  /-- `VSEL` (R198): Selects each lane from a or b by the non-zero lanes of rd. -/
  | vsel (gd : Guard) (rd ra rb : Reg) (l : LaneI)
  /-- `VFADD` (R200): Adds packed float lanes with rounding in FRM. -/
  | vfadd (gd : Guard) (rd ra rb : Reg) (l : LaneF)
  /-- `VFMUL` (R200): Multiplies packed float lanes with rounding in FRM. -/
  | vfmul (gd : Guard) (rd ra rb : Reg) (l : LaneF)
  /-- `VFMA` (R200): Fused multiply-add of packed float lanes into rd with one rounding. -/
  | vfma (gd : Guard) (rd ra rb : Reg) (l : LaneF)
  /-- `VFMIN` (R201): Takes the float minimum of packed lanes. -/
  | vfmin (gd : Guard) (rd ra rb : Reg) (l : LaneF)
  /-- `VFMAX` (R201): Takes the float maximum of packed lanes. -/
  | vfmax (gd : Guard) (rd ra rb : Reg) (l : LaneF)
  /-- `VFCMP_EQ` (R201): Compares packed float lanes for equality. -/
  | vfcmpEq (gd : Guard) (rd ra rb : Reg) (l : LaneF)
  /-- `VFCMP_LT` (R201): Compares packed float lanes for less-than. -/
  | vfcmpLt (gd : Guard) (rd ra rb : Reg) (l : LaneF)
  /-- `VFCMP_LE` (R201): Compares packed float lanes for less-or-equal. -/
  | vfcmpLe (gd : Guard) (rd ra rb : Reg) (l : LaneF)
  /-- `VFCMP_UN` (R201): Marks packed float lanes where either operand is NaN. -/
  | vfcmpUn (gd : Guard) (rd ra rb : Reg) (l : LaneF)
  /-- `VSHUF` (R202): Permutes lanes of a by the indices in b. -/
  | vshuf (gd : Guard) (rd ra rb : Reg) (l : LaneI)
  /-- `VBCAST` (R202): Broadcasts lane b mod L of a to every lane. -/
  | vbcast (gd : Guard) (rd ra rb : Reg) (l : LaneI)
  /-- `VREV` (R202): Reverses the lane order of a. -/
  | vrev (gd : Guard) (rd ra : Reg) (l : LaneI)
  /-- `VPACK` (R202): Packs the truncated halves of the lanes of a and b. -/
  | vpack (gd : Guard) (rd ra rb : Reg) (l : LaneI)
  /-- `VUNPK` (R202): Sign-extends the low lanes of a to double width. -/
  | vunpk (gd : Guard) (rd ra : Reg) (l : LaneI)
  /-- `VCVT` (R203): Converts packed elements between the listed formats. -/
  | vcvt (gd : Guard) (rd ra : Reg) (x y : Fmt)
  /-- `VF4BLK` (R205): Packs eight 16-bit floats into an FP4 block with its E3M5 scale. -/
  | vf4blk (gd : Guard) (rd ra rb : Reg) (y : Fmt)
  /-- `VSUM` (R206): Sums every lane of a exactly, rounding float sums once. -/
  | vsum (gd : Guard) (rd ra : Reg) (y : Fmt)
  /-- `FDIV` (R211): Queues an FP32 divide in the special-function unit. -/
  | fdiv (gd : Guard) (rd ra rb : Reg)
  /-- `FSQRT` (R211): Queues an FP32 square root in the special-function unit. -/
  | fsqrt (gd : Guard) (rd ra : Reg)
  /-- `FRCP` (R211): Queues an FP32 reciprocal in the special-function unit. -/
  | frcp (gd : Guard) (rd ra : Reg)
  /-- `FRSQ` (R212): Queues an FP32 reciprocal square root rounded RNE. -/
  | frsq (gd : Guard) (rd ra : Reg)
  /-- `FEXP2` (R212): Queues an FP32 power of two rounded RNE. -/
  | fexp2 (gd : Guard) (rd ra : Reg)
  /-- `FLOG2` (R212): Queues an FP32 base-2 logarithm rounded RNE. -/
  | flog2 (gd : Guard) (rd ra : Reg)
  /-- `FSIN` (R212): Queues an FP32 sine rounded RNE. -/
  | fsin (gd : Guard) (rd ra : Reg)
  /-- `FCOS` (R212): Queues an FP32 cosine rounded RNE. -/
  | fcos (gd : Guard) (rd ra : Reg)
  /-- `FTANH` (R212): Queues an FP32 hyperbolic tangent rounded RNE. -/
  | ftanh (gd : Guard) (rd ra : Reg)
  /-- `FADD` (R208): Adds FP32 values, or with RQ = 1 queues an exact rational addition. -/
  | fadd (gd : Guard) (rd ra rb : Reg)
  /-- `FSUB` (R208): Subtracts FP32 values, or rationals with RQ = 1. -/
  | fsub (gd : Guard) (rd ra rb : Reg)
  /-- `FMUL` (R208): Multiplies FP32 values, or rationals with RQ = 1. -/
  | fmul (gd : Guard) (rd ra rb : Reg)
  /-- `FMA` (R208): Fused FP32 multiply-add into rd; illegal with RQ = 1. -/
  | fma (gd : Guard) (rd ra rb : Reg)
  /-- `FMIN` (R208): Takes the float or rational minimum. -/
  | fmin (gd : Guard) (rd ra rb : Reg)
  /-- `FMAX` (R208): Takes the float or rational maximum. -/
  | fmax (gd : Guard) (rd ra rb : Reg)
  /-- `FNEG` (R208): Negates a float or rational value. -/
  | fneg (gd : Guard) (rd ra : Reg)
  /-- `FABS` (R208): Takes the absolute value of a float or rational. -/
  | fabs (gd : Guard) (rd ra : Reg)
  /-- `FCMP_EQ` (R208): Sets pd to float or rational equality. -/
  | fcmpEq (gd : Guard) (rd : Pred) (ra rb : Reg)
  /-- `FCMP_LT` (R208): Sets pd to float or rational less-than. -/
  | fcmpLt (gd : Guard) (rd : Pred) (ra rb : Reg)
  /-- `FCMP_LE` (R208): Sets pd to float or rational less-or-equal. -/
  | fcmpLe (gd : Guard) (rd : Pred) (ra rb : Reg)
  /-- `FCMP_UN` (R208): Sets pd when either operand is unordered. -/
  | fcmpUn (gd : Guard) (rd : Pred) (ra rb : Reg)
  /-- `FCVT_S_L` (R208): Converts a signed 64-bit integer to FP32 or a rational. -/
  | fcvtSL (gd : Guard) (rd ra : Reg)
  /-- `FCVT_L_S` (R208): Converts FP32 or a rational to a signed 64-bit integer. -/
  | fcvtLS (gd : Guard) (rd ra : Reg)
  /-- `FCVT_S_LU` (R208): Converts an unsigned 64-bit integer to FP32 or a rational. -/
  | fcvtSLu (gd : Guard) (rd ra : Reg)
  /-- `FCVT_LU_S` (R208): Converts FP32 or a rational to an unsigned 64-bit integer. -/
  | fcvtLuS (gd : Guard) (rd ra : Reg)
  /-- `FCVT_S_HF` (R208): Widens FP16 to FP32, or converts it to a rational. -/
  | fcvtSHf (gd : Guard) (rd ra : Reg)
  /-- `FCVT_HF_S` (R208): Rounds FP32 or a rational to FP16. -/
  | fcvtHfS (gd : Guard) (rd ra : Reg)
  /-- `FCVT_S_BH` (R208): Widens BF16 to FP32, or converts it to a rational. -/
  | fcvtSBh (gd : Guard) (rd ra : Reg)
  /-- `FCVT_BH_S` (R208): Rounds FP32 or a rational to BF16. -/
  | fcvtBhS (gd : Guard) (rd ra : Reg)
  /-- `QMAKE` (R221): Forms the rational a / b by QRound. -/
  | qmake (gd : Guard) (rd ra rb : Reg)
  /-- `QNUM` (R221): Writes the signed reduced numerator of a rational. -/
  | qnum (gd : Guard) (rd ra : Reg)
  /-- `QDEN` (R221): Writes the reduced denominator of a rational. -/
  | qden (gd : Guard) (rd ra : Reg)
  /-- `QMED` (R221): Writes the mediant of two rationals. -/
  | qmed (gd : Guard) (rd ra rb : Reg)
  /-- `QCF` (R223): Writes continued-fraction term u(b) of a rational. -/
  | qcf (gd : Guard) (rd ra rb : Reg)
  /-- `QLIM` (R224): Restricts a rational to denominators of at most u(b). -/
  | qlim (gd : Guard) (rd ra rb : Reg)
  /-- `QCANON` (R221): Writes the canonical word of a rational. -/
  | qcanon (gd : Guard) (rd ra : Reg)
  /-- `QCVT_F` (R225): Converts between FP32 and rational in the direction RQ selects. -/
  | qcvtF (gd : Guard) (rd ra : Reg)
  /-- `QCVT_I` (R225): Writes the floor of a rational as a signed integer. -/
  | qcvtI (gd : Guard) (rd ra : Reg)
  /-- `QCLASS` (R222): Writes the class word of a rational. -/
  | qclass (gd : Guard) (rd ra : Reg)
  /-- `GCD` (R221): Writes the greatest common divisor of two unsigned integers. -/
  | gcd (gd : Guard) (rd ra rb : Reg)
  /-- `QSETM` (R221): Sets RQ and QRM from a[2:0] in the pipe. -/
  | qsetm (gd : Guard) (ra : Reg)
  /-- `ISSUE_MX` (R230): Pushes a command word to the cluster matrix engine and returns a job ID. -/
  | issueMx (gd : Guard) (rd ra : Reg)
  /-- `ISSUE_MX_SYNC` (R230): Pushes a matrix command and waits to observe its completion. -/
  | issueMxSync (gd : Guard) (rd ra : Reg)
  /-- `ISSUE_QD` (R230): Pushes a quad command to the matrix engine and returns a job ID. -/
  | issueQd (gd : Guard) (rd ra : Reg)
  /-- `ISSUE_QD_SYNC` (R230): Pushes a quad command and waits to observe its completion. -/
  | issueQdSync (gd : Guard) (rd ra : Reg)
  /-- `ISSUE_CP` (R230): Pushes a copy command to the copy hart and returns a job ID. -/
  | issueCp (gd : Guard) (rd ra : Reg)
  /-- `ISSUE_CP_SYNC` (R230): Pushes a copy command and waits to observe its completion. -/
  | issueCpSync (gd : Guard) (rd ra : Reg)
  /-- `ISSUE_CL` (R230): Pushes a collective command to the core's communication thread. -/
  | issueCl (gd : Guard) (rd ra : Reg)
  /-- `ISSUE_CL_SYNC` (R230): Pushes a collective command and waits to observe its completion. -/
  | issueClSync (gd : Guard) (rd ra : Reg)
  /-- `WAITJ` (R234): Waits for a job's record to show DONE and observes it. -/
  | waitj (gd : Guard) (ra : Reg)
  /-- `POLLJ` (R235): Sets pd to a job's DONE bit and observes it when done. -/
  | pollj (gd : Guard) (rd : Pred) (ra : Reg)
  /-- `JDROP` (R236): Cancels a job not yet accepted, or marks an accepted one dropped. -/
  | jdrop (gd : Guard) (ra : Reg)
  /-- `FMT_LD` (R241): Loads the core's format context from TCM after its earlier matrix commands complete. -/
  | fmtLd (gd : Guard) (ra : Reg)
  /-- `SPAWN` (R256): Creates a ready child tadpole on a core of the cluster. -/
  | spawn (gd : Guard) (rd ra rb : Reg)
  /-- `MIGR` (R257): Moves the tadpole to another cluster of its pond. -/
  | migr (gd : Guard) (ra : Reg)
  /-- `EXIT` (R258): Releases at device scope and ends the thread, freeing its run-queue entry. -/
  | exit (gd : Guard)
  /-- `YIELD` (R259): Returns the thread to the tail of its run-queue FIFO. -/
  | yield (gd : Guard)
  /-- `LNCH` (R260): Submits a launch record to a launch queue and returns its sequence number or refusal. -/
  | lnch (gd : Guard) (rd ra rb : Reg)
  /-- `GANG_2` (R261): Forms a gang of two cores in the issuing slot. -/
  | gang2 (gd : Guard)
  /-- `GANG_4` (R261): Forms a gang of four cores in the issuing slot. -/
  | gang4 (gd : Guard)
  /-- `GANG_8` (R261): Forms a gang of eight cores in the issuing slot. -/
  | gang8 (gd : Guard)
  /-- `UNGANG` (R262): Disbands the gang into independent threads. -/
  | ungang (gd : Guard)
  /-- `AM_SEND` (R265): Sends a handler message with a TCM payload to a core's slot 1. -/
  | amSend (gd : Guard) (ra rb : Reg)
  /-- `GSTORE` (R267): Contributes a value to the current round of a group entry. -/
  | gstore (gd : Guard) (ra rb : Reg)
  /-- `PROBE_START` (R268): Starts a phase probe of the pond that ends by incrementing a counter. -/
  | probeStart (gd : Guard) (ra : Reg)
  /-- `N_ALLOC` (R271): Takes a node from the cluster free list and types it as a net node. -/
  | nAlloc (gd : Guard) (rd ra : Reg)
  /-- `N_FREE` (R271): Marks a node as a forwarder and enters it in the cluster's limbo list. -/
  | nFree (gd : Guard) (ra : Reg)
  /-- `N_LINK` (R271): Links port a to b, and b back to a for a link port. -/
  | nLink (gd : Guard) (ra rb : Reg)
  /-- `N_RELINK` (R272): Connects the peer of a freed port to a live port, following forwarders. -/
  | nRelink (gd : Guard) (rd ra rb : Reg)
  /-- `N_READ` (R271): Reads a whole port word of a node. -/
  | nRead (gd : Guard) (rd ra : Reg)
  /-- `PAIR_POP` (R276): Takes the head active pair of the cluster's spawn pool, or all ones. -/
  | pairPop (gd : Guard) (rd : Reg)
  /-- `PAIR_PUSH` (R271): Pushes an active pair into the spawn pool beside its lower node. -/
  | pairPush (gd : Guard) (ra rb : Reg)
  /-- `RULE_LD` (R278): Sets the cluster's rule table base. -/
  | ruleLd (gd : Guard) (ra : Reg)
  /-- `RULE_GO` (R279): Looks up the rule for a pair and calls its handler. -/
  | ruleGo (gd : Guard) (ra : Reg)
  /-- `SRD` (R280): Reads a system register into rx. -/
  | srd (gd : Guard) (x : Reg) (n : SysReg)
  /-- `SWR` (R280): Writes rx into a system register, with pond-wide effect for TRAPVEC. -/
  | swr (gd : Guard) (x : Reg) (n : SysReg)
  /-- `TRAP` (R281): Raises software trap cause 0x06 with EADDR := n. -/
  | trap (gd : Guard) (n : BitVec 8)
  /-- `ERET` (R404): Returns from the current trap to EPC and lowers TND. -/
  | eret (gd : Guard)
  /-- `BRK` (R281): Raises breakpoint cause 0xA0. -/
  | brk (gd : Guard)
  /-- `WATCH` (R411): Sets a task watchpoint and waits until every cluster copy holds it. -/
  | watch (gd : Guard) (ra rb : Reg)
  /-- `CHORUS_MARK` (R416): Stores a mark for the thread's entry in the next chorus snapshot. -/
  | chorusMark (gd : Guard) (ra : Reg)
  /-- `TRACE_MARK` (R281): Writes a mark record to the cluster trace buffer. -/
  | traceMark (gd : Guard) (ra : Reg)
  /-- `TADPOLE_BINDING` (R43): A free worker slot selects the FIFO head and loads its context and segment registers. (its operands: core, slot) -/
  | tadpoleBinding
  /-- `QUANTUM_EXPIRY` (R43): After 1,024 rotations with a non-empty FIFO, the bound thread is unbound to the FIFO tail. (its operands: core, slot) -/
  | quantumExpiry
  /-- `REPLY_ARRIVAL` (R42): A reply, acknowledgement or wait end reaches a thread out of the rotation, writing results and readying it. (its operands: msg) -/
  | replyArrival
  /-- `ICACHE_LINE_ARRIVAL` (R136): A missed instruction line arrives and the waiting thread returns to the FIFO or its slot. (its operands: msg) -/
  | icacheLineArrival
  /-- `SFU_OPERATION_FINISH` (R210): A special-function or rational operation finishes and writes result, flags and SRG step. (its operands: core) -/
  | sfuOperationFinish
  /-- `HARDWARE_MIGRATION` (R337): A migration request from the RMT counter picks a destination core or is dropped. (its operands: tid) -/
  | hardwareMigration
  /-- `MIGRATION_DEPARTURE` (R257): After jobs, appends and release have completed, the tadpole leaves for the target cluster. (its operands: tid) -/
  | migrationDeparture
  /-- `MIGR_RETRY` (R337): Every 1,024 cycles a MIGR without a free target entry asks again. (its operands: tid) -/
  | migrRetry
  /-- `TADPOLE_ARRIVAL` (R338): Slot 1 writes an arriving tadpole into its reserved entry as ready. (its operands: msg) -/
  | tadpoleArrival
  /-- `WAKE` (R184): A wake message returns a parked tadpole to its FIFO with its result. (its operands: msg) -/
  | wake
  /-- `GANG_FORMATION_TIMEOUT` (R261): After 65,536 cycles without all members, every waiting member traps with cause 0x07. (its operands: tid, stamp) -/
  | gangFormationTimeout
  /-- `TLB_WALK_COMPLETION` (R392): A page-table walk ends, filling the TLB and letting the access proceed or fault. (its operands: msg) -/
  | tlbWalkCompletion
  /-- `L1_FILL` (R145): A line fill arrives and merges into the cluster L1 under the dirty mask. (its operands: msg) -/
  | l1Fill
  /-- `WRITE_BACK_AT_HOME` (R146): A write-back reaches its home and merges under its byte mask, or is discarded. (its operands: msg) -/
  | writeBackAtHome
  /-- `SLICE_REQUEST` (R316): A slice serves a load, fill or write-through request for memory it homes. (its operands: msg) -/
  | sliceRequest
  /-- `HBM_ACCESS_COMPLETION` (R322): An HBM read or write of a slice line completes. (its operands: msg) -/
  | hbmAccessCompletion
  /-- `EFT_OPERATION` (R318): The eft starts the oldest queued request whose object is idle and performs it. (its operands: slice) -/
  | eftOperation
  /-- `RESERVATION_REVOCATION` (R151): A grant outstanding 4,096 cycles is revoked and the word passed on. (its operands: addr, stamp) -/
  | reservationRevocation
  /-- `OVERFLOW_CHAIN_READ` (R319): A chain record read from HBM arrives, moving it inline or waking it in a sweep. (its operands: obj) -/
  | overflowChainRead
  /-- `OMEGA_COMBINE` (R321): Two CNT.ADD requests meeting at an omega switch combine into one. (its operands: lower, upper) -/
  | omegaCombine
  /-- `LOG_APPEND_ARRIVAL` (R152): A logged update entry arrives at its home's log area and is numbered. (its operands: msg) -/
  | logAppendArrival
  /-- `LOG_AREA_FULL_TIMEOUT` (R320): After 65,536 cycles of waiting on a full log area, cause 0x4B is posted. (its operands: tid, stamp) -/
  | logAreaFullTimeout
  /-- `PAIR_CHECK` (R273): The lower node's home sets PP and pushes a newly completed active pair once. (its operands: msg) -/
  | pairCheck
  /-- `ACCESS_COUNTER_HALVING` (R399): Every 2^20 cycles each slice halves every access counter. -/
  | accessCounterHalving
  /-- `FAULT_RECORD_DEFERRED` (R397): A waiting parked-fault record is made when room appears in the fault queue. (its operands: die) -/
  | faultRecordDeferred
  /-- `ENGINE_SELECTION` (R348): The matrix engine selects its next command, checks its format and starts its fill. (its operands: cluster) -/
  | engineSelection
  /-- `QUAD_SIGNAL` (R351): A quad member engine, signalled by the token holder, selects the QMMA ahead of its own queues. (its operands: cluster, job) -/
  | quadSignal
  /-- `MMA_F4` (R243): Accepted, adds an exact block-scaled FP4 product into a bank over 128 cycles. (its operands: cluster) -/
  | mmaF4
  /-- `MMA_BF` (R243): Accepted, adds a BF16 product into an FP32 bank in fixed order over 512 cycles. (its operands: cluster) -/
  | mmaBf
  /-- `MMA_H` (R243): Accepted, adds an FP16 product into an FP32 bank in fixed order over 512 cycles. (its operands: cluster) -/
  | mmaH
  /-- `ACC_ZERO` (R244): Clears a bank and sets its mode. (its operands: cluster) -/
  | accZero
  /-- `ACC_DRAIN` (R244): Writes a bank's 64 × 64 elements to scratchpad with band scales and one rounding. (its operands: cluster) -/
  | accDrain
  /-- `FMT_SET` (R241): Loads the issuing core's format context from TCM when accepted. (its operands: cluster) -/
  | fmtSet
  /-- `QMMA` (R245): Runs a joint FP4 product on the four engines of a quad and moves the token. (its operands: cluster) -/
  | qmma
  /-- `CP_1D` (R248): Copies a contiguous range, with an optional seal take or release. (its operands: cluster) -/
  | cp1d
  /-- `CP_2D` (R248): Copies ROWS rows of WIDTH bytes with strides. (its operands: cluster) -/
  | cp2d
  /-- `CP_GATHER` (R248): Gathers indexed elements into a contiguous destination. (its operands: cluster) -/
  | cpGather
  /-- `CP_SCATTER` (R248): Scatters contiguous elements to indexed destinations. (its operands: cluster) -/
  | cpScatter
  /-- `CP_FILL` (R248): Fills a range with an 8-byte pattern. (its operands: cluster) -/
  | cpFill
  /-- `CP_SIGNAL` (R250): Copies, writes back the data, then performs an object operation with release. (its operands: cluster) -/
  | cpSignal
  /-- `COPY_UNIT` (R353): The copy hart starts the next 128-byte unit of an active job. (its operands: cluster) -/
  | copyUnit
  /-- `JOB_COMPLETION` (R237): An engine job writes its record fields with release at CSC and retires its scoreboard entry. (its operands: job) -/
  | jobCompletion
  /-- `CL_REDUCE` (R252): Reduces every participant's source into the root's destination. (its operands: core) -/
  | clReduce
  /-- `CL_BCAST` (R252): Broadcasts the root's source to every participant. (its operands: core) -/
  | clBcast
  /-- `CL_ALLREDUCE` (R252): Reduces every source into every participant's destination. (its operands: core) -/
  | clAllreduce
  /-- `CL_CHUNK` (R354): The communication thread starts the next chunk of a collective job as a contribution. (its operands: core) -/
  | clChunk
  /-- `GROUP_CONTRIBUTION` (R357): A contribution reaches a router, which combines the round once all named contributions are in. (its operands: msg) -/
  | groupContribution
  /-- `GROUP_DELIVERY` (R359): A die router delivers a round's result and increments its delivery counter. (its operands: msg) -/
  | groupDelivery
  /-- `PACKET_ARRIVAL` (R369): A packet arrives at a router and is checked against the membership bitmap. (its operands: router, pkt) -/
  | packetArrival
  /-- `PACKET_GRANT` (R367): A torus output grants one packet after the previous one's last flit. (its operands: cluster, output) -/
  | packetGrant
  /-- `PACKET_PROMOTION` (R368): A head packet waiting AGELIM cycles is promoted for its next hop. (its operands: cluster, input, vc) -/
  | packetPromotion
  /-- `MESSAGE_ARRIVAL` (R372): A handler or stream message is placed in its receive ring or refused. (its operands: msg) -/
  | messageArrival
  /-- `MESSAGE_RETRY` (R373): After 64 × k cycles a refused message is resent, giving up at the 64th refusal. (its operands: msg) -/
  | messageRetry
  /-- `STREAM_MESSAGE_MOVE` (R371): A whole stream message moves from the stream ring to slot 0's receive queue when it fits. (its operands: core) -/
  | streamMessageMove
  /-- `HANDLER_START` (R266): Slot 1 takes the next queued handler message and starts its handler. (its operands: core) -/
  | handlerStart
  /-- `REMOTE_ACCESS_SERVICE` (R166): Slot 1 checks and performs a remote TCM or scratchpad access and replies. (its operands: core) -/
  | remoteAccessService
  /-- `PROBE_TOKEN` (R375): The probe token reaches an interface, adding its count and colour. (its operands: pond) -/
  | probeToken
  /-- `PHASE_END` (R268): A white zero-sum circuit ends the phase: merges, recycling, retirements, then the counter increment. (its operands: pond) -/
  | phaseEnd
  /-- `FABRIC_PACKET_ARRIVAL` (R382): A fabric request or message arrives and is deduplicated before it takes effect. (its operands: port, p) -/
  | fabricPacketArrival
  /-- `END_TO_END_ACKNOWLEDGEMENT` (R380): A destination's acknowledgement lets the source fabric router release the packet. (its operands: agent, seq) -/
  | endToEndAcknowledgement
  /-- `LINK_RESEND` (R381): On a CRC error or missing acknowledgement the link resends from the first unacknowledged flit. (its operands: port) -/
  | linkResend
  /-- `PORT_DOWN` (R381): A port goes down after 8 resends or lost training, and held packets are resent elsewhere. (its operands: port) -/
  | portDown
  /-- `LINK_TRAINING` (R376): A Trodon port trains to the highest rate and width both ends share. (its operands: port, rate, lanes) -/
  | linkTraining
  /-- `DEPENDENCE_MET` (R331): The scheduler's wait on a dependence counter ends and the head record becomes eligible. (its operands: queue) -/
  | dependenceMet
  /-- `HEAD_BLOCKING` (R332): A head eligible and unplaceable for 2^20 cycles becomes blocking. (its operands: queue, seq) -/
  | headBlocking
  /-- `POND_PLACEMENT` (R333): The scheduler places the next pond first-fit and starts it. -/
  | pondPlacement
  /-- `POND_END` (R336): When all tadpoles exit and jobs complete, the pond's logs merge, clusters free and the completion counter rises. (its operands: pond) -/
  | pondEnd
  /-- `QUEUE_SET` (R327): Host command that programs a launch queue's state. (its operands: the command of the event) -/
  | queueSet
  /-- `SLICE_SET` (R317): Host command that sets a die's slice configuration. (its operands: the command of the event) -/
  | sliceSet
  /-- `ASID_SET` (R386): Host command that writes an ASID table entry. (its operands: the command of the event) -/
  | asidSet
  /-- `TASK_SET` (R329): Host command that writes the task table. (its operands: the command of the event) -/
  | taskSet
  /-- `KEY_LOAD_DATA` (R438): KEY.LOAD with H = 0 stages a data key for an index. (its operands: the command of the event) -/
  | keyLoadData
  /-- `KEY_LOAD_TWEAK` (R438): KEY.LOAD with H = 1 installs the staged key, rewriting lines filled under the old one. (its operands: the command of the event) -/
  | keyLoadTweak
  /-- `ROUTE_SET` (R378): Host command that sets bitmaps, forwarding masks, VC weights and AGELIM. (its operands: the command of the event) -/
  | routeSet
  /-- `GROUP_SET_WRITE` (R356): GROUP.SET writes an invalid group entry. (its operands: the command of the event) -/
  | groupSetWrite
  /-- `GROUP_SET_RETIRE` (R360): GROUP.SET marks a valid group entry retiring. (its operands: the command of the event) -/
  | groupSetRetire
  /-- `FQ_SET` (R396): Host command that places a tenant's fault queue. (its operands: the command of the event) -/
  | fqSet
  /-- `FAULT_ANSWER_REISSUE` (R398): FAULT.ANSWER action 0 clears the fault and reissues or resumes the parked work. (its operands: the command of the event) -/
  | faultAnswerReissue
  /-- `FAULT_ANSWER_DELIVER` (R398): FAULT.ANSWER action 1 delivers the cause to the parked work. (its operands: the command of the event) -/
  | faultAnswerDeliver
  /-- `SHOOTDOWN` (R395): Host command that broadcasts a TLB shootdown of an ASID range. (its operands: the command of the event) -/
  | shootdown
  /-- `SHOOTDOWN_CLUSTER` (R395): A cluster stops walks, writes back, invalidates and increments the shootdown counter. (its operands: id, cluster) -/
  | shootdownCluster
  /-- `MOVE_START` (R400): Host command that starts a live page move or refuses it as busy. (its operands: the command of the event) -/
  | moveStart
  /-- `MOVE_PASS` (R401): A copy pass of a page move ends and the next or final pass begins. (its operands: id) -/
  | movePass
  /-- `MOVE_END` (R401): Host command that ends forwarding of a moved page. (its operands: the command of the event) -/
  | moveEnd
  /-- `PREEMPT` (R340): Host command that unbinds, waits for and saves a started pond. (its operands: the command of the event) -/
  | preempt
  /-- `RESUME` (R343): Host command that places a saved pond and restores its state. (its operands: the command of the event) -/
  | resume
  /-- `DEBUG_SET` (R410): Host command that sets a debug entry, CHORUSCFG, trace rings or SPER. (its operands: the command of the event) -/
  | debugSet
  /-- `DUMP` (R421): Host command that writes a core's state to a dump buffer. (its operands: the command of the event) -/
  | dump
  /-- `POWER_OPERATING_POINT` (R440): POWER sub-op 0 changes a die's operating point with a pause. (its operands: the command of the event) -/
  | powerOperatingPoint
  /-- `POWER_CLUSTER` (R441): POWER sub-op 1 gates or ungates a cluster. (its operands: the command of the event) -/
  | powerCluster
  /-- `POWER_HBM_REFRESH` (R442): POWER sub-op 2 sets a stack's refresh mode. (its operands: the command of the event) -/
  | powerHbmRefresh
  /-- `POWER_LINK_WIDTH` (R439): POWER sub-op 3 sets host-link or Trodon port width. (its operands: the command of the event) -/
  | powerLinkWidth
  /-- `WITHDRAW` (R443): Host command that sets or clears a cluster's withdrawal. (its operands: the command of the event) -/
  | withdraw
  /-- `CNT_READ` (R444): Host command that reads, and optionally clears, a counter set. (its operands: the command of the event) -/
  | cntRead
  /-- `LAUNCH` (R330): Host command that submits a launch record. (its operands: the command of the event) -/
  | launch
  /-- `ATTEST` (R437): Host command that writes a doubly signed attestation report. (its operands: the command of the event) -/
  | attest
  /-- `OBJ_SET` (R430): Host command that creates an object from a host image. (its operands: the command of the event) -/
  | objSet
  /-- `PAGE_ZERO` (R431): Host command that zeroes a physical page under a key and clears its tags and poison. (its operands: the command of the event) -/
  | pageZero
  /-- `FUNC_SET` (R432): Host command that sets a function's BAR2 window. (its operands: the command of the event) -/
  | funcSet
  /-- `DEV_SET` (R432): Host command that sets the device ID. (its operands: the command of the event) -/
  | devSet
  /-- `MRQ` (R426): A read takes the head completion record as Q.TRYGET with acquire. (its operands: fn) -/
  | mrq
  /-- `MEQ` (R426): A PF read takes the head event record. (its operands: fn) -/
  | meq
  /-- `HSTAT` (R425): A read returns boot status and clears the sticky MCQFULL bit. (its operands: fn) -/
  | hstat
  /-- `BAR2_ACCESS` (R432): A host BAR2 access is translated and performed at its home, or fails with all ones. (its operands: fn, off, wr, List, Byte)), (len) -/
  | bar2Access
  /-- `FUNCTION_LEVEL_RESET` (R433): A VF reset disables its queues, ends its ponds and empties its queues. (its operands: fn) -/
  | functionLevelReset
  /-- `BOOT` (R435): At reset the ROM verifies both signatures and SVN, measures components and runs firmware. (its operands: img) -/
  | boot
  /-- `THERMAL_TRIP` (R442): The module's thermal trip removes supply and the part restarts from reset. -/
  | thermalTrip
  /-- `CHORUS_TICK` (R414): Each PERIOD cycles every powered core latches its slots and a snapshot record is written. -/
  | chorusTick
  /-- `TRACE_DRAIN` (R418): The trace buffer drains one record to its host ring. (its operands: cluster) -/
  | traceDrain
  /-- `TRACE_DRAIN_TIMEOUT` (R420): 4,096 cycles after a gate command the remaining records are dropped and the cluster gated. (its operands: cluster) -/
  | traceDrainTimeout
  /-- `MCQ` (R426): A host write to BAR0 MCQ puts a 64-byte command as Q.TRYPUT with release, or sets MCQFULL and loses it when the queue is full. (its operands: fn, tag, cmd) -/
  | mcq
  /-- `ILLEGAL_WORD` (R80): A fetched word whose major or minor code is unassigned, or whose reserved or register fields are bad, raises cause 0x01 to 0x04 precisely. (its operands: cause, w) -/
  | illegalWord
  /-- `FETCH_TRAP` (R17): A fetch whose PC fails the limit, X-right or global-space check of s1 raises cause 0x20, 0x21 or 0x24 with EPC at the PC. (its operands: cause, addr) -/
  | fetchTrap
  /-- `OPERATING_POINT_PAUSE_END` (R440): The pause of at most 20 µs after an operating-point change ends, and the die's clusters, slices and waiting packets resume at the new clock. (its operands: die) -/
  | operatingPointPauseEnd
  /-- `CLUSTER_POWER_UP` (R441): An ungated cluster completes power-up with empty caches and TLB, becomes placeable and writes its gap trace record. (its operands: cluster) -/
  | clusterPowerUp
  /-- `FINAL_PASS_TIMEOUT` (R401): A page move's final pass that has not ended within 3,800 cycles is abandoned, its parked writes applied to the old page and status 2 written. (its operands: id) -/
  | finalPassTimeout
  /-- `LINK_ACKNOWLEDGEMENT` (R381): A cumulative link-level acknowledgement arrives and frees the sender's acknowledged flits and resend count. (its operands: port, count) -/
  | linkAcknowledgement
  /-- `IDE_ENABLE` (R424): The host enables or disables PCI Express IDE on a function, which gates KEY.LOAD. (its operands: fn, on) -/
  | ideEnable

/-- The row of a happening. -/
def EvKind.toInstr : EvKind → Instr
  | .tadpoleBinding => .tadpoleBinding
  | .quantumExpiry => .quantumExpiry
  | .replyArrival => .replyArrival
  | .icacheLineArrival => .icacheLineArrival
  | .sfuOperationFinish => .sfuOperationFinish
  | .hardwareMigration => .hardwareMigration
  | .migrationDeparture => .migrationDeparture
  | .migrRetry => .migrRetry
  | .tadpoleArrival => .tadpoleArrival
  | .wake => .wake
  | .gangFormationTimeout => .gangFormationTimeout
  | .tlbWalkCompletion => .tlbWalkCompletion
  | .l1Fill => .l1Fill
  | .writeBackAtHome => .writeBackAtHome
  | .sliceRequest => .sliceRequest
  | .hbmAccessCompletion => .hbmAccessCompletion
  | .eftOperation => .eftOperation
  | .reservationRevocation => .reservationRevocation
  | .overflowChainRead => .overflowChainRead
  | .omegaCombine => .omegaCombine
  | .logAppendArrival => .logAppendArrival
  | .logAreaFullTimeout => .logAreaFullTimeout
  | .pairCheck => .pairCheck
  | .accessCounterHalving => .accessCounterHalving
  | .faultRecordDeferred => .faultRecordDeferred
  | .engineSelection => .engineSelection
  | .quadSignal => .quadSignal
  | .mmaF4 => .mmaF4
  | .mmaBf => .mmaBf
  | .mmaH => .mmaH
  | .accZero => .accZero
  | .accDrain => .accDrain
  | .fmtSet => .fmtSet
  | .qmma => .qmma
  | .cp1d => .cp1d
  | .cp2d => .cp2d
  | .cpGather => .cpGather
  | .cpScatter => .cpScatter
  | .cpFill => .cpFill
  | .cpSignal => .cpSignal
  | .copyUnit => .copyUnit
  | .jobCompletion => .jobCompletion
  | .clReduce => .clReduce
  | .clBcast => .clBcast
  | .clAllreduce => .clAllreduce
  | .clChunk => .clChunk
  | .groupContribution => .groupContribution
  | .groupDelivery => .groupDelivery
  | .packetArrival => .packetArrival
  | .packetGrant => .packetGrant
  | .packetPromotion => .packetPromotion
  | .messageArrival => .messageArrival
  | .messageRetry => .messageRetry
  | .streamMessageMove => .streamMessageMove
  | .handlerStart => .handlerStart
  | .remoteAccessService => .remoteAccessService
  | .probeToken => .probeToken
  | .phaseEnd => .phaseEnd
  | .fabricPacketArrival => .fabricPacketArrival
  | .endToEndAcknowledgement => .endToEndAcknowledgement
  | .linkResend => .linkResend
  | .portDown => .portDown
  | .linkTraining => .linkTraining
  | .dependenceMet => .dependenceMet
  | .headBlocking => .headBlocking
  | .pondPlacement => .pondPlacement
  | .pondEnd => .pondEnd
  | .queueSet => .queueSet
  | .sliceSet => .sliceSet
  | .asidSet => .asidSet
  | .taskSet => .taskSet
  | .keyLoadData => .keyLoadData
  | .keyLoadTweak => .keyLoadTweak
  | .routeSet => .routeSet
  | .groupSetWrite => .groupSetWrite
  | .groupSetRetire => .groupSetRetire
  | .fqSet => .fqSet
  | .faultAnswerReissue => .faultAnswerReissue
  | .faultAnswerDeliver => .faultAnswerDeliver
  | .shootdown => .shootdown
  | .shootdownCluster => .shootdownCluster
  | .moveStart => .moveStart
  | .movePass => .movePass
  | .moveEnd => .moveEnd
  | .preempt => .preempt
  | .resume => .resume
  | .debugSet => .debugSet
  | .dump => .dump
  | .powerOperatingPoint => .powerOperatingPoint
  | .powerCluster => .powerCluster
  | .powerHbmRefresh => .powerHbmRefresh
  | .powerLinkWidth => .powerLinkWidth
  | .withdraw => .withdraw
  | .cntRead => .cntRead
  | .launch => .launch
  | .attest => .attest
  | .objSet => .objSet
  | .pageZero => .pageZero
  | .funcSet => .funcSet
  | .devSet => .devSet
  | .mrq => .mrq
  | .meq => .meq
  | .hstat => .hstat
  | .bar2Access => .bar2Access
  | .functionLevelReset => .functionLevelReset
  | .boot => .boot
  | .thermalTrip => .thermalTrip
  | .chorusTick => .chorusTick
  | .traceDrain => .traceDrain
  | .traceDrainTimeout => .traceDrainTimeout
  | .mcq => .mcq
  | .illegalWord => .illegalWord
  | .fetchTrap => .fetchTrap
  | .operatingPointPauseEnd => .operatingPointPauseEnd
  | .clusterPowerUp => .clusterPowerUp
  | .finalPassTimeout => .finalPassTimeout
  | .linkAcknowledgement => .linkAcknowledgement
  | .ideEnable => .ideEnable

end Sys2Proof
end

