-- ==== Sys2Proof/WellFormed.lean ====
section
/-! DEFINITION. Which terms of `Instr` an instruction word can carry: the operand rules of R80 step 2 and step 4 and of
the group tables. A happening has no word and no operand of its own. -/

namespace Sys2Proof

/-- A register code that stands where the format has no k8 field: anything but code 11 (R11, R78). -/
def Reg.plain : Reg → Bool
  | .k => false
  | _ => true

/-- A register that names a pair: g0, g2, g4, g6 or g8 (R80 step 4, R91). -/
def Reg.even : Reg → Bool
  | .g n => n.val % 2 == 0
  | _ => false

/-- What LOOP may name: anything but gz (R134). -/
def Reg.writable : Reg → Bool
  | .gz => false
  | _ => true

/-- The destination and source formats that VCVT assigns (R203). -/
def vcvtOk : Fmt → Fmt → Bool
  | .s, .hf | .s, .bh | .s, .n4 | .hf, .n4 | .bh, .n4 => true
  | .hf, .s | .bh, .s | .hf, .bh | .bh, .hf => true
  | .n4, .s | .n4, .hf | .n4, .bh => true
  | .s, .w | .hf, .h | .bh, .h => true
  | .w, .s | .h, .hf | .h, .bh => true
  | .b, .h | .h, .w => true
  | _, _ => false

/-- The terms that some legal word encodes (R80, R82). -/
def WellFormed : Instr → Bool
  | .add _ rd ra rb => rd.plain && ra.plain && rb.plain
  | .sub _ rd ra rb => rd.plain && ra.plain && rb.plain
  | .and _ rd ra rb => rd.plain && ra.plain && rb.plain
  | .or _ rd ra rb => rd.plain && ra.plain && rb.plain
  | .xor _ rd ra rb => rd.plain && ra.plain && rb.plain
  | .andn _ rd ra rb => rd.plain && ra.plain && rb.plain
  | .orn _ rd ra rb => rd.plain && ra.plain && rb.plain
  | .min _ rd ra rb => rd.plain && ra.plain && rb.plain
  | .max _ rd ra rb => rd.plain && ra.plain && rb.plain
  | .mins _ rd ra rb => rd.plain && ra.plain && rb.plain
  | .maxs _ rd ra rb => rd.plain && ra.plain && rb.plain
  | .shl _ rd ra rb => rd.plain && ra.plain && rb.plain
  | .shr _ rd ra rb => rd.plain && ra.plain && rb.plain
  | .sra _ rd ra rb => rd.plain && ra.plain && rb.plain
  | .rol _ rd ra rb => rd.plain && ra.plain && rb.plain
  | .ror _ rd ra rb => rd.plain && ra.plain && rb.plain
  | .clz _ rd ra => rd.plain && ra.plain
  | .ctz _ rd ra => rd.plain && ra.plain
  | .popc _ rd ra => rd.plain && ra.plain
  | .sextB _ rd ra => rd.plain && ra.plain
  | .sextH _ rd ra => rd.plain && ra.plain
  | .sextW _ rd ra => rd.plain && ra.plain
  | .zextB _ rd ra => rd.plain && ra.plain
  | .zextH _ rd ra => rd.plain && ra.plain
  | .zextW _ rd ra => rd.plain && ra.plain
  | .mov _ rd ra => rd.plain && ra.plain
  | .ldk _ rd ra => rd.plain && ra.plain
  | .stk _ ra rb => ra.plain && rb.plain
  | .sel _ rd ra rb _ => rd.plain && ra.plain && rb.plain
  | .nop _ => true
  | .addK _ _ _ _ => true
  | .subK _ _ _ _ => true
  | .andK _ _ _ _ => true
  | .orK _ _ _ _ => true
  | .xorK _ _ _ _ => true
  | .andnK _ _ _ _ => true
  | .ornK _ _ _ _ => true
  | .minK _ _ _ _ => true
  | .maxK _ _ _ _ => true
  | .minsK _ _ _ _ => true
  | .maxsK _ _ _ _ => true
  | .movK _ _ _ => true
  | .stkK _ _ _ => true
  | .cmpEq _ _ ra rb => ra.plain && rb.plain
  | .cmpNe _ _ ra rb => ra.plain && rb.plain
  | .cmpLt _ _ ra rb => ra.plain && rb.plain
  | .cmpGe _ _ ra rb => ra.plain && rb.plain
  | .cmpLe _ _ ra rb => ra.plain && rb.plain
  | .cmpGt _ _ ra rb => ra.plain && rb.plain
  | .cmpLtu _ _ ra rb => ra.plain && rb.plain
  | .cmpGeu _ _ ra rb => ra.plain && rb.plain
  | .cmpLeu _ _ ra rb => ra.plain && rb.plain
  | .cmpGtu _ _ ra rb => ra.plain && rb.plain
  | .tst _ _ ra rb => ra.plain && rb.plain
  | .cmpEqK _ _ _ _ => true
  | .cmpNeK _ _ _ _ => true
  | .cmpLtK _ _ _ _ => true
  | .cmpGeK _ _ _ _ => true
  | .cmpLeK _ _ _ _ => true
  | .cmpGtK _ _ _ _ => true
  | .cmpLtuK _ _ _ _ => true
  | .cmpGeuK _ _ _ _ => true
  | .cmpLeuK _ _ _ _ => true
  | .cmpGtuK _ _ _ _ => true
  | .tstK _ _ _ _ => true
  | .pand _ _ _ _ => true
  | .por _ _ _ _ => true
  | .pxor _ _ _ _ => true
  | .pnot _ _ _ => true
  | .pmov _ _ _ => true
  | .bfx _ rd ra p l => rd.plain && ra.plain && decide (p.toNat + l.toNat + 1 ≤ 64)
  | .bfxs _ rd ra p l => rd.plain && ra.plain && decide (p.toNat + l.toNat + 1 ≤ 64)
  | .bfi _ rd ra p l => rd.plain && ra.plain && decide (p.toNat + l.toNat + 1 ≤ 64)
  | .shlImm _ rd ra _ => rd.plain && ra.plain
  | .shrImm _ rd ra _ => rd.plain && ra.plain
  | .sraImm _ rd ra _ => rd.plain && ra.plain
  | .rolImm _ rd ra _ => rd.plain && ra.plain
  | .rorImm _ rd ra _ => rd.plain && ra.plain
  | .mul _ rd ra rb => rd.plain && ra.plain && rb.plain
  | .mulh _ rd ra rb => rd.plain && ra.plain && rb.plain
  | .mulhs _ rd ra rb => rd.plain && ra.plain && rb.plain
  | .div _ rd ra rb => rd.plain && ra.plain && rb.plain
  | .divs _ rd ra rb => rd.plain && ra.plain && rb.plain
  | .rem _ rd ra rb => rd.plain && ra.plain && rb.plain
  | .rems _ rd ra rb => rd.plain && ra.plain && rb.plain
  | .br _ _ => true
  | .call _ _ => true
  | .jmp _ ra => ra.plain
  | .ret _ => true
  | .loop _ ra _ => ra.plain && ra.writable
  | .ld _ _ _ _ _ _ => true
  | .st _ _ _ _ _ _ => true
  | .lds _ rd ra _ rb sz => rd.plain && ra.plain && rb.plain && decide (sz ≠ .d)
  | .ldRr _ rd ra _ rb _ => rd.plain && ra.plain && rb.plain
  | .stRr _ rd ra _ rb _ => rd.plain && ra.plain && rb.plain
  | .ldp _ rd ra _ rb => rd.even && ra.plain && rb.plain
  | .stp _ rd ra _ rb => rd.even && ra.plain && rb.plain
  | .rsv _ rd ra _ rb sz => rd.plain && ra.plain && rb.plain && decide (sz = .w ∨ sz = .d)
  | .rls _ rd ra _ rb sz => rd.plain && ra.plain && rb.plain && decide (sz = .w ∨ sz = .d)
  | .rlsx _ ra _ rb sz => ra.plain && rb.plain && decide (sz = .w ∨ sz = .d)
  | .logAdd _ rd ra _ rb _ => rd.plain && ra.plain && rb.plain
  | .logFadd _ rd ra _ rb => rd.plain && ra.plain && rb.plain
  | .logMin _ rd ra _ rb _ => rd.plain && ra.plain && rb.plain
  | .logMax _ rd ra _ rb _ => rd.plain && ra.plain && rb.plain
  | .logOr _ rd ra _ rb _ => rd.plain && ra.plain && rb.plain
  | .fenceAcq _ _ => true
  | .fenceRel _ _ => true
  | .fenceFull _ _ => true
  | .ldAcqW _ rd ra _ _ => rd.plain && ra.plain
  | .ldAcqD _ rd ra _ _ => rd.plain && ra.plain
  | .stRelW _ rd ra _ _ => rd.plain && ra.plain
  | .stRelD _ rd ra _ _ => rd.plain && ra.plain
  | .seal _ ra _ rb => ra.plain && rb.plain
  | .unseal _ rd ra _ => rd.plain && ra.plain
  | .pref _ ra _ => ra.plain
  | .cwb _ ra _ => ra.plain
  | .cdrop _ ra _ => ra.plain
  | .scbWait _ ra rb => ra.plain && rb.plain
  | .segLd _ _ ra => ra.plain
  | .segNarrow _ _ ra rb => ra.plain && rb.plain
  | .segGive _ _ ra _ => ra.plain
  | .segTake _ _ ra => ra.plain
  | .ldx _ rd ra rb _ _ => rd.plain && ra.plain && rb.plain
  | .stx _ rd ra rb _ _ => rd.plain && ra.plain && rb.plain
  | .stxN4 _ rd ra rb _ => rd.plain && ra.plain && rb.plain
  | .objInit _ ra _ rb => ra.plain && rb.plain
  | .objFree _ ra _ => ra.plain
  | .objRead _ rd ra _ => rd.plain && ra.plain
  | .cntAdd _ rd ra _ rb => rd.plain && ra.plain && rb.plain
  | .cntSwap _ rd ra _ rb => rd.plain && ra.plain && rb.plain
  | .cntCas _ rd ra _ rb => rd.plain && ra.plain && rb.plain
  | .cntWaitge _ rd ra _ rb => rd.plain && ra.plain && rb.plain
  | .cntWaiteq _ rd ra _ rb => rd.plain && ra.plain && rb.plain
  | .barArrive _ rd ra _ => rd.plain && ra.plain
  | .barWait _ ra _ rb => ra.plain && rb.plain
  | .barSync _ rd ra _ => rd.plain && ra.plain
  | .tktAcq _ rd ra _ => rd.plain && ra.plain
  | .tktTry _ _ ra _ => ra.plain
  | .tktRel _ ra _ => ra.plain
  | .cndWait _ ra _ rb => ra.plain && rb.plain
  | .cndSig _ ra _ => ra.plain
  | .cndBcast _ ra _ => ra.plain
  | .qPut _ ra _ rb => ra.plain && rb.plain
  | .qGet _ rd ra _ rb => rd.plain && ra.plain && rb.plain
  | .qTryput _ _ ra _ rb => ra.plain && rb.plain
  | .qTryget _ _ ra _ rb => ra.plain && rb.plain
  | .vadd _ rd ra rb _ => rd.plain && ra.plain && rb.plain
  | .vsub _ rd ra rb _ => rd.plain && ra.plain && rb.plain
  | .vadds _ rd ra rb _ => rd.plain && ra.plain && rb.plain
  | .vsubs _ rd ra rb _ => rd.plain && ra.plain && rb.plain
  | .vmul _ rd ra rb _ => rd.plain && ra.plain && rb.plain
  | .vmulh _ rd ra rb _ => rd.plain && ra.plain && rb.plain
  | .vmac _ rd ra rb _ => rd.plain && ra.plain && rb.plain
  | .vdot4 _ rd ra rb => rd.plain && ra.plain && rb.plain
  | .vmin _ rd ra rb _ => rd.plain && ra.plain && rb.plain
  | .vmax _ rd ra rb _ => rd.plain && ra.plain && rb.plain
  | .vabs _ rd ra _ => rd.plain && ra.plain
  | .vavg _ rd ra rb _ => rd.plain && ra.plain && rb.plain
  | .vshl _ rd ra rb _ => rd.plain && ra.plain && rb.plain
  | .vshr _ rd ra rb _ => rd.plain && ra.plain && rb.plain
  | .vsra _ rd ra rb _ => rd.plain && ra.plain && rb.plain
  | .vcmpEq _ rd ra rb _ => rd.plain && ra.plain && rb.plain
  | .vcmpNe _ rd ra rb _ => rd.plain && ra.plain && rb.plain
  | .vcmpLt _ rd ra rb _ => rd.plain && ra.plain && rb.plain
  | .vcmpGe _ rd ra rb _ => rd.plain && ra.plain && rb.plain
  | .vcmpLtu _ rd ra rb _ => rd.plain && ra.plain && rb.plain
  | .vcmpGeu _ rd ra rb _ => rd.plain && ra.plain && rb.plain
  | .vsel _ rd ra rb _ => rd.plain && ra.plain && rb.plain
  | .vfadd _ rd ra rb _ => rd.plain && ra.plain && rb.plain
  | .vfmul _ rd ra rb _ => rd.plain && ra.plain && rb.plain
  | .vfma _ rd ra rb _ => rd.plain && ra.plain && rb.plain
  | .vfmin _ rd ra rb _ => rd.plain && ra.plain && rb.plain
  | .vfmax _ rd ra rb _ => rd.plain && ra.plain && rb.plain
  | .vfcmpEq _ rd ra rb _ => rd.plain && ra.plain && rb.plain
  | .vfcmpLt _ rd ra rb _ => rd.plain && ra.plain && rb.plain
  | .vfcmpLe _ rd ra rb _ => rd.plain && ra.plain && rb.plain
  | .vfcmpUn _ rd ra rb _ => rd.plain && ra.plain && rb.plain
  | .vshuf _ rd ra rb _ => rd.plain && ra.plain && rb.plain
  | .vbcast _ rd ra rb _ => rd.plain && ra.plain && rb.plain
  | .vrev _ rd ra _ => rd.plain && ra.plain
  | .vpack _ rd ra rb _ => rd.plain && ra.plain && rb.plain
  | .vunpk _ rd ra _ => rd.plain && ra.plain
  | .vcvt _ rd ra x y => rd.plain && ra.plain && vcvtOk x y
  | .vf4blk _ rd ra rb y => rd.plain && ra.plain && rb.plain && decide (y = .hf ∨ y = .bh)
  | .vsum _ rd ra _ => rd.plain && ra.plain
  | .fdiv _ rd ra rb => rd.plain && ra.plain && rb.plain
  | .fsqrt _ rd ra => rd.plain && ra.plain
  | .frcp _ rd ra => rd.plain && ra.plain
  | .frsq _ rd ra => rd.plain && ra.plain
  | .fexp2 _ rd ra => rd.plain && ra.plain
  | .flog2 _ rd ra => rd.plain && ra.plain
  | .fsin _ rd ra => rd.plain && ra.plain
  | .fcos _ rd ra => rd.plain && ra.plain
  | .ftanh _ rd ra => rd.plain && ra.plain
  | .fadd _ rd ra rb => rd.plain && ra.plain && rb.plain
  | .fsub _ rd ra rb => rd.plain && ra.plain && rb.plain
  | .fmul _ rd ra rb => rd.plain && ra.plain && rb.plain
  | .fma _ rd ra rb => rd.plain && ra.plain && rb.plain
  | .fmin _ rd ra rb => rd.plain && ra.plain && rb.plain
  | .fmax _ rd ra rb => rd.plain && ra.plain && rb.plain
  | .fneg _ rd ra => rd.plain && ra.plain
  | .fabs _ rd ra => rd.plain && ra.plain
  | .fcmpEq _ _ ra rb => ra.plain && rb.plain
  | .fcmpLt _ _ ra rb => ra.plain && rb.plain
  | .fcmpLe _ _ ra rb => ra.plain && rb.plain
  | .fcmpUn _ _ ra rb => ra.plain && rb.plain
  | .fcvtSL _ rd ra => rd.plain && ra.plain
  | .fcvtLS _ rd ra => rd.plain && ra.plain
  | .fcvtSLu _ rd ra => rd.plain && ra.plain
  | .fcvtLuS _ rd ra => rd.plain && ra.plain
  | .fcvtSHf _ rd ra => rd.plain && ra.plain
  | .fcvtHfS _ rd ra => rd.plain && ra.plain
  | .fcvtSBh _ rd ra => rd.plain && ra.plain
  | .fcvtBhS _ rd ra => rd.plain && ra.plain
  | .qmake _ rd ra rb => rd.plain && ra.plain && rb.plain
  | .qnum _ rd ra => rd.plain && ra.plain
  | .qden _ rd ra => rd.plain && ra.plain
  | .qmed _ rd ra rb => rd.plain && ra.plain && rb.plain
  | .qcf _ rd ra rb => rd.plain && ra.plain && rb.plain
  | .qlim _ rd ra rb => rd.plain && ra.plain && rb.plain
  | .qcanon _ rd ra => rd.plain && ra.plain
  | .qcvtF _ rd ra => rd.plain && ra.plain
  | .qcvtI _ rd ra => rd.plain && ra.plain
  | .qclass _ rd ra => rd.plain && ra.plain
  | .gcd _ rd ra rb => rd.plain && ra.plain && rb.plain
  | .qsetm _ ra => ra.plain
  | .issueMx _ rd ra => rd.plain && ra.plain
  | .issueMxSync _ rd ra => rd.plain && ra.plain
  | .issueQd _ rd ra => rd.plain && ra.plain
  | .issueQdSync _ rd ra => rd.plain && ra.plain
  | .issueCp _ rd ra => rd.plain && ra.plain
  | .issueCpSync _ rd ra => rd.plain && ra.plain
  | .issueCl _ rd ra => rd.plain && ra.plain
  | .issueClSync _ rd ra => rd.plain && ra.plain
  | .waitj _ ra => ra.plain
  | .pollj _ _ ra => ra.plain
  | .jdrop _ ra => ra.plain
  | .fmtLd _ ra => ra.plain
  | .spawn _ rd ra rb => rd.plain && ra.plain && rb.plain
  | .migr _ ra => ra.plain
  | .exit _ => true
  | .yield _ => true
  | .lnch _ rd ra rb => rd.plain && ra.plain && rb.plain
  | .gang2 _ => true
  | .gang4 _ => true
  | .gang8 _ => true
  | .ungang _ => true
  | .amSend _ ra rb => ra.plain && rb.plain
  | .gstore _ ra rb => ra.plain && rb.plain
  | .probeStart _ ra => ra.plain
  | .nAlloc _ rd ra => rd.plain && ra.plain
  | .nFree _ ra => ra.plain
  | .nLink _ ra rb => ra.plain && rb.plain
  | .nRelink _ rd ra rb => rd.plain && ra.plain && rb.plain
  | .nRead _ rd ra => rd.plain && ra.plain
  | .pairPop _ rd => rd.plain
  | .pairPush _ ra rb => ra.plain && rb.plain
  | .ruleLd _ ra => ra.plain
  | .ruleGo _ ra => ra.plain
  | .srd _ x _ => x.plain
  | .swr _ x _ => x.plain
  | .trap _ _ => true
  | .eret _ => true
  | .brk _ => true
  | .watch _ ra rb => ra.plain && rb.plain
  | .chorusMark _ ra => ra.plain
  | .traceMark _ ra => ra.plain
  | .tadpoleBinding => true
  | .quantumExpiry => true
  | .replyArrival => true
  | .icacheLineArrival => true
  | .sfuOperationFinish => true
  | .hardwareMigration => true
  | .migrationDeparture => true
  | .migrRetry => true
  | .tadpoleArrival => true
  | .wake => true
  | .gangFormationTimeout => true
  | .tlbWalkCompletion => true
  | .l1Fill => true
  | .writeBackAtHome => true
  | .sliceRequest => true
  | .hbmAccessCompletion => true
  | .eftOperation => true
  | .reservationRevocation => true
  | .overflowChainRead => true
  | .omegaCombine => true
  | .logAppendArrival => true
  | .logAreaFullTimeout => true
  | .pairCheck => true
  | .accessCounterHalving => true
  | .faultRecordDeferred => true
  | .engineSelection => true
  | .quadSignal => true
  | .mmaF4 => true
  | .mmaBf => true
  | .mmaH => true
  | .accZero => true
  | .accDrain => true
  | .fmtSet => true
  | .qmma => true
  | .cp1d => true
  | .cp2d => true
  | .cpGather => true
  | .cpScatter => true
  | .cpFill => true
  | .cpSignal => true
  | .copyUnit => true
  | .jobCompletion => true
  | .clReduce => true
  | .clBcast => true
  | .clAllreduce => true
  | .clChunk => true
  | .groupContribution => true
  | .groupDelivery => true
  | .packetArrival => true
  | .packetGrant => true
  | .packetPromotion => true
  | .messageArrival => true
  | .messageRetry => true
  | .streamMessageMove => true
  | .handlerStart => true
  | .remoteAccessService => true
  | .probeToken => true
  | .phaseEnd => true
  | .fabricPacketArrival => true
  | .endToEndAcknowledgement => true
  | .linkResend => true
  | .portDown => true
  | .linkTraining => true
  | .dependenceMet => true
  | .headBlocking => true
  | .pondPlacement => true
  | .pondEnd => true
  | .queueSet => true
  | .sliceSet => true
  | .asidSet => true
  | .taskSet => true
  | .keyLoadData => true
  | .keyLoadTweak => true
  | .routeSet => true
  | .groupSetWrite => true
  | .groupSetRetire => true
  | .fqSet => true
  | .faultAnswerReissue => true
  | .faultAnswerDeliver => true
  | .shootdown => true
  | .shootdownCluster => true
  | .moveStart => true
  | .movePass => true
  | .moveEnd => true
  | .preempt => true
  | .resume => true
  | .debugSet => true
  | .dump => true
  | .powerOperatingPoint => true
  | .powerCluster => true
  | .powerHbmRefresh => true
  | .powerLinkWidth => true
  | .withdraw => true
  | .cntRead => true
  | .launch => true
  | .attest => true
  | .objSet => true
  | .pageZero => true
  | .funcSet => true
  | .devSet => true
  | .mrq => true
  | .meq => true
  | .hstat => true
  | .bar2Access => true
  | .functionLevelReset => true
  | .boot => true
  | .thermalTrip => true
  | .chorusTick => true
  | .traceDrain => true
  | .traceDrainTimeout => true
  | .mcq => true
  | .illegalWord => true
  | .fetchTrap => true
  | .operatingPointPauseEnd => true
  | .clusterPowerUp => true
  | .finalPassTimeout => true
  | .linkAcknowledgement => true
  | .ideEnable => true

end Sys2Proof
end

