-- ==== Sys2Proof/Decode.lean ====
section
/-! DEFINITION. The decoder: from an instruction word, or from bytes, to an instruction or the cause that R80 names; then
the encoder, written from the same tables R83 to R105. -/

namespace Sys2Proof

/-- The first check of R80 that a word fails. -/
inductive DecodeError where
  /-- step 1, cause 0x01 -/
  | major
  /-- step 2, cause 0x02 -/
  | minor
  /-- step 3, cause 0x03 -/
  | reserved
  /-- step 4, cause 0x04 -/
  | code
  /-- fewer than four bytes -/
  | short
  deriving DecidableEq, Repr

/-- The cause code of a failed check (R80). -/
def DecodeError.cause : DecodeError → Nat
  | .major => 0x01
  | .minor => 0x02
  | .reserved => 0x03
  | .code => 0x04
  | .short => 0x01

/-- The 23 rows whose constructors the compiler cannot build (their tags exceed its limit): the same operands under
the same names. -/
inductive Extra where
  | gang4 (gd : Guard)
  | gang8 (gd : Guard)
  | ungang (gd : Guard)
  | amSend (gd : Guard) (ra rb : Reg)
  | gstore (gd : Guard) (ra rb : Reg)
  | probeStart (gd : Guard) (ra : Reg)
  | nAlloc (gd : Guard) (rd ra : Reg)
  | nFree (gd : Guard) (ra : Reg)
  | nLink (gd : Guard) (ra rb : Reg)
  | nRelink (gd : Guard) (rd ra rb : Reg)
  | nRead (gd : Guard) (rd ra : Reg)
  | pairPop (gd : Guard) (rd : Reg)
  | pairPush (gd : Guard) (ra rb : Reg)
  | ruleLd (gd : Guard) (ra : Reg)
  | ruleGo (gd : Guard) (ra : Reg)
  | srd (gd : Guard) (x : Reg) (n : SysReg)
  | swr (gd : Guard) (x : Reg) (n : SysReg)
  | trap (gd : Guard) (n : BitVec 8)
  | eret (gd : Guard)
  | brk (gd : Guard)
  | watch (gd : Guard) (ra rb : Reg)
  | chorusMark (gd : Guard) (ra : Reg)
  | traceMark (gd : Guard) (ra : Reg)
  deriving DecidableEq, Repr

/-- What the decoder builds: an instruction, or the operands of one of the 23 rows of `Extra`. -/
inductive Form where
  | base (i : Instr)
  | extra (x : Extra)

/-- The instruction of a form. -/
noncomputable def Form.toInstr : Form → Instr
  | .base i => i
  | .extra (.gang4 gd) => .gang4 gd
  | .extra (.gang8 gd) => .gang8 gd
  | .extra (.ungang gd) => .ungang gd
  | .extra (.amSend gd ra rb) => .amSend gd ra rb
  | .extra (.gstore gd ra rb) => .gstore gd ra rb
  | .extra (.probeStart gd ra) => .probeStart gd ra
  | .extra (.nAlloc gd rd ra) => .nAlloc gd rd ra
  | .extra (.nFree gd ra) => .nFree gd ra
  | .extra (.nLink gd ra rb) => .nLink gd ra rb
  | .extra (.nRelink gd rd ra rb) => .nRelink gd rd ra rb
  | .extra (.nRead gd rd ra) => .nRead gd rd ra
  | .extra (.pairPop gd rd) => .pairPop gd rd
  | .extra (.pairPush gd ra rb) => .pairPush gd ra rb
  | .extra (.ruleLd gd ra) => .ruleLd gd ra
  | .extra (.ruleGo gd ra) => .ruleGo gd ra
  | .extra (.srd gd x n) => .srd gd x n
  | .extra (.swr gd x n) => .swr gd x n
  | .extra (.trap gd n) => .trap gd n
  | .extra (.eret gd) => .eret gd
  | .extra (.brk gd) => .brk gd
  | .extra (.watch gd ra rb) => .watch gd ra rb
  | .extra (.chorusMark gd ra) => .chorusMark gd ra
  | .extra (.traceMark gd ra) => .traceMark gd ra

/-- `n` bits of `w` from bit `lo` up. -/
def bits (w lo n : Nat) : Nat := w / 2 ^ lo % 2 ^ n

/-- A register field of a format without a k8 field (R10, R11). -/
def reg (c : Nat) : Except DecodeError Reg :=
  if h : c < 10 then .ok (.g ⟨c, h⟩)
  else if c = 10 then .ok .gz
  else if c = 12 then .ok .gq
  else .error .code

/-- A register field of a format with a k8 field (R10, R78). -/
def regK (c : Nat) : Except DecodeError Reg :=
  if c = 11 then .ok .k else reg c

/-- A register-pair field (R80 step 4). -/
def pair (c : Nat) : Except DecodeError Reg :=
  if h : c < 10 then (if c % 2 = 0 then .ok (.g ⟨c, h⟩) else .error .code) else .error .code

/-- A field that names a segment register (R80 step 4). -/
def seg (c : Nat) : Except DecodeError (Fin 8) :=
  if h : c < 8 then .ok ⟨c, h⟩ else .error .code

/-- A scope field (R6). -/
def scope (c : Nat) : Except DecodeError Scope :=
  match c with
  | 0 => .ok .thread
  | 1 => .ok .core
  | 2 => .ok .cluster
  | 3 => .ok .die
  | 4 => .ok .device
  | 5 => .ok .pod
  | _ => .error .code

/-- A size field (R78). -/
def size (c : Nat) : Size :=
  match c with
  | 0 => .b
  | 1 => .h
  | 2 => .w
  | _ => .d

/-- A lane code of majors 0x18 and 0x1A (R98). -/
def laneI (c : Nat) : Option LaneI :=
  match c with
  | 0 => some .b
  | 1 => some .h
  | 2 => some .w
  | _ => none

/-- A lane code of major 0x19 (R98). -/
def laneF (c : Nat) : Option LaneF :=
  match c with
  | 0 => some .hf
  | 1 => some .bh
  | 2 => some .s
  | _ => none

/-- A format code of major 0x1B (R99). -/
def fmt (c : Nat) : Option Fmt :=
  match c with
  | 0 => some .b
  | 1 => some .h
  | 2 => some .w
  | 3 => some .hf
  | 4 => some .bh
  | 5 => some .s
  | 6 => some .n4
  | _ => none

/-- The space bit of major 0x12 (R95). -/
def rspace (c : Nat) : RSpace := if c = 0 then .tcm else .scratch

/-- The register that a num12 names (R280). -/
def SysReg.ofNum (n : Nat) : Option SysReg :=
  match n with
  | 0x000 => some .status
  | 0x001 => some .cause
  | 0x002 => some .epc
  | 0x003 => some .eword
  | 0x004 => some .eaddr
  | 0x005 => some .task
  | 0x006 => some .trapvec
  | 0x007 => some .tscr
  | 0x008 => some .tnd
  | 0x010 => some .migthr
  | 0x011 => some .agelim
  | 0x012 => some .choruscfg
  | 0x013 => some .nfl
  | 0x014 => some .rtb
  | 0x018 => some .cycle
  | _ => none

/-- R80 step 3: the reserved bits `x` are zero. -/
def zero (x : Nat) (f : Except DecodeError Form) : Except DecodeError Form :=
  if x = 0 then f else .error .reserved

/-- Major 0x01 (R83). -/
def decInt (w : Nat) (g : Guard) : Except DecodeError Form :=
  if bits w 4 5 = 16 then (do let rd ← reg (bits w 17 4); let ra ← reg (bits w 13 4); let rb ← reg (bits w 9 4); let p := BitVec.ofNat 4 (bits w 0 4); pure (.base (.sel g rd ra rb p))) else
  match bits w 0 9 with
  | 0 => (do let rd ← reg (bits w 17 4); let ra ← reg (bits w 13 4); let rb ← reg (bits w 9 4); pure (.base (.add g rd ra rb)))
  | 1 => (do let rd ← reg (bits w 17 4); let ra ← reg (bits w 13 4); let rb ← reg (bits w 9 4); pure (.base (.sub g rd ra rb)))
  | 2 => (do let rd ← reg (bits w 17 4); let ra ← reg (bits w 13 4); let rb ← reg (bits w 9 4); pure (.base (.and g rd ra rb)))
  | 3 => (do let rd ← reg (bits w 17 4); let ra ← reg (bits w 13 4); let rb ← reg (bits w 9 4); pure (.base (.or g rd ra rb)))
  | 4 => (do let rd ← reg (bits w 17 4); let ra ← reg (bits w 13 4); let rb ← reg (bits w 9 4); pure (.base (.xor g rd ra rb)))
  | 5 => (do let rd ← reg (bits w 17 4); let ra ← reg (bits w 13 4); let rb ← reg (bits w 9 4); pure (.base (.andn g rd ra rb)))
  | 6 => (do let rd ← reg (bits w 17 4); let ra ← reg (bits w 13 4); let rb ← reg (bits w 9 4); pure (.base (.orn g rd ra rb)))
  | 8 => (do let rd ← reg (bits w 17 4); let ra ← reg (bits w 13 4); let rb ← reg (bits w 9 4); pure (.base (.min g rd ra rb)))
  | 9 => (do let rd ← reg (bits w 17 4); let ra ← reg (bits w 13 4); let rb ← reg (bits w 9 4); pure (.base (.max g rd ra rb)))
  | 10 => (do let rd ← reg (bits w 17 4); let ra ← reg (bits w 13 4); let rb ← reg (bits w 9 4); pure (.base (.mins g rd ra rb)))
  | 11 => (do let rd ← reg (bits w 17 4); let ra ← reg (bits w 13 4); let rb ← reg (bits w 9 4); pure (.base (.maxs g rd ra rb)))
  | 16 => (do let rd ← reg (bits w 17 4); let ra ← reg (bits w 13 4); let rb ← reg (bits w 9 4); pure (.base (.shl g rd ra rb)))
  | 17 => (do let rd ← reg (bits w 17 4); let ra ← reg (bits w 13 4); let rb ← reg (bits w 9 4); pure (.base (.shr g rd ra rb)))
  | 18 => (do let rd ← reg (bits w 17 4); let ra ← reg (bits w 13 4); let rb ← reg (bits w 9 4); pure (.base (.sra g rd ra rb)))
  | 19 => (do let rd ← reg (bits w 17 4); let ra ← reg (bits w 13 4); let rb ← reg (bits w 9 4); pure (.base (.rol g rd ra rb)))
  | 20 => (do let rd ← reg (bits w 17 4); let ra ← reg (bits w 13 4); let rb ← reg (bits w 9 4); pure (.base (.ror g rd ra rb)))
  | 24 => zero (bits w 9 4) (do let rd ← reg (bits w 17 4); let ra ← reg (bits w 13 4); pure (.base (.clz g rd ra)))
  | 25 => zero (bits w 9 4) (do let rd ← reg (bits w 17 4); let ra ← reg (bits w 13 4); pure (.base (.ctz g rd ra)))
  | 26 => zero (bits w 9 4) (do let rd ← reg (bits w 17 4); let ra ← reg (bits w 13 4); pure (.base (.popc g rd ra)))
  | 32 => zero (bits w 9 4) (do let rd ← reg (bits w 17 4); let ra ← reg (bits w 13 4); pure (.base (.sextB g rd ra)))
  | 33 => zero (bits w 9 4) (do let rd ← reg (bits w 17 4); let ra ← reg (bits w 13 4); pure (.base (.sextH g rd ra)))
  | 34 => zero (bits w 9 4) (do let rd ← reg (bits w 17 4); let ra ← reg (bits w 13 4); pure (.base (.sextW g rd ra)))
  | 36 => zero (bits w 9 4) (do let rd ← reg (bits w 17 4); let ra ← reg (bits w 13 4); pure (.base (.zextB g rd ra)))
  | 37 => zero (bits w 9 4) (do let rd ← reg (bits w 17 4); let ra ← reg (bits w 13 4); pure (.base (.zextH g rd ra)))
  | 38 => zero (bits w 9 4) (do let rd ← reg (bits w 17 4); let ra ← reg (bits w 13 4); pure (.base (.zextW g rd ra)))
  | 48 => zero (bits w 9 4) (do let rd ← reg (bits w 17 4); let ra ← reg (bits w 13 4); pure (.base (.mov g rd ra)))
  | 56 => zero (bits w 9 4) (do let rd ← reg (bits w 17 4); let ra ← reg (bits w 13 4); pure (.base (.ldk g rd ra)))
  | 57 => zero (bits w 17 4) (do let ra ← reg (bits w 13 4); let rb ← reg (bits w 9 4); pure (.base (.stk g ra rb)))
  | 496 => zero (bits w 9 12) (do pure (.base (.nop g)))
  | _ => .error .minor

/-- Major 0x02 (R84). -/
def decIntK (w : Nat) (g : Guard) : Except DecodeError Form :=
  match bits w 0 5 with
  | 0 => (do let rd ← regK (bits w 17 4); let ra ← regK (bits w 13 4); let k := BitVec.ofNat 8 (bits w 5 8); pure (.base (.addK g rd ra k)))
  | 1 => (do let rd ← regK (bits w 17 4); let ra ← regK (bits w 13 4); let k := BitVec.ofNat 8 (bits w 5 8); pure (.base (.subK g rd ra k)))
  | 2 => (do let rd ← regK (bits w 17 4); let ra ← regK (bits w 13 4); let k := BitVec.ofNat 8 (bits w 5 8); pure (.base (.andK g rd ra k)))
  | 3 => (do let rd ← regK (bits w 17 4); let ra ← regK (bits w 13 4); let k := BitVec.ofNat 8 (bits w 5 8); pure (.base (.orK g rd ra k)))
  | 4 => (do let rd ← regK (bits w 17 4); let ra ← regK (bits w 13 4); let k := BitVec.ofNat 8 (bits w 5 8); pure (.base (.xorK g rd ra k)))
  | 5 => (do let rd ← regK (bits w 17 4); let ra ← regK (bits w 13 4); let k := BitVec.ofNat 8 (bits w 5 8); pure (.base (.andnK g rd ra k)))
  | 6 => (do let rd ← regK (bits w 17 4); let ra ← regK (bits w 13 4); let k := BitVec.ofNat 8 (bits w 5 8); pure (.base (.ornK g rd ra k)))
  | 8 => (do let rd ← regK (bits w 17 4); let ra ← regK (bits w 13 4); let k := BitVec.ofNat 8 (bits w 5 8); pure (.base (.minK g rd ra k)))
  | 9 => (do let rd ← regK (bits w 17 4); let ra ← regK (bits w 13 4); let k := BitVec.ofNat 8 (bits w 5 8); pure (.base (.maxK g rd ra k)))
  | 10 => (do let rd ← regK (bits w 17 4); let ra ← regK (bits w 13 4); let k := BitVec.ofNat 8 (bits w 5 8); pure (.base (.minsK g rd ra k)))
  | 11 => (do let rd ← regK (bits w 17 4); let ra ← regK (bits w 13 4); let k := BitVec.ofNat 8 (bits w 5 8); pure (.base (.maxsK g rd ra k)))
  | 16 => zero (bits w 13 4) (do let rd ← regK (bits w 17 4); let k := BitVec.ofNat 8 (bits w 5 8); pure (.base (.movK g rd k)))
  | 17 => zero (bits w 17 4) (do let ra ← regK (bits w 13 4); let k := BitVec.ofNat 8 (bits w 5 8); pure (.base (.stkK g ra k)))
  | _ => .error .minor

/-- Major 0x03 (R85). -/
def decCmp (w : Nat) (g : Guard) : Except DecodeError Form :=
  if bits w 4 1 = 0 then (match bits w 0 4 with
  | 0 => zero (bits w 5 4) (do let p := BitVec.ofNat 4 (bits w 17 4); let ra ← reg (bits w 13 4); let rb ← reg (bits w 9 4); pure (.base (.cmpEq g p ra rb)))
  | 1 => zero (bits w 5 4) (do let p := BitVec.ofNat 4 (bits w 17 4); let ra ← reg (bits w 13 4); let rb ← reg (bits w 9 4); pure (.base (.cmpNe g p ra rb)))
  | 2 => zero (bits w 5 4) (do let p := BitVec.ofNat 4 (bits w 17 4); let ra ← reg (bits w 13 4); let rb ← reg (bits w 9 4); pure (.base (.cmpLt g p ra rb)))
  | 3 => zero (bits w 5 4) (do let p := BitVec.ofNat 4 (bits w 17 4); let ra ← reg (bits w 13 4); let rb ← reg (bits w 9 4); pure (.base (.cmpGe g p ra rb)))
  | 4 => zero (bits w 5 4) (do let p := BitVec.ofNat 4 (bits w 17 4); let ra ← reg (bits w 13 4); let rb ← reg (bits w 9 4); pure (.base (.cmpLe g p ra rb)))
  | 5 => zero (bits w 5 4) (do let p := BitVec.ofNat 4 (bits w 17 4); let ra ← reg (bits w 13 4); let rb ← reg (bits w 9 4); pure (.base (.cmpGt g p ra rb)))
  | 6 => zero (bits w 5 4) (do let p := BitVec.ofNat 4 (bits w 17 4); let ra ← reg (bits w 13 4); let rb ← reg (bits w 9 4); pure (.base (.cmpLtu g p ra rb)))
  | 7 => zero (bits w 5 4) (do let p := BitVec.ofNat 4 (bits w 17 4); let ra ← reg (bits w 13 4); let rb ← reg (bits w 9 4); pure (.base (.cmpGeu g p ra rb)))
  | 8 => zero (bits w 5 4) (do let p := BitVec.ofNat 4 (bits w 17 4); let ra ← reg (bits w 13 4); let rb ← reg (bits w 9 4); pure (.base (.cmpLeu g p ra rb)))
  | 9 => zero (bits w 5 4) (do let p := BitVec.ofNat 4 (bits w 17 4); let ra ← reg (bits w 13 4); let rb ← reg (bits w 9 4); pure (.base (.cmpGtu g p ra rb)))
  | 10 => zero (bits w 5 4) (do let p := BitVec.ofNat 4 (bits w 17 4); let ra ← reg (bits w 13 4); let rb ← reg (bits w 9 4); pure (.base (.tst g p ra rb)))
  | _ => .error .minor) else (match bits w 0 4 with
  | 0 => (do let p := BitVec.ofNat 4 (bits w 17 4); let ra ← regK (bits w 13 4); let k := BitVec.ofNat 8 (bits w 5 8); pure (.base (.cmpEqK g p ra k)))
  | 1 => (do let p := BitVec.ofNat 4 (bits w 17 4); let ra ← regK (bits w 13 4); let k := BitVec.ofNat 8 (bits w 5 8); pure (.base (.cmpNeK g p ra k)))
  | 2 => (do let p := BitVec.ofNat 4 (bits w 17 4); let ra ← regK (bits w 13 4); let k := BitVec.ofNat 8 (bits w 5 8); pure (.base (.cmpLtK g p ra k)))
  | 3 => (do let p := BitVec.ofNat 4 (bits w 17 4); let ra ← regK (bits w 13 4); let k := BitVec.ofNat 8 (bits w 5 8); pure (.base (.cmpGeK g p ra k)))
  | 4 => (do let p := BitVec.ofNat 4 (bits w 17 4); let ra ← regK (bits w 13 4); let k := BitVec.ofNat 8 (bits w 5 8); pure (.base (.cmpLeK g p ra k)))
  | 5 => (do let p := BitVec.ofNat 4 (bits w 17 4); let ra ← regK (bits w 13 4); let k := BitVec.ofNat 8 (bits w 5 8); pure (.base (.cmpGtK g p ra k)))
  | 6 => (do let p := BitVec.ofNat 4 (bits w 17 4); let ra ← regK (bits w 13 4); let k := BitVec.ofNat 8 (bits w 5 8); pure (.base (.cmpLtuK g p ra k)))
  | 7 => (do let p := BitVec.ofNat 4 (bits w 17 4); let ra ← regK (bits w 13 4); let k := BitVec.ofNat 8 (bits w 5 8); pure (.base (.cmpGeuK g p ra k)))
  | 8 => (do let p := BitVec.ofNat 4 (bits w 17 4); let ra ← regK (bits w 13 4); let k := BitVec.ofNat 8 (bits w 5 8); pure (.base (.cmpLeuK g p ra k)))
  | 9 => (do let p := BitVec.ofNat 4 (bits w 17 4); let ra ← regK (bits w 13 4); let k := BitVec.ofNat 8 (bits w 5 8); pure (.base (.cmpGtuK g p ra k)))
  | 10 => (do let p := BitVec.ofNat 4 (bits w 17 4); let ra ← regK (bits w 13 4); let k := BitVec.ofNat 8 (bits w 5 8); pure (.base (.tstK g p ra k)))
  | _ => .error .minor)

/-- Major 0x04 (R86). -/
def decPred (w : Nat) (g : Guard) : Except DecodeError Form :=
  match bits w 0 9 with
  | 0 => (do let rd := BitVec.ofNat 4 (bits w 17 4); let ra := BitVec.ofNat 4 (bits w 13 4); let rb := BitVec.ofNat 4 (bits w 9 4); pure (.base (.pand g rd ra rb)))
  | 1 => (do let rd := BitVec.ofNat 4 (bits w 17 4); let ra := BitVec.ofNat 4 (bits w 13 4); let rb := BitVec.ofNat 4 (bits w 9 4); pure (.base (.por g rd ra rb)))
  | 2 => (do let rd := BitVec.ofNat 4 (bits w 17 4); let ra := BitVec.ofNat 4 (bits w 13 4); let rb := BitVec.ofNat 4 (bits w 9 4); pure (.base (.pxor g rd ra rb)))
  | 3 => zero (bits w 9 4) (do let rd := BitVec.ofNat 4 (bits w 17 4); let ra := BitVec.ofNat 4 (bits w 13 4); pure (.base (.pnot g rd ra)))
  | 4 => zero (bits w 9 4) (do let rd := BitVec.ofNat 4 (bits w 17 4); let ra := BitVec.ofNat 4 (bits w 13 4); pure (.base (.pmov g rd ra)))
  | _ => .error .minor

/-- Major 0x05 (R87). -/
def decBits (w : Nat) (g : Guard) : Except DecodeError Form :=
  match bits w 11 2 with
  | 0 => if 64 < bits w 5 6 + bits w 0 5 + 1 then .error .minor else (do let rd ← reg (bits w 17 4); let ra ← reg (bits w 13 4); let p := BitVec.ofNat 6 (bits w 5 6); let l := BitVec.ofNat 5 (bits w 0 5); pure (.base (.bfx g rd ra p l)))
  | 1 => if 64 < bits w 5 6 + bits w 0 5 + 1 then .error .minor else (do let rd ← reg (bits w 17 4); let ra ← reg (bits w 13 4); let p := BitVec.ofNat 6 (bits w 5 6); let l := BitVec.ofNat 5 (bits w 0 5); pure (.base (.bfxs g rd ra p l)))
  | 2 => if 64 < bits w 5 6 + bits w 0 5 + 1 then .error .minor else (do let rd ← reg (bits w 17 4); let ra ← reg (bits w 13 4); let p := BitVec.ofNat 6 (bits w 5 6); let l := BitVec.ofNat 5 (bits w 0 5); pure (.base (.bfi g rd ra p l)))
  | _ =>
    match bits w 8 3 with
    | 0 => zero (bits w 6 2) (do let rd ← reg (bits w 17 4); let ra ← reg (bits w 13 4); let n := BitVec.ofNat 6 (bits w 0 6); pure (.base (.shlImm g rd ra n)))
    | 1 => zero (bits w 6 2) (do let rd ← reg (bits w 17 4); let ra ← reg (bits w 13 4); let n := BitVec.ofNat 6 (bits w 0 6); pure (.base (.shrImm g rd ra n)))
    | 2 => zero (bits w 6 2) (do let rd ← reg (bits w 17 4); let ra ← reg (bits w 13 4); let n := BitVec.ofNat 6 (bits w 0 6); pure (.base (.sraImm g rd ra n)))
    | 3 => zero (bits w 6 2) (do let rd ← reg (bits w 17 4); let ra ← reg (bits w 13 4); let n := BitVec.ofNat 6 (bits w 0 6); pure (.base (.rolImm g rd ra n)))
    | 4 => zero (bits w 6 2) (do let rd ← reg (bits w 17 4); let ra ← reg (bits w 13 4); let n := BitVec.ofNat 6 (bits w 0 6); pure (.base (.rorImm g rd ra n)))
    | _ => .error .minor

/-- Major 0x06 (R88). -/
def decMul (w : Nat) (g : Guard) : Except DecodeError Form :=
  match bits w 0 9 with
  | 0 => (do let rd ← reg (bits w 17 4); let ra ← reg (bits w 13 4); let rb ← reg (bits w 9 4); pure (.base (.mul g rd ra rb)))
  | 1 => (do let rd ← reg (bits w 17 4); let ra ← reg (bits w 13 4); let rb ← reg (bits w 9 4); pure (.base (.mulh g rd ra rb)))
  | 2 => (do let rd ← reg (bits w 17 4); let ra ← reg (bits w 13 4); let rb ← reg (bits w 9 4); pure (.base (.mulhs g rd ra rb)))
  | 3 => (do let rd ← reg (bits w 17 4); let ra ← reg (bits w 13 4); let rb ← reg (bits w 9 4); pure (.base (.div g rd ra rb)))
  | 4 => (do let rd ← reg (bits w 17 4); let ra ← reg (bits w 13 4); let rb ← reg (bits w 9 4); pure (.base (.divs g rd ra rb)))
  | 5 => (do let rd ← reg (bits w 17 4); let ra ← reg (bits w 13 4); let rb ← reg (bits w 9 4); pure (.base (.rem g rd ra rb)))
  | 6 => (do let rd ← reg (bits w 17 4); let ra ← reg (bits w 13 4); let rb ← reg (bits w 9 4); pure (.base (.rems g rd ra rb)))
  | _ => .error .minor

/-- Major 0x08 (R89). -/
def decBr (w : Nat) (g : Guard) : Except DecodeError Form :=
  (do let rd := BitVec.ofNat 21 (bits w 0 21); pure (.base (.br g rd)))

/-- Major 0x09 (R89). -/
def decCall (w : Nat) (g : Guard) : Except DecodeError Form :=
  (do let rd := BitVec.ofNat 21 (bits w 0 21); pure (.base (.call g rd)))

/-- Major 0x0A (R89, R134). -/
def decJump (w : Nat) (g : Guard) : Except DecodeError Form :=
  match bits w 19 2 with
  | 0 => zero (bits w 0 13 + bits w 17 2) (do let ra ← reg (bits w 13 4); pure (.base (.jmp g ra)))
  | 1 => zero (bits w 0 19) (do pure (.base (.ret g)))
  | 2 => if bits w 13 4 = 10 then .error .minor else zero (bits w 17 2) (do let ra ← reg (bits w 13 4); let rd := BitVec.ofNat 13 (bits w 0 13); pure (.base (.loop g ra rd)))
  | _ => .error .minor

/-- Major 0x0C (R90). -/
def decLoad (w : Nat) (g : Guard) : Except DecodeError Form :=
  (do let rd ← regK (bits w 17 4); let ra ← regK (bits w 13 4); let sg ← seg (bits w 10 3); let k := BitVec.ofNat 8 (bits w 2 8); let sz := size (bits w 0 2); pure (.base (.ld g rd ra sg k sz)))

/-- Major 0x0D (R90). -/
def decStore (w : Nat) (g : Guard) : Except DecodeError Form :=
  (do let rd ← regK (bits w 17 4); let ra ← regK (bits w 13 4); let sg ← seg (bits w 10 3); let k := BitVec.ofNat 8 (bits w 2 8); let sz := size (bits w 0 2); pure (.base (.st g rd ra sg k sz)))

/-- Major 0x0E (R91). -/
def decMr (w : Nat) (g : Guard) : Except DecodeError Form :=
  match bits w 2 4 with
  | 0 => if bits w 0 2 = 3 then .error .minor else (do let rd ← reg (bits w 17 4); let ra ← reg (bits w 13 4); let sg ← seg (bits w 10 3); let rb ← reg (bits w 6 4); let sz := size (bits w 0 2); pure (.base (.lds g rd ra sg rb sz)))
  | 1 => (do let rd ← reg (bits w 17 4); let ra ← reg (bits w 13 4); let sg ← seg (bits w 10 3); let rb ← reg (bits w 6 4); let sz := size (bits w 0 2); pure (.base (.ldRr g rd ra sg rb sz)))
  | 2 => (do let rd ← reg (bits w 17 4); let ra ← reg (bits w 13 4); let sg ← seg (bits w 10 3); let rb ← reg (bits w 6 4); let sz := size (bits w 0 2); pure (.base (.stRr g rd ra sg rb sz)))
  | 3 => if bits w 0 2 ≠ 3 then .error .minor else (do let rd ← pair (bits w 17 4); let ra ← reg (bits w 13 4); let sg ← seg (bits w 10 3); let rb ← reg (bits w 6 4); pure (.base (.ldp g rd ra sg rb)))
  | 4 => if bits w 0 2 ≠ 3 then .error .minor else (do let rd ← pair (bits w 17 4); let ra ← reg (bits w 13 4); let sg ← seg (bits w 10 3); let rb ← reg (bits w 6 4); pure (.base (.stp g rd ra sg rb)))
  | 5 => if bits w 0 2 < 2 then .error .minor else (do let rd ← reg (bits w 17 4); let ra ← reg (bits w 13 4); let sg ← seg (bits w 10 3); let rb ← reg (bits w 6 4); let sz := size (2 + bits w 0 1); pure (.base (.rsv g rd ra sg rb sz)))
  | 6 => if bits w 0 2 < 2 then .error .minor else (do let rd ← reg (bits w 17 4); let ra ← reg (bits w 13 4); let sg ← seg (bits w 10 3); let rb ← reg (bits w 6 4); let sz := size (2 + bits w 0 1); pure (.base (.rls g rd ra sg rb sz)))
  | 7 => if bits w 0 2 < 2 then .error .minor else zero (bits w 17 4) (do let ra ← reg (bits w 13 4); let sg ← seg (bits w 10 3); let rb ← reg (bits w 6 4); let sz := size (2 + bits w 0 1); pure (.base (.rlsx g ra sg rb sz)))
  | _ => .error .minor

/-- Major 0x0F (R92). -/
def decLog (w : Nat) (g : Guard) : Except DecodeError Form :=
  match bits w 2 4 with
  | 0 => (do let rd ← reg (bits w 17 4); let ra ← reg (bits w 13 4); let sg ← seg (bits w 10 3); let rb ← reg (bits w 6 4); let sz := size (bits w 0 2); pure (.base (.logAdd g rd ra sg rb sz)))
  | 1 => if bits w 0 2 ≠ 2 then .error .minor else (do let rd ← reg (bits w 17 4); let ra ← reg (bits w 13 4); let sg ← seg (bits w 10 3); let rb ← reg (bits w 6 4); pure (.base (.logFadd g rd ra sg rb)))
  | 2 => (do let rd ← reg (bits w 17 4); let ra ← reg (bits w 13 4); let sg ← seg (bits w 10 3); let rb ← reg (bits w 6 4); let sz := size (bits w 0 2); pure (.base (.logMin g rd ra sg rb sz)))
  | 3 => (do let rd ← reg (bits w 17 4); let ra ← reg (bits w 13 4); let sg ← seg (bits w 10 3); let rb ← reg (bits w 6 4); let sz := size (bits w 0 2); pure (.base (.logMax g rd ra sg rb sz)))
  | 4 => (do let rd ← reg (bits w 17 4); let ra ← reg (bits w 13 4); let sg ← seg (bits w 10 3); let rb ← reg (bits w 6 4); let sz := size (bits w 0 2); pure (.base (.logOr g rd ra sg rb sz)))
  | _ => .error .minor

/-- Major 0x10 (R93). -/
def decOrd (w : Nat) (g : Guard) : Except DecodeError Form :=
  match bits w 0 6 with
  | 0 => zero (bits w 6 4 + bits w 13 8) (do let sc ← scope (bits w 10 3); pure (.base (.fenceAcq g sc)))
  | 1 => zero (bits w 6 4 + bits w 13 8) (do let sc ← scope (bits w 10 3); pure (.base (.fenceRel g sc)))
  | 2 => zero (bits w 6 4 + bits w 13 8) (do let sc ← scope (bits w 10 3); pure (.base (.fenceFull g sc)))
  | 4 => (do let rd ← reg (bits w 17 4); let ra ← reg (bits w 13 4); let sc ← scope (bits w 10 3); let sg ← seg (bits w 6 4); pure (.base (.ldAcqW g rd ra sc sg)))
  | 5 => (do let rd ← reg (bits w 17 4); let ra ← reg (bits w 13 4); let sc ← scope (bits w 10 3); let sg ← seg (bits w 6 4); pure (.base (.ldAcqD g rd ra sc sg)))
  | 6 => (do let rd ← reg (bits w 17 4); let ra ← reg (bits w 13 4); let sc ← scope (bits w 10 3); let sg ← seg (bits w 6 4); pure (.base (.stRelW g rd ra sc sg)))
  | 7 => (do let rd ← reg (bits w 17 4); let ra ← reg (bits w 13 4); let sc ← scope (bits w 10 3); let sg ← seg (bits w 6 4); pure (.base (.stRelD g rd ra sc sg)))
  | 8 => zero (bits w 17 4) (do let ra ← reg (bits w 13 4); let sc ← scope (bits w 10 3); let rb ← reg (bits w 6 4); pure (.base (.seal g ra sc rb)))
  | 9 => zero (bits w 6 4) (do let rd ← reg (bits w 17 4); let ra ← reg (bits w 13 4); let sc ← scope (bits w 10 3); pure (.base (.unseal g rd ra sc)))
  | 12 => zero (bits w 10 3 + bits w 17 4) (do let ra ← reg (bits w 13 4); let sg ← seg (bits w 6 4); pure (.base (.pref g ra sg)))
  | 13 => zero (bits w 10 3 + bits w 17 4) (do let ra ← reg (bits w 13 4); let sg ← seg (bits w 6 4); pure (.base (.cwb g ra sg)))
  | 14 => zero (bits w 10 3 + bits w 17 4) (do let ra ← reg (bits w 13 4); let sg ← seg (bits w 6 4); pure (.base (.cdrop g ra sg)))
  | 15 => zero (bits w 10 3 + bits w 17 4) (do let ra ← reg (bits w 13 4); let rb ← reg (bits w 6 4); pure (.base (.scbWait g ra rb)))
  | _ => .error .minor

/-- Major 0x11 (R94). -/
def decSeg (w : Nat) (g : Guard) : Except DecodeError Form :=
  match bits w 0 6 with
  | 0 => zero (bits w 6 7) (do let rd ← seg (bits w 17 4); let ra ← reg (bits w 13 4); pure (.base (.segLd g rd ra)))
  | 1 => zero (bits w 10 3) (do let rd ← seg (bits w 17 4); let ra ← reg (bits w 13 4); let rb ← reg (bits w 6 4); pure (.base (.segNarrow g rd ra rb)))
  | 2 => zero (bits w 6 4) (do let rd ← seg (bits w 17 4); let ra ← reg (bits w 13 4); let sc ← scope (bits w 10 3); pure (.base (.segGive g rd ra sc)))
  | 3 => zero (bits w 6 7) (do let rd ← seg (bits w 17 4); let ra ← reg (bits w 13 4); pure (.base (.segTake g rd ra)))
  | _ => .error .minor

/-- Major 0x12 (R95). -/
def decRemote (w : Nat) (g : Guard) : Except DecodeError Form :=
  if 1 < bits w 2 2 then .error .minor else
  match bits w 4 5 with
  | 0 => (do let rd ← reg (bits w 17 4); let ra ← reg (bits w 13 4); let rb ← reg (bits w 9 4); let sp := rspace (bits w 2 1); let sz := size (bits w 0 2); pure (.base (.ldx g rd ra rb sp sz)))
  | 1 => (do let rd ← reg (bits w 17 4); let ra ← reg (bits w 13 4); let rb ← reg (bits w 9 4); let sp := rspace (bits w 2 1); let sz := size (bits w 0 2); pure (.base (.stx g rd ra rb sp sz)))
  | 2 => if bits w 0 2 = 0 then (do let rd ← reg (bits w 17 4); let ra ← reg (bits w 13 4); let rb ← reg (bits w 9 4); let sp := rspace (bits w 2 1); pure (.base (.stxN4 g rd ra rb sp))) else .error .minor
  | _ => .error .minor

/-- Major 0x14 (R96). -/
def decObj (w : Nat) (g : Guard) : Except DecodeError Form :=
  match bits w 0 6 with
  | 0 => zero (bits w 17 4) (do let ra ← reg (bits w 13 4); let sc ← scope (bits w 10 3); let rb ← reg (bits w 6 4); pure (.base (.objInit g ra sc rb)))
  | 1 => zero (bits w 6 4 + bits w 17 4) (do let ra ← reg (bits w 13 4); let sc ← scope (bits w 10 3); pure (.base (.objFree g ra sc)))
  | 2 => zero (bits w 6 4) (do let rd ← reg (bits w 17 4); let ra ← reg (bits w 13 4); let sc ← scope (bits w 10 3); pure (.base (.objRead g rd ra sc)))
  | 8 => (do let rd ← reg (bits w 17 4); let ra ← reg (bits w 13 4); let sc ← scope (bits w 10 3); let rb ← reg (bits w 6 4); pure (.base (.cntAdd g rd ra sc rb)))
  | 9 => (do let rd ← reg (bits w 17 4); let ra ← reg (bits w 13 4); let sc ← scope (bits w 10 3); let rb ← reg (bits w 6 4); pure (.base (.cntSwap g rd ra sc rb)))
  | 10 => (do let rd ← reg (bits w 17 4); let ra ← reg (bits w 13 4); let sc ← scope (bits w 10 3); let rb ← reg (bits w 6 4); pure (.base (.cntCas g rd ra sc rb)))
  | 11 => (do let rd ← reg (bits w 17 4); let ra ← reg (bits w 13 4); let sc ← scope (bits w 10 3); let rb ← reg (bits w 6 4); pure (.base (.cntWaitge g rd ra sc rb)))
  | 12 => (do let rd ← reg (bits w 17 4); let ra ← reg (bits w 13 4); let sc ← scope (bits w 10 3); let rb ← reg (bits w 6 4); pure (.base (.cntWaiteq g rd ra sc rb)))
  | 16 => zero (bits w 6 4) (do let rd ← reg (bits w 17 4); let ra ← reg (bits w 13 4); let sc ← scope (bits w 10 3); pure (.base (.barArrive g rd ra sc)))
  | 17 => zero (bits w 17 4) (do let ra ← reg (bits w 13 4); let sc ← scope (bits w 10 3); let rb ← reg (bits w 6 4); pure (.base (.barWait g ra sc rb)))
  | 18 => zero (bits w 6 4) (do let rd ← reg (bits w 17 4); let ra ← reg (bits w 13 4); let sc ← scope (bits w 10 3); pure (.base (.barSync g rd ra sc)))
  | 24 => zero (bits w 6 4) (do let rd ← reg (bits w 17 4); let ra ← reg (bits w 13 4); let sc ← scope (bits w 10 3); pure (.base (.tktAcq g rd ra sc)))
  | 25 => zero (bits w 6 4) (do let rd := BitVec.ofNat 4 (bits w 17 4); let ra ← reg (bits w 13 4); let sc ← scope (bits w 10 3); pure (.base (.tktTry g rd ra sc)))
  | 26 => zero (bits w 6 4 + bits w 17 4) (do let ra ← reg (bits w 13 4); let sc ← scope (bits w 10 3); pure (.base (.tktRel g ra sc)))
  | 32 => zero (bits w 17 4) (do let ra ← reg (bits w 13 4); let sc ← scope (bits w 10 3); let rb ← reg (bits w 6 4); pure (.base (.cndWait g ra sc rb)))
  | 33 => zero (bits w 6 4 + bits w 17 4) (do let ra ← reg (bits w 13 4); let sc ← scope (bits w 10 3); pure (.base (.cndSig g ra sc)))
  | 34 => zero (bits w 6 4 + bits w 17 4) (do let ra ← reg (bits w 13 4); let sc ← scope (bits w 10 3); pure (.base (.cndBcast g ra sc)))
  | _ => .error .minor

/-- Major 0x15 (R97). -/
def decQueue (w : Nat) (g : Guard) : Except DecodeError Form :=
  match bits w 0 6 with
  | 0 => zero (bits w 17 4) (do let ra ← reg (bits w 13 4); let sc ← scope (bits w 10 3); let rb ← reg (bits w 6 4); pure (.base (.qPut g ra sc rb)))
  | 1 => (do let rd ← reg (bits w 17 4); let ra ← reg (bits w 13 4); let sc ← scope (bits w 10 3); let rb ← reg (bits w 6 4); pure (.base (.qGet g rd ra sc rb)))
  | 2 => (do let rd := BitVec.ofNat 4 (bits w 17 4); let ra ← reg (bits w 13 4); let sc ← scope (bits w 10 3); let rb ← reg (bits w 6 4); pure (.base (.qTryput g rd ra sc rb)))
  | 3 => (do let rd := BitVec.ofNat 4 (bits w 17 4); let ra ← reg (bits w 13 4); let sc ← scope (bits w 10 3); let rb ← reg (bits w 6 4); pure (.base (.qTryget g rd ra sc rb)))
  | _ => .error .minor

/-- Major 0x18 (R98). -/
def decVInt (w : Nat) (g : Guard) : Except DecodeError Form :=
  match laneI (bits w 0 2) with
  | none => .error .minor
  | some l =>
    match bits w 2 7 with
    | 0 => (do let rd ← reg (bits w 17 4); let ra ← reg (bits w 13 4); let rb ← reg (bits w 9 4); pure (.base (.vadd g rd ra rb l)))
    | 1 => (do let rd ← reg (bits w 17 4); let ra ← reg (bits w 13 4); let rb ← reg (bits w 9 4); pure (.base (.vsub g rd ra rb l)))
    | 2 => (do let rd ← reg (bits w 17 4); let ra ← reg (bits w 13 4); let rb ← reg (bits w 9 4); pure (.base (.vadds g rd ra rb l)))
    | 3 => (do let rd ← reg (bits w 17 4); let ra ← reg (bits w 13 4); let rb ← reg (bits w 9 4); pure (.base (.vsubs g rd ra rb l)))
    | 4 => (do let rd ← reg (bits w 17 4); let ra ← reg (bits w 13 4); let rb ← reg (bits w 9 4); pure (.base (.vmul g rd ra rb l)))
    | 5 => (do let rd ← reg (bits w 17 4); let ra ← reg (bits w 13 4); let rb ← reg (bits w 9 4); pure (.base (.vmulh g rd ra rb l)))
    | 6 => (do let rd ← reg (bits w 17 4); let ra ← reg (bits w 13 4); let rb ← reg (bits w 9 4); pure (.base (.vmac g rd ra rb l)))
    | 7 => if l = .b then (do let rd ← reg (bits w 17 4); let ra ← reg (bits w 13 4); let rb ← reg (bits w 9 4); pure (.base (.vdot4 g rd ra rb))) else .error .minor
    | 8 => (do let rd ← reg (bits w 17 4); let ra ← reg (bits w 13 4); let rb ← reg (bits w 9 4); pure (.base (.vmin g rd ra rb l)))
    | 9 => (do let rd ← reg (bits w 17 4); let ra ← reg (bits w 13 4); let rb ← reg (bits w 9 4); pure (.base (.vmax g rd ra rb l)))
    | 10 => zero (bits w 9 4) (do let rd ← reg (bits w 17 4); let ra ← reg (bits w 13 4); pure (.base (.vabs g rd ra l)))
    | 11 => (do let rd ← reg (bits w 17 4); let ra ← reg (bits w 13 4); let rb ← reg (bits w 9 4); pure (.base (.vavg g rd ra rb l)))
    | 12 => (do let rd ← reg (bits w 17 4); let ra ← reg (bits w 13 4); let rb ← reg (bits w 9 4); pure (.base (.vshl g rd ra rb l)))
    | 13 => (do let rd ← reg (bits w 17 4); let ra ← reg (bits w 13 4); let rb ← reg (bits w 9 4); pure (.base (.vshr g rd ra rb l)))
    | 14 => (do let rd ← reg (bits w 17 4); let ra ← reg (bits w 13 4); let rb ← reg (bits w 9 4); pure (.base (.vsra g rd ra rb l)))
    | 16 => (do let rd ← reg (bits w 17 4); let ra ← reg (bits w 13 4); let rb ← reg (bits w 9 4); pure (.base (.vcmpEq g rd ra rb l)))
    | 17 => (do let rd ← reg (bits w 17 4); let ra ← reg (bits w 13 4); let rb ← reg (bits w 9 4); pure (.base (.vcmpNe g rd ra rb l)))
    | 18 => (do let rd ← reg (bits w 17 4); let ra ← reg (bits w 13 4); let rb ← reg (bits w 9 4); pure (.base (.vcmpLt g rd ra rb l)))
    | 19 => (do let rd ← reg (bits w 17 4); let ra ← reg (bits w 13 4); let rb ← reg (bits w 9 4); pure (.base (.vcmpGe g rd ra rb l)))
    | 20 => (do let rd ← reg (bits w 17 4); let ra ← reg (bits w 13 4); let rb ← reg (bits w 9 4); pure (.base (.vcmpLtu g rd ra rb l)))
    | 21 => (do let rd ← reg (bits w 17 4); let ra ← reg (bits w 13 4); let rb ← reg (bits w 9 4); pure (.base (.vcmpGeu g rd ra rb l)))
    | 24 => (do let rd ← reg (bits w 17 4); let ra ← reg (bits w 13 4); let rb ← reg (bits w 9 4); pure (.base (.vsel g rd ra rb l)))
    | _ => .error .minor

/-- Major 0x19 (R98). -/
def decVFloat (w : Nat) (g : Guard) : Except DecodeError Form :=
  match laneF (bits w 0 2) with
  | none => .error .minor
  | some l =>
    match bits w 2 7 with
    | 0 => (do let rd ← reg (bits w 17 4); let ra ← reg (bits w 13 4); let rb ← reg (bits w 9 4); pure (.base (.vfadd g rd ra rb l)))
    | 1 => (do let rd ← reg (bits w 17 4); let ra ← reg (bits w 13 4); let rb ← reg (bits w 9 4); pure (.base (.vfmul g rd ra rb l)))
    | 2 => (do let rd ← reg (bits w 17 4); let ra ← reg (bits w 13 4); let rb ← reg (bits w 9 4); pure (.base (.vfma g rd ra rb l)))
    | 3 => (do let rd ← reg (bits w 17 4); let ra ← reg (bits w 13 4); let rb ← reg (bits w 9 4); pure (.base (.vfmin g rd ra rb l)))
    | 4 => (do let rd ← reg (bits w 17 4); let ra ← reg (bits w 13 4); let rb ← reg (bits w 9 4); pure (.base (.vfmax g rd ra rb l)))
    | 8 => (do let rd ← reg (bits w 17 4); let ra ← reg (bits w 13 4); let rb ← reg (bits w 9 4); pure (.base (.vfcmpEq g rd ra rb l)))
    | 9 => (do let rd ← reg (bits w 17 4); let ra ← reg (bits w 13 4); let rb ← reg (bits w 9 4); pure (.base (.vfcmpLt g rd ra rb l)))
    | 10 => (do let rd ← reg (bits w 17 4); let ra ← reg (bits w 13 4); let rb ← reg (bits w 9 4); pure (.base (.vfcmpLe g rd ra rb l)))
    | 11 => (do let rd ← reg (bits w 17 4); let ra ← reg (bits w 13 4); let rb ← reg (bits w 9 4); pure (.base (.vfcmpUn g rd ra rb l)))
    | _ => .error .minor

/-- Major 0x1A (R98). -/
def decPerm (w : Nat) (g : Guard) : Except DecodeError Form :=
  match laneI (bits w 0 2) with
  | none => .error .minor
  | some l =>
    match bits w 2 7 with
    | 0 => (do let rd ← reg (bits w 17 4); let ra ← reg (bits w 13 4); let rb ← reg (bits w 9 4); pure (.base (.vshuf g rd ra rb l)))
    | 1 => (do let rd ← reg (bits w 17 4); let ra ← reg (bits w 13 4); let rb ← reg (bits w 9 4); pure (.base (.vbcast g rd ra rb l)))
    | 2 => zero (bits w 9 4) (do let rd ← reg (bits w 17 4); let ra ← reg (bits w 13 4); pure (.base (.vrev g rd ra l)))
    | 3 => (do let rd ← reg (bits w 17 4); let ra ← reg (bits w 13 4); let rb ← reg (bits w 9 4); pure (.base (.vpack g rd ra rb l)))
    | 4 => zero (bits w 9 4) (do let rd ← reg (bits w 17 4); let ra ← reg (bits w 13 4); pure (.base (.vunpk g rd ra l)))
    | _ => .error .minor

/-- Major 0x1B (R99). -/
def decConv (w : Nat) (g : Guard) : Except DecodeError Form :=
  match bits w 6 3, fmt (bits w 3 3), fmt (bits w 0 3) with
  | 0, some x, some y => if vcvtOk x y then zero (bits w 9 4) (do let rd ← reg (bits w 17 4); let ra ← reg (bits w 13 4); pure (.base (.vcvt g rd ra x y))) else .error .minor
  | 1, some .n4, some y => if y = .hf ∨ y = .bh then (do let rd ← reg (bits w 17 4); let ra ← reg (bits w 13 4); let rb ← reg (bits w 9 4); pure (.base (.vf4blk g rd ra rb y))) else .error .minor
  | 2, some .b, some y => zero (bits w 9 4) (do let rd ← reg (bits w 17 4); let ra ← reg (bits w 13 4); pure (.base (.vsum g rd ra y)))
  | _, _, _ => .error .minor

/-- Major 0x1C (R100). -/
def decSfu (w : Nat) (g : Guard) : Except DecodeError Form :=
  match bits w 0 9 with
  | 0 => (do let rd ← reg (bits w 17 4); let ra ← reg (bits w 13 4); let rb ← reg (bits w 9 4); pure (.base (.fdiv g rd ra rb)))
  | 1 => zero (bits w 9 4) (do let rd ← reg (bits w 17 4); let ra ← reg (bits w 13 4); pure (.base (.fsqrt g rd ra)))
  | 2 => zero (bits w 9 4) (do let rd ← reg (bits w 17 4); let ra ← reg (bits w 13 4); pure (.base (.frcp g rd ra)))
  | 3 => zero (bits w 9 4) (do let rd ← reg (bits w 17 4); let ra ← reg (bits w 13 4); pure (.base (.frsq g rd ra)))
  | 4 => zero (bits w 9 4) (do let rd ← reg (bits w 17 4); let ra ← reg (bits w 13 4); pure (.base (.fexp2 g rd ra)))
  | 5 => zero (bits w 9 4) (do let rd ← reg (bits w 17 4); let ra ← reg (bits w 13 4); pure (.base (.flog2 g rd ra)))
  | 6 => zero (bits w 9 4) (do let rd ← reg (bits w 17 4); let ra ← reg (bits w 13 4); pure (.base (.fsin g rd ra)))
  | 7 => zero (bits w 9 4) (do let rd ← reg (bits w 17 4); let ra ← reg (bits w 13 4); pure (.base (.fcos g rd ra)))
  | 8 => zero (bits w 9 4) (do let rd ← reg (bits w 17 4); let ra ← reg (bits w 13 4); pure (.base (.ftanh g rd ra)))
  | _ => .error .minor

/-- Major 0x1D (R101). -/
def decFloat (w : Nat) (g : Guard) : Except DecodeError Form :=
  match bits w 0 9 with
  | 0 => (do let rd ← reg (bits w 17 4); let ra ← reg (bits w 13 4); let rb ← reg (bits w 9 4); pure (.base (.fadd g rd ra rb)))
  | 1 => (do let rd ← reg (bits w 17 4); let ra ← reg (bits w 13 4); let rb ← reg (bits w 9 4); pure (.base (.fsub g rd ra rb)))
  | 2 => (do let rd ← reg (bits w 17 4); let ra ← reg (bits w 13 4); let rb ← reg (bits w 9 4); pure (.base (.fmul g rd ra rb)))
  | 3 => (do let rd ← reg (bits w 17 4); let ra ← reg (bits w 13 4); let rb ← reg (bits w 9 4); pure (.base (.fma g rd ra rb)))
  | 4 => (do let rd ← reg (bits w 17 4); let ra ← reg (bits w 13 4); let rb ← reg (bits w 9 4); pure (.base (.fmin g rd ra rb)))
  | 5 => (do let rd ← reg (bits w 17 4); let ra ← reg (bits w 13 4); let rb ← reg (bits w 9 4); pure (.base (.fmax g rd ra rb)))
  | 6 => zero (bits w 9 4) (do let rd ← reg (bits w 17 4); let ra ← reg (bits w 13 4); pure (.base (.fneg g rd ra)))
  | 7 => zero (bits w 9 4) (do let rd ← reg (bits w 17 4); let ra ← reg (bits w 13 4); pure (.base (.fabs g rd ra)))
  | 16 => (do let rd := BitVec.ofNat 4 (bits w 17 4); let ra ← reg (bits w 13 4); let rb ← reg (bits w 9 4); pure (.base (.fcmpEq g rd ra rb)))
  | 17 => (do let rd := BitVec.ofNat 4 (bits w 17 4); let ra ← reg (bits w 13 4); let rb ← reg (bits w 9 4); pure (.base (.fcmpLt g rd ra rb)))
  | 18 => (do let rd := BitVec.ofNat 4 (bits w 17 4); let ra ← reg (bits w 13 4); let rb ← reg (bits w 9 4); pure (.base (.fcmpLe g rd ra rb)))
  | 19 => (do let rd := BitVec.ofNat 4 (bits w 17 4); let ra ← reg (bits w 13 4); let rb ← reg (bits w 9 4); pure (.base (.fcmpUn g rd ra rb)))
  | 32 => zero (bits w 9 4) (do let rd ← reg (bits w 17 4); let ra ← reg (bits w 13 4); pure (.base (.fcvtSL g rd ra)))
  | 33 => zero (bits w 9 4) (do let rd ← reg (bits w 17 4); let ra ← reg (bits w 13 4); pure (.base (.fcvtLS g rd ra)))
  | 34 => zero (bits w 9 4) (do let rd ← reg (bits w 17 4); let ra ← reg (bits w 13 4); pure (.base (.fcvtSLu g rd ra)))
  | 35 => zero (bits w 9 4) (do let rd ← reg (bits w 17 4); let ra ← reg (bits w 13 4); pure (.base (.fcvtLuS g rd ra)))
  | 36 => zero (bits w 9 4) (do let rd ← reg (bits w 17 4); let ra ← reg (bits w 13 4); pure (.base (.fcvtSHf g rd ra)))
  | 37 => zero (bits w 9 4) (do let rd ← reg (bits w 17 4); let ra ← reg (bits w 13 4); pure (.base (.fcvtHfS g rd ra)))
  | 38 => zero (bits w 9 4) (do let rd ← reg (bits w 17 4); let ra ← reg (bits w 13 4); pure (.base (.fcvtSBh g rd ra)))
  | 39 => zero (bits w 9 4) (do let rd ← reg (bits w 17 4); let ra ← reg (bits w 13 4); pure (.base (.fcvtBhS g rd ra)))
  | _ => .error .minor

/-- Major 0x1E (R102). -/
def decQ (w : Nat) (g : Guard) : Except DecodeError Form :=
  match bits w 0 9 with
  | 0 => (do let rd ← reg (bits w 17 4); let ra ← reg (bits w 13 4); let rb ← reg (bits w 9 4); pure (.base (.qmake g rd ra rb)))
  | 1 => zero (bits w 9 4) (do let rd ← reg (bits w 17 4); let ra ← reg (bits w 13 4); pure (.base (.qnum g rd ra)))
  | 2 => zero (bits w 9 4) (do let rd ← reg (bits w 17 4); let ra ← reg (bits w 13 4); pure (.base (.qden g rd ra)))
  | 3 => (do let rd ← reg (bits w 17 4); let ra ← reg (bits w 13 4); let rb ← reg (bits w 9 4); pure (.base (.qmed g rd ra rb)))
  | 4 => (do let rd ← reg (bits w 17 4); let ra ← reg (bits w 13 4); let rb ← reg (bits w 9 4); pure (.base (.qcf g rd ra rb)))
  | 5 => (do let rd ← reg (bits w 17 4); let ra ← reg (bits w 13 4); let rb ← reg (bits w 9 4); pure (.base (.qlim g rd ra rb)))
  | 6 => zero (bits w 9 4) (do let rd ← reg (bits w 17 4); let ra ← reg (bits w 13 4); pure (.base (.qcanon g rd ra)))
  | 7 => zero (bits w 9 4) (do let rd ← reg (bits w 17 4); let ra ← reg (bits w 13 4); pure (.base (.qcvtF g rd ra)))
  | 8 => zero (bits w 9 4) (do let rd ← reg (bits w 17 4); let ra ← reg (bits w 13 4); pure (.base (.qcvtI g rd ra)))
  | 9 => zero (bits w 9 4) (do let rd ← reg (bits w 17 4); let ra ← reg (bits w 13 4); pure (.base (.qclass g rd ra)))
  | 10 => (do let rd ← reg (bits w 17 4); let ra ← reg (bits w 13 4); let rb ← reg (bits w 9 4); pure (.base (.gcd g rd ra rb)))
  | 11 => zero (bits w 9 4 + bits w 17 4) (do let ra ← reg (bits w 13 4); pure (.base (.qsetm g ra)))
  | _ => .error .minor

/-- Major 0x20 (R103). -/
def decIssue (w : Nat) (g : Guard) : Except DecodeError Form :=
  match bits w 0 9 with
  | 0 => zero (bits w 9 4) (do let rd ← reg (bits w 17 4); let ra ← reg (bits w 13 4); pure (.base (.issueMx g rd ra)))
  | 256 => zero (bits w 9 4) (do let rd ← reg (bits w 17 4); let ra ← reg (bits w 13 4); pure (.base (.issueMxSync g rd ra)))
  | 1 => zero (bits w 9 4) (do let rd ← reg (bits w 17 4); let ra ← reg (bits w 13 4); pure (.base (.issueQd g rd ra)))
  | 257 => zero (bits w 9 4) (do let rd ← reg (bits w 17 4); let ra ← reg (bits w 13 4); pure (.base (.issueQdSync g rd ra)))
  | 2 => zero (bits w 9 4) (do let rd ← reg (bits w 17 4); let ra ← reg (bits w 13 4); pure (.base (.issueCp g rd ra)))
  | 258 => zero (bits w 9 4) (do let rd ← reg (bits w 17 4); let ra ← reg (bits w 13 4); pure (.base (.issueCpSync g rd ra)))
  | 3 => zero (bits w 9 4) (do let rd ← reg (bits w 17 4); let ra ← reg (bits w 13 4); pure (.base (.issueCl g rd ra)))
  | 259 => zero (bits w 9 4) (do let rd ← reg (bits w 17 4); let ra ← reg (bits w 13 4); pure (.base (.issueClSync g rd ra)))
  | 16 => zero (bits w 9 4 + bits w 17 4) (do let ra ← reg (bits w 13 4); pure (.base (.waitj g ra)))
  | 17 => zero (bits w 9 4) (do let rd := BitVec.ofNat 4 (bits w 17 4); let ra ← reg (bits w 13 4); pure (.base (.pollj g rd ra)))
  | 18 => zero (bits w 9 4 + bits w 17 4) (do let ra ← reg (bits w 13 4); pure (.base (.jdrop g ra)))
  | _ => .error .minor

/-- Major 0x21 (R103). -/
def decFmt (w : Nat) (g : Guard) : Except DecodeError Form :=
  match bits w 0 9 with
  | 0 => zero (bits w 9 4 + bits w 17 4) (do let ra ← reg (bits w 13 4); pure (.base (.fmtLd g ra)))
  | _ => .error .minor

/-- Major 0x24 (R104). -/
def decThread (w : Nat) (g : Guard) : Except DecodeError Form :=
  match bits w 0 9 with
  | 0 => (do let rd ← reg (bits w 17 4); let ra ← reg (bits w 13 4); let rb ← reg (bits w 9 4); pure (.base (.spawn g rd ra rb)))
  | 1 => zero (bits w 9 4 + bits w 17 4) (do let ra ← reg (bits w 13 4); pure (.base (.migr g ra)))
  | 2 => zero (bits w 9 12) (do pure (.base (.exit g)))
  | 3 => zero (bits w 9 12) (do pure (.base (.yield g)))
  | 4 => (do let rd ← reg (bits w 17 4); let ra ← reg (bits w 13 4); let rb ← reg (bits w 9 4); pure (.base (.lnch g rd ra rb)))
  | _ => .error .minor

/-- Major 0x25 (R104). -/
def decGang (w : Nat) (g : Guard) : Except DecodeError Form :=
  match bits w 0 9 with
  | 0 => zero (bits w 9 12) (do pure (.base (.gang2 g)))
  | 1 => zero (bits w 9 12) (do pure (.extra (.gang4 g)))
  | 2 => zero (bits w 9 12) (do pure (.extra (.gang8 g)))
  | 3 => zero (bits w 9 12) (do pure (.extra (.ungang g)))
  | _ => .error .minor

/-- Major 0x26 (R104). -/
def decComm (w : Nat) (g : Guard) : Except DecodeError Form :=
  match bits w 0 9 with
  | 0 => zero (bits w 17 4) (do let ra ← reg (bits w 13 4); let rb ← reg (bits w 9 4); pure (.extra (.amSend g ra rb)))
  | 1 => zero (bits w 17 4) (do let ra ← reg (bits w 13 4); let rb ← reg (bits w 9 4); pure (.extra (.gstore g ra rb)))
  | 2 => zero (bits w 9 4 + bits w 17 4) (do let ra ← reg (bits w 13 4); pure (.extra (.probeStart g ra)))
  | _ => .error .minor

/-- Major 0x28 (R104). -/
def decNet (w : Nat) (g : Guard) : Except DecodeError Form :=
  match bits w 0 9 with
  | 0 => zero (bits w 9 4) (do let rd ← reg (bits w 17 4); let ra ← reg (bits w 13 4); pure (.extra (.nAlloc g rd ra)))
  | 1 => zero (bits w 9 4 + bits w 17 4) (do let ra ← reg (bits w 13 4); pure (.extra (.nFree g ra)))
  | 2 => zero (bits w 17 4) (do let ra ← reg (bits w 13 4); let rb ← reg (bits w 9 4); pure (.extra (.nLink g ra rb)))
  | 3 => (do let rd ← reg (bits w 17 4); let ra ← reg (bits w 13 4); let rb ← reg (bits w 9 4); pure (.extra (.nRelink g rd ra rb)))
  | 4 => zero (bits w 9 4) (do let rd ← reg (bits w 17 4); let ra ← reg (bits w 13 4); pure (.extra (.nRead g rd ra)))
  | 5 => zero (bits w 9 8) (do let rd ← reg (bits w 17 4); pure (.extra (.pairPop g rd)))
  | 6 => zero (bits w 17 4) (do let ra ← reg (bits w 13 4); let rb ← reg (bits w 9 4); pure (.extra (.pairPush g ra rb)))
  | 7 => zero (bits w 9 4 + bits w 17 4) (do let ra ← reg (bits w 13 4); pure (.extra (.ruleLd g ra)))
  | 8 => zero (bits w 9 4 + bits w 17 4) (do let ra ← reg (bits w 13 4); pure (.extra (.ruleGo g ra)))
  | _ => .error .minor

/-- Major 0x30 (R105). -/
def decSys (w : Nat) (g : Guard) : Except DecodeError Form :=
  match bits w 19 2 with
  | 0 => match SysReg.ofNum (bits w 1 12) with
    | none => .error .minor
    | some n => zero (bits w 0 1 + bits w 17 2) (do let x ← reg (bits w 13 4); pure (.extra (.srd g x n)))
  | 1 => match SysReg.ofNum (bits w 1 12) with
    | none => .error .minor
    | some n => zero (bits w 0 1 + bits w 17 2) (do let x ← reg (bits w 13 4); pure (.extra (.swr g x n)))
  | 2 => zero (bits w 0 1 + bits w 9 10) (do let n := BitVec.ofNat 8 (bits w 1 8); pure (.extra (.trap g n)))
  | _ => zero (bits w 0 19) (do pure (.extra (.eret g)))

/-- Major 0x31 (R104). -/
def decDebug (w : Nat) (g : Guard) : Except DecodeError Form :=
  match bits w 0 9 with
  | 0 => zero (bits w 9 12) (do pure (.extra (.brk g)))
  | 1 => zero (bits w 17 4) (do let ra ← reg (bits w 13 4); let rb ← reg (bits w 9 4); pure (.extra (.watch g ra rb)))
  | 2 => zero (bits w 9 4 + bits w 17 4) (do let ra ← reg (bits w 13 4); pure (.extra (.chorusMark g ra)))
  | 3 => zero (bits w 9 4 + bits w 17 4) (do let ra ← reg (bits w 13 4); pure (.extra (.traceMark g ra)))
  | _ => .error .minor

/-- The four checks of R80, in order: assigned major, assigned minor, reserved fields, register, scope, segment and
pair codes. The two checks that depend on the thread (R11, R215) are made where the word issues. -/
def decodeForm (w : Nat) : Except DecodeError Form :=
  let g := BitVec.ofNat 5 (bits w 21 5)
  match bits w 26 6 with
  | 1 => decInt w g
  | 2 => decIntK w g
  | 3 => decCmp w g
  | 4 => decPred w g
  | 5 => decBits w g
  | 6 => decMul w g
  | 8 => decBr w g
  | 9 => decCall w g
  | 10 => decJump w g
  | 12 => decLoad w g
  | 13 => decStore w g
  | 14 => decMr w g
  | 15 => decLog w g
  | 16 => decOrd w g
  | 17 => decSeg w g
  | 18 => decRemote w g
  | 20 => decObj w g
  | 21 => decQueue w g
  | 24 => decVInt w g
  | 25 => decVFloat w g
  | 26 => decPerm w g
  | 27 => decConv w g
  | 28 => decSfu w g
  | 29 => decFloat w g
  | 30 => decQ w g
  | 32 => decIssue w g
  | 33 => decFmt w g
  | 36 => decThread w g
  | 37 => decGang w g
  | 38 => decComm w g
  | 40 => decNet w g
  | 48 => decSys w g
  | 49 => decDebug w g
  | _ => .error .major

/-- The instruction that a word encodes, or the failed check. -/
noncomputable def decodeWord (w : BitVec 32) : Except DecodeError Instr :=
  (decodeForm w.toNat).map Form.toInstr

/-- The word of four little-endian bytes (R3, R75). -/
def wordOfBytes (b0 b1 b2 b3 : Byte) : BitVec 32 :=
  BitVec.ofNat 32 (b0.toNat + b1.toNat * 2 ^ 8 + b2.toNat * 2 ^ 16 + b3.toNat * 2 ^ 24)

/-- The instruction at the head of a list of bytes, with the bytes after it. -/
noncomputable def decode : List Byte → Except DecodeError (Instr × List Byte)
  | b0 :: b1 :: b2 :: b3 :: t => (decodeWord (wordOfBytes b0 b1 b2 b3)).map (·, t)
  | _ => .error .short

/-- The four bytes of a word, lowest address first (R75). -/
def bytesOfWord (w : Nat) : List Byte :=
  [BitVec.ofNat 8 w, BitVec.ofNat 8 (w / 2 ^ 8), BitVec.ofNat 8 (w / 2 ^ 16), BitVec.ofNat 8 (w / 2 ^ 24)]

/-- The instruction that the decoder reads from the bits `w` of an opcode-table row. -/
noncomputable def decodeTableWord (_nbits w : Nat) : Option Instr :=
  match decode (bytesOfWord w) with
  | .ok (i, _) => some i
  | .error _ => none

/-- The code of a register field (R10). -/
def Reg.code : Reg → Nat
  | .g n => n.val
  | .gz => 10
  | .k => 11
  | .gq => 12

/-- The code of a scope (R6). -/
def Scope.code : Scope → Nat
  | .thread => 0
  | .core => 1
  | .cluster => 2
  | .die => 3
  | .device => 4
  | .pod => 5

/-- The code of a size (R78). -/
def Size.code : Size → Nat
  | .b => 0
  | .h => 1
  | .w => 2
  | .d => 3

/-- The code of an integer lane (R98). -/
def LaneI.code : LaneI → Nat
  | .b => 0
  | .h => 1
  | .w => 2

/-- The code of a float lane (R98). -/
def LaneF.code : LaneF → Nat
  | .hf => 0
  | .bh => 1
  | .s => 2

/-- The code of a format (R99). -/
def Fmt.code : Fmt → Nat
  | .b => 0
  | .h => 1
  | .w => 2
  | .hf => 3
  | .bh => 4
  | .s => 5
  | .n4 => 6

/-- The code of a remote space (R95). -/
def RSpace.code : RSpace → Nat
  | .tcm => 0
  | .scratch => 1

/-- The number of a system register (R280). -/
def SysReg.num : SysReg → Nat
  | .status => 0x000
  | .cause => 0x001
  | .epc => 0x002
  | .eword => 0x003
  | .eaddr => 0x004
  | .task => 0x005
  | .trapvec => 0x006
  | .tscr => 0x007
  | .tnd => 0x008
  | .migthr => 0x010
  | .agelim => 0x011
  | .choruscfg => 0x012
  | .nfl => 0x013
  | .rtb => 0x014
  | .cycle => 0x018

/-- A word from its fixed bits, its guard (R77) and its other fields, each with the place of its lowest bit. -/
def enc (op : Nat) (gd : Guard) (fields : List (Nat × Nat)) : Option Nat :=
  some (fields.foldl (fun a f => a + f.1 * 2 ^ f.2) (op + gd.toNat * 2 ^ 21))

/-- The word of a well-formed instruction, as a number below 2^32; none for a happening (R75, R76, R83 to R105). -/
def encodeNat : Instr → Option Nat
  | .add gd rd ra rb => enc 0x04000000 gd [(rd.code, 17), (ra.code, 13), (rb.code, 9)]
  | .sub gd rd ra rb => enc 0x04000001 gd [(rd.code, 17), (ra.code, 13), (rb.code, 9)]
  | .and gd rd ra rb => enc 0x04000002 gd [(rd.code, 17), (ra.code, 13), (rb.code, 9)]
  | .or gd rd ra rb => enc 0x04000003 gd [(rd.code, 17), (ra.code, 13), (rb.code, 9)]
  | .xor gd rd ra rb => enc 0x04000004 gd [(rd.code, 17), (ra.code, 13), (rb.code, 9)]
  | .andn gd rd ra rb => enc 0x04000005 gd [(rd.code, 17), (ra.code, 13), (rb.code, 9)]
  | .orn gd rd ra rb => enc 0x04000006 gd [(rd.code, 17), (ra.code, 13), (rb.code, 9)]
  | .min gd rd ra rb => enc 0x04000008 gd [(rd.code, 17), (ra.code, 13), (rb.code, 9)]
  | .max gd rd ra rb => enc 0x04000009 gd [(rd.code, 17), (ra.code, 13), (rb.code, 9)]
  | .mins gd rd ra rb => enc 0x0400000A gd [(rd.code, 17), (ra.code, 13), (rb.code, 9)]
  | .maxs gd rd ra rb => enc 0x0400000B gd [(rd.code, 17), (ra.code, 13), (rb.code, 9)]
  | .shl gd rd ra rb => enc 0x04000010 gd [(rd.code, 17), (ra.code, 13), (rb.code, 9)]
  | .shr gd rd ra rb => enc 0x04000011 gd [(rd.code, 17), (ra.code, 13), (rb.code, 9)]
  | .sra gd rd ra rb => enc 0x04000012 gd [(rd.code, 17), (ra.code, 13), (rb.code, 9)]
  | .rol gd rd ra rb => enc 0x04000013 gd [(rd.code, 17), (ra.code, 13), (rb.code, 9)]
  | .ror gd rd ra rb => enc 0x04000014 gd [(rd.code, 17), (ra.code, 13), (rb.code, 9)]
  | .clz gd rd ra => enc 0x04000018 gd [(rd.code, 17), (ra.code, 13)]
  | .ctz gd rd ra => enc 0x04000019 gd [(rd.code, 17), (ra.code, 13)]
  | .popc gd rd ra => enc 0x0400001A gd [(rd.code, 17), (ra.code, 13)]
  | .sextB gd rd ra => enc 0x04000020 gd [(rd.code, 17), (ra.code, 13)]
  | .sextH gd rd ra => enc 0x04000021 gd [(rd.code, 17), (ra.code, 13)]
  | .sextW gd rd ra => enc 0x04000022 gd [(rd.code, 17), (ra.code, 13)]
  | .zextB gd rd ra => enc 0x04000024 gd [(rd.code, 17), (ra.code, 13)]
  | .zextH gd rd ra => enc 0x04000025 gd [(rd.code, 17), (ra.code, 13)]
  | .zextW gd rd ra => enc 0x04000026 gd [(rd.code, 17), (ra.code, 13)]
  | .mov gd rd ra => enc 0x04000030 gd [(rd.code, 17), (ra.code, 13)]
  | .ldk gd rd ra => enc 0x04000038 gd [(rd.code, 17), (ra.code, 13)]
  | .stk gd ra rb => enc 0x04000039 gd [(ra.code, 13), (rb.code, 9)]
  | .sel gd rd ra rb p => enc 0x04000100 gd [(rd.code, 17), (ra.code, 13), (rb.code, 9), (p.toNat, 0)]
  | .nop gd => enc 0x040001F0 gd []
  | .addK gd rd ra k => enc 0x08000000 gd [(rd.code, 17), (ra.code, 13), (k.toNat, 5)]
  | .subK gd rd ra k => enc 0x08000001 gd [(rd.code, 17), (ra.code, 13), (k.toNat, 5)]
  | .andK gd rd ra k => enc 0x08000002 gd [(rd.code, 17), (ra.code, 13), (k.toNat, 5)]
  | .orK gd rd ra k => enc 0x08000003 gd [(rd.code, 17), (ra.code, 13), (k.toNat, 5)]
  | .xorK gd rd ra k => enc 0x08000004 gd [(rd.code, 17), (ra.code, 13), (k.toNat, 5)]
  | .andnK gd rd ra k => enc 0x08000005 gd [(rd.code, 17), (ra.code, 13), (k.toNat, 5)]
  | .ornK gd rd ra k => enc 0x08000006 gd [(rd.code, 17), (ra.code, 13), (k.toNat, 5)]
  | .minK gd rd ra k => enc 0x08000008 gd [(rd.code, 17), (ra.code, 13), (k.toNat, 5)]
  | .maxK gd rd ra k => enc 0x08000009 gd [(rd.code, 17), (ra.code, 13), (k.toNat, 5)]
  | .minsK gd rd ra k => enc 0x0800000A gd [(rd.code, 17), (ra.code, 13), (k.toNat, 5)]
  | .maxsK gd rd ra k => enc 0x0800000B gd [(rd.code, 17), (ra.code, 13), (k.toNat, 5)]
  | .movK gd rd k => enc 0x08000010 gd [(rd.code, 17), (k.toNat, 5)]
  | .stkK gd ra k => enc 0x08000011 gd [(ra.code, 13), (k.toNat, 5)]
  | .cmpEq gd p ra rb => enc 0x0C000000 gd [(p.toNat, 17), (ra.code, 13), (rb.code, 9)]
  | .cmpNe gd p ra rb => enc 0x0C000001 gd [(p.toNat, 17), (ra.code, 13), (rb.code, 9)]
  | .cmpLt gd p ra rb => enc 0x0C000002 gd [(p.toNat, 17), (ra.code, 13), (rb.code, 9)]
  | .cmpGe gd p ra rb => enc 0x0C000003 gd [(p.toNat, 17), (ra.code, 13), (rb.code, 9)]
  | .cmpLe gd p ra rb => enc 0x0C000004 gd [(p.toNat, 17), (ra.code, 13), (rb.code, 9)]
  | .cmpGt gd p ra rb => enc 0x0C000005 gd [(p.toNat, 17), (ra.code, 13), (rb.code, 9)]
  | .cmpLtu gd p ra rb => enc 0x0C000006 gd [(p.toNat, 17), (ra.code, 13), (rb.code, 9)]
  | .cmpGeu gd p ra rb => enc 0x0C000007 gd [(p.toNat, 17), (ra.code, 13), (rb.code, 9)]
  | .cmpLeu gd p ra rb => enc 0x0C000008 gd [(p.toNat, 17), (ra.code, 13), (rb.code, 9)]
  | .cmpGtu gd p ra rb => enc 0x0C000009 gd [(p.toNat, 17), (ra.code, 13), (rb.code, 9)]
  | .tst gd p ra rb => enc 0x0C00000A gd [(p.toNat, 17), (ra.code, 13), (rb.code, 9)]
  | .cmpEqK gd p ra k => enc 0x0C000010 gd [(p.toNat, 17), (ra.code, 13), (k.toNat, 5)]
  | .cmpNeK gd p ra k => enc 0x0C000011 gd [(p.toNat, 17), (ra.code, 13), (k.toNat, 5)]
  | .cmpLtK gd p ra k => enc 0x0C000012 gd [(p.toNat, 17), (ra.code, 13), (k.toNat, 5)]
  | .cmpGeK gd p ra k => enc 0x0C000013 gd [(p.toNat, 17), (ra.code, 13), (k.toNat, 5)]
  | .cmpLeK gd p ra k => enc 0x0C000014 gd [(p.toNat, 17), (ra.code, 13), (k.toNat, 5)]
  | .cmpGtK gd p ra k => enc 0x0C000015 gd [(p.toNat, 17), (ra.code, 13), (k.toNat, 5)]
  | .cmpLtuK gd p ra k => enc 0x0C000016 gd [(p.toNat, 17), (ra.code, 13), (k.toNat, 5)]
  | .cmpGeuK gd p ra k => enc 0x0C000017 gd [(p.toNat, 17), (ra.code, 13), (k.toNat, 5)]
  | .cmpLeuK gd p ra k => enc 0x0C000018 gd [(p.toNat, 17), (ra.code, 13), (k.toNat, 5)]
  | .cmpGtuK gd p ra k => enc 0x0C000019 gd [(p.toNat, 17), (ra.code, 13), (k.toNat, 5)]
  | .tstK gd p ra k => enc 0x0C00001A gd [(p.toNat, 17), (ra.code, 13), (k.toNat, 5)]
  | .pand gd rd ra rb => enc 0x10000000 gd [(rd.toNat, 17), (ra.toNat, 13), (rb.toNat, 9)]
  | .por gd rd ra rb => enc 0x10000001 gd [(rd.toNat, 17), (ra.toNat, 13), (rb.toNat, 9)]
  | .pxor gd rd ra rb => enc 0x10000002 gd [(rd.toNat, 17), (ra.toNat, 13), (rb.toNat, 9)]
  | .pnot gd rd ra => enc 0x10000003 gd [(rd.toNat, 17), (ra.toNat, 13)]
  | .pmov gd rd ra => enc 0x10000004 gd [(rd.toNat, 17), (ra.toNat, 13)]
  | .bfx gd rd ra p l => enc 0x14000000 gd [(rd.code, 17), (ra.code, 13), (p.toNat, 5), (l.toNat, 0)]
  | .bfxs gd rd ra p l => enc 0x14000800 gd [(rd.code, 17), (ra.code, 13), (p.toNat, 5), (l.toNat, 0)]
  | .bfi gd rd ra p l => enc 0x14001000 gd [(rd.code, 17), (ra.code, 13), (p.toNat, 5), (l.toNat, 0)]
  | .shlImm gd rd ra n => enc 0x14001800 gd [(rd.code, 17), (ra.code, 13), (n.toNat, 0)]
  | .shrImm gd rd ra n => enc 0x14001900 gd [(rd.code, 17), (ra.code, 13), (n.toNat, 0)]
  | .sraImm gd rd ra n => enc 0x14001A00 gd [(rd.code, 17), (ra.code, 13), (n.toNat, 0)]
  | .rolImm gd rd ra n => enc 0x14001B00 gd [(rd.code, 17), (ra.code, 13), (n.toNat, 0)]
  | .rorImm gd rd ra n => enc 0x14001C00 gd [(rd.code, 17), (ra.code, 13), (n.toNat, 0)]
  | .mul gd rd ra rb => enc 0x18000000 gd [(rd.code, 17), (ra.code, 13), (rb.code, 9)]
  | .mulh gd rd ra rb => enc 0x18000001 gd [(rd.code, 17), (ra.code, 13), (rb.code, 9)]
  | .mulhs gd rd ra rb => enc 0x18000002 gd [(rd.code, 17), (ra.code, 13), (rb.code, 9)]
  | .div gd rd ra rb => enc 0x18000003 gd [(rd.code, 17), (ra.code, 13), (rb.code, 9)]
  | .divs gd rd ra rb => enc 0x18000004 gd [(rd.code, 17), (ra.code, 13), (rb.code, 9)]
  | .rem gd rd ra rb => enc 0x18000005 gd [(rd.code, 17), (ra.code, 13), (rb.code, 9)]
  | .rems gd rd ra rb => enc 0x18000006 gd [(rd.code, 17), (ra.code, 13), (rb.code, 9)]
  | .br gd rd => enc 0x20000000 gd [(rd.toNat, 0)]
  | .call gd rd => enc 0x24000000 gd [(rd.toNat, 0)]
  | .jmp gd ra => enc 0x28000000 gd [(ra.code, 13)]
  | .ret gd => enc 0x28080000 gd []
  | .loop gd ra rd => enc 0x28100000 gd [(ra.code, 13), (rd.toNat, 0)]
  | .ld gd rd ra sg k sz => enc 0x30000000 gd [(rd.code, 17), (ra.code, 13), (sg.val, 10), (k.toNat, 2), (sz.code, 0)]
  | .st gd rd ra sg k sz => enc 0x34000000 gd [(rd.code, 17), (ra.code, 13), (sg.val, 10), (k.toNat, 2), (sz.code, 0)]
  | .lds gd rd ra sg rb sz => enc 0x38000000 gd [(rd.code, 17), (ra.code, 13), (sg.val, 10), (rb.code, 6), (sz.code, 0)]
  | .ldRr gd rd ra sg rb sz => enc 0x38000004 gd [(rd.code, 17), (ra.code, 13), (sg.val, 10), (rb.code, 6), (sz.code, 0)]
  | .stRr gd rd ra sg rb sz => enc 0x38000008 gd [(rd.code, 17), (ra.code, 13), (sg.val, 10), (rb.code, 6), (sz.code, 0)]
  | .ldp gd rd ra sg rb => enc 0x3800000F gd [(rd.code, 17), (ra.code, 13), (sg.val, 10), (rb.code, 6)]
  | .stp gd rd ra sg rb => enc 0x38000013 gd [(rd.code, 17), (ra.code, 13), (sg.val, 10), (rb.code, 6)]
  | .rsv gd rd ra sg rb sz => enc 0x38000016 gd [(rd.code, 17), (ra.code, 13), (sg.val, 10), (rb.code, 6), ((sz.code - 2), 0)]
  | .rls gd rd ra sg rb sz => enc 0x3800001A gd [(rd.code, 17), (ra.code, 13), (sg.val, 10), (rb.code, 6), ((sz.code - 2), 0)]
  | .rlsx gd ra sg rb sz => enc 0x3800001E gd [(ra.code, 13), (sg.val, 10), (rb.code, 6), ((sz.code - 2), 0)]
  | .logAdd gd rd ra sg rb sz => enc 0x3C000000 gd [(rd.code, 17), (ra.code, 13), (sg.val, 10), (rb.code, 6), (sz.code, 0)]
  | .logFadd gd rd ra sg rb => enc 0x3C000006 gd [(rd.code, 17), (ra.code, 13), (sg.val, 10), (rb.code, 6)]
  | .logMin gd rd ra sg rb sz => enc 0x3C000008 gd [(rd.code, 17), (ra.code, 13), (sg.val, 10), (rb.code, 6), (sz.code, 0)]
  | .logMax gd rd ra sg rb sz => enc 0x3C00000C gd [(rd.code, 17), (ra.code, 13), (sg.val, 10), (rb.code, 6), (sz.code, 0)]
  | .logOr gd rd ra sg rb sz => enc 0x3C000010 gd [(rd.code, 17), (ra.code, 13), (sg.val, 10), (rb.code, 6), (sz.code, 0)]
  | .fenceAcq gd sc => enc 0x40000000 gd [(sc.code, 10)]
  | .fenceRel gd sc => enc 0x40000001 gd [(sc.code, 10)]
  | .fenceFull gd sc => enc 0x40000002 gd [(sc.code, 10)]
  | .ldAcqW gd rd ra sc sg => enc 0x40000004 gd [(rd.code, 17), (ra.code, 13), (sc.code, 10), (sg.val, 6)]
  | .ldAcqD gd rd ra sc sg => enc 0x40000005 gd [(rd.code, 17), (ra.code, 13), (sc.code, 10), (sg.val, 6)]
  | .stRelW gd rd ra sc sg => enc 0x40000006 gd [(rd.code, 17), (ra.code, 13), (sc.code, 10), (sg.val, 6)]
  | .stRelD gd rd ra sc sg => enc 0x40000007 gd [(rd.code, 17), (ra.code, 13), (sc.code, 10), (sg.val, 6)]
  | .seal gd ra sc rb => enc 0x40000008 gd [(ra.code, 13), (sc.code, 10), (rb.code, 6)]
  | .unseal gd rd ra sc => enc 0x40000009 gd [(rd.code, 17), (ra.code, 13), (sc.code, 10)]
  | .pref gd ra sg => enc 0x4000000C gd [(ra.code, 13), (sg.val, 6)]
  | .cwb gd ra sg => enc 0x4000000D gd [(ra.code, 13), (sg.val, 6)]
  | .cdrop gd ra sg => enc 0x4000000E gd [(ra.code, 13), (sg.val, 6)]
  | .scbWait gd ra rb => enc 0x4000000F gd [(ra.code, 13), (rb.code, 6)]
  | .segLd gd rd ra => enc 0x44000000 gd [(rd.val, 17), (ra.code, 13)]
  | .segNarrow gd rd ra rb => enc 0x44000001 gd [(rd.val, 17), (ra.code, 13), (rb.code, 6)]
  | .segGive gd rd ra sc => enc 0x44000002 gd [(rd.val, 17), (ra.code, 13), (sc.code, 10)]
  | .segTake gd rd ra => enc 0x44000003 gd [(rd.val, 17), (ra.code, 13)]
  | .ldx gd rd ra rb sp sz => enc 0x48000000 gd [(rd.code, 17), (ra.code, 13), (rb.code, 9), (sp.code, 2), (sz.code, 0)]
  | .stx gd rd ra rb sp sz => enc 0x48000010 gd [(rd.code, 17), (ra.code, 13), (rb.code, 9), (sp.code, 2), (sz.code, 0)]
  | .stxN4 gd rd ra rb sp => enc 0x48000020 gd [(rd.code, 17), (ra.code, 13), (rb.code, 9), (sp.code, 2)]
  | .objInit gd ra sc rb => enc 0x50000000 gd [(ra.code, 13), (sc.code, 10), (rb.code, 6)]
  | .objFree gd ra sc => enc 0x50000001 gd [(ra.code, 13), (sc.code, 10)]
  | .objRead gd rd ra sc => enc 0x50000002 gd [(rd.code, 17), (ra.code, 13), (sc.code, 10)]
  | .cntAdd gd rd ra sc rb => enc 0x50000008 gd [(rd.code, 17), (ra.code, 13), (sc.code, 10), (rb.code, 6)]
  | .cntSwap gd rd ra sc rb => enc 0x50000009 gd [(rd.code, 17), (ra.code, 13), (sc.code, 10), (rb.code, 6)]
  | .cntCas gd rd ra sc rb => enc 0x5000000A gd [(rd.code, 17), (ra.code, 13), (sc.code, 10), (rb.code, 6)]
  | .cntWaitge gd rd ra sc rb => enc 0x5000000B gd [(rd.code, 17), (ra.code, 13), (sc.code, 10), (rb.code, 6)]
  | .cntWaiteq gd rd ra sc rb => enc 0x5000000C gd [(rd.code, 17), (ra.code, 13), (sc.code, 10), (rb.code, 6)]
  | .barArrive gd rd ra sc => enc 0x50000010 gd [(rd.code, 17), (ra.code, 13), (sc.code, 10)]
  | .barWait gd ra sc rb => enc 0x50000011 gd [(ra.code, 13), (sc.code, 10), (rb.code, 6)]
  | .barSync gd rd ra sc => enc 0x50000012 gd [(rd.code, 17), (ra.code, 13), (sc.code, 10)]
  | .tktAcq gd rd ra sc => enc 0x50000018 gd [(rd.code, 17), (ra.code, 13), (sc.code, 10)]
  | .tktTry gd rd ra sc => enc 0x50000019 gd [(rd.toNat, 17), (ra.code, 13), (sc.code, 10)]
  | .tktRel gd ra sc => enc 0x5000001A gd [(ra.code, 13), (sc.code, 10)]
  | .cndWait gd ra sc rb => enc 0x50000020 gd [(ra.code, 13), (sc.code, 10), (rb.code, 6)]
  | .cndSig gd ra sc => enc 0x50000021 gd [(ra.code, 13), (sc.code, 10)]
  | .cndBcast gd ra sc => enc 0x50000022 gd [(ra.code, 13), (sc.code, 10)]
  | .qPut gd ra sc rb => enc 0x54000000 gd [(ra.code, 13), (sc.code, 10), (rb.code, 6)]
  | .qGet gd rd ra sc rb => enc 0x54000001 gd [(rd.code, 17), (ra.code, 13), (sc.code, 10), (rb.code, 6)]
  | .qTryput gd rd ra sc rb => enc 0x54000002 gd [(rd.toNat, 17), (ra.code, 13), (sc.code, 10), (rb.code, 6)]
  | .qTryget gd rd ra sc rb => enc 0x54000003 gd [(rd.toNat, 17), (ra.code, 13), (sc.code, 10), (rb.code, 6)]
  | .vadd gd rd ra rb l => enc 0x60000000 gd [(rd.code, 17), (ra.code, 13), (rb.code, 9), (l.code, 0)]
  | .vsub gd rd ra rb l => enc 0x60000004 gd [(rd.code, 17), (ra.code, 13), (rb.code, 9), (l.code, 0)]
  | .vadds gd rd ra rb l => enc 0x60000008 gd [(rd.code, 17), (ra.code, 13), (rb.code, 9), (l.code, 0)]
  | .vsubs gd rd ra rb l => enc 0x6000000C gd [(rd.code, 17), (ra.code, 13), (rb.code, 9), (l.code, 0)]
  | .vmul gd rd ra rb l => enc 0x60000010 gd [(rd.code, 17), (ra.code, 13), (rb.code, 9), (l.code, 0)]
  | .vmulh gd rd ra rb l => enc 0x60000014 gd [(rd.code, 17), (ra.code, 13), (rb.code, 9), (l.code, 0)]
  | .vmac gd rd ra rb l => enc 0x60000018 gd [(rd.code, 17), (ra.code, 13), (rb.code, 9), (l.code, 0)]
  | .vdot4 gd rd ra rb => enc 0x6000001C gd [(rd.code, 17), (ra.code, 13), (rb.code, 9)]
  | .vmin gd rd ra rb l => enc 0x60000020 gd [(rd.code, 17), (ra.code, 13), (rb.code, 9), (l.code, 0)]
  | .vmax gd rd ra rb l => enc 0x60000024 gd [(rd.code, 17), (ra.code, 13), (rb.code, 9), (l.code, 0)]
  | .vabs gd rd ra l => enc 0x60000028 gd [(rd.code, 17), (ra.code, 13), (l.code, 0)]
  | .vavg gd rd ra rb l => enc 0x6000002C gd [(rd.code, 17), (ra.code, 13), (rb.code, 9), (l.code, 0)]
  | .vshl gd rd ra rb l => enc 0x60000030 gd [(rd.code, 17), (ra.code, 13), (rb.code, 9), (l.code, 0)]
  | .vshr gd rd ra rb l => enc 0x60000034 gd [(rd.code, 17), (ra.code, 13), (rb.code, 9), (l.code, 0)]
  | .vsra gd rd ra rb l => enc 0x60000038 gd [(rd.code, 17), (ra.code, 13), (rb.code, 9), (l.code, 0)]
  | .vcmpEq gd rd ra rb l => enc 0x60000040 gd [(rd.code, 17), (ra.code, 13), (rb.code, 9), (l.code, 0)]
  | .vcmpNe gd rd ra rb l => enc 0x60000044 gd [(rd.code, 17), (ra.code, 13), (rb.code, 9), (l.code, 0)]
  | .vcmpLt gd rd ra rb l => enc 0x60000048 gd [(rd.code, 17), (ra.code, 13), (rb.code, 9), (l.code, 0)]
  | .vcmpGe gd rd ra rb l => enc 0x6000004C gd [(rd.code, 17), (ra.code, 13), (rb.code, 9), (l.code, 0)]
  | .vcmpLtu gd rd ra rb l => enc 0x60000050 gd [(rd.code, 17), (ra.code, 13), (rb.code, 9), (l.code, 0)]
  | .vcmpGeu gd rd ra rb l => enc 0x60000054 gd [(rd.code, 17), (ra.code, 13), (rb.code, 9), (l.code, 0)]
  | .vsel gd rd ra rb l => enc 0x60000060 gd [(rd.code, 17), (ra.code, 13), (rb.code, 9), (l.code, 0)]
  | .vfadd gd rd ra rb l => enc 0x64000000 gd [(rd.code, 17), (ra.code, 13), (rb.code, 9), (l.code, 0)]
  | .vfmul gd rd ra rb l => enc 0x64000004 gd [(rd.code, 17), (ra.code, 13), (rb.code, 9), (l.code, 0)]
  | .vfma gd rd ra rb l => enc 0x64000008 gd [(rd.code, 17), (ra.code, 13), (rb.code, 9), (l.code, 0)]
  | .vfmin gd rd ra rb l => enc 0x6400000C gd [(rd.code, 17), (ra.code, 13), (rb.code, 9), (l.code, 0)]
  | .vfmax gd rd ra rb l => enc 0x64000010 gd [(rd.code, 17), (ra.code, 13), (rb.code, 9), (l.code, 0)]
  | .vfcmpEq gd rd ra rb l => enc 0x64000020 gd [(rd.code, 17), (ra.code, 13), (rb.code, 9), (l.code, 0)]
  | .vfcmpLt gd rd ra rb l => enc 0x64000024 gd [(rd.code, 17), (ra.code, 13), (rb.code, 9), (l.code, 0)]
  | .vfcmpLe gd rd ra rb l => enc 0x64000028 gd [(rd.code, 17), (ra.code, 13), (rb.code, 9), (l.code, 0)]
  | .vfcmpUn gd rd ra rb l => enc 0x6400002C gd [(rd.code, 17), (ra.code, 13), (rb.code, 9), (l.code, 0)]
  | .vshuf gd rd ra rb l => enc 0x68000000 gd [(rd.code, 17), (ra.code, 13), (rb.code, 9), (l.code, 0)]
  | .vbcast gd rd ra rb l => enc 0x68000004 gd [(rd.code, 17), (ra.code, 13), (rb.code, 9), (l.code, 0)]
  | .vrev gd rd ra l => enc 0x68000008 gd [(rd.code, 17), (ra.code, 13), (l.code, 0)]
  | .vpack gd rd ra rb l => enc 0x6800000C gd [(rd.code, 17), (ra.code, 13), (rb.code, 9), (l.code, 0)]
  | .vunpk gd rd ra l => enc 0x68000010 gd [(rd.code, 17), (ra.code, 13), (l.code, 0)]
  | .vcvt gd rd ra x y => enc 0x6C000000 gd [(rd.code, 17), (ra.code, 13), (x.code, 3), (y.code, 0)]
  | .vf4blk gd rd ra rb y => enc 0x6C000070 gd [(rd.code, 17), (ra.code, 13), (rb.code, 9), (y.code, 0)]
  | .vsum gd rd ra y => enc 0x6C000080 gd [(rd.code, 17), (ra.code, 13), (y.code, 0)]
  | .fdiv gd rd ra rb => enc 0x70000000 gd [(rd.code, 17), (ra.code, 13), (rb.code, 9)]
  | .fsqrt gd rd ra => enc 0x70000001 gd [(rd.code, 17), (ra.code, 13)]
  | .frcp gd rd ra => enc 0x70000002 gd [(rd.code, 17), (ra.code, 13)]
  | .frsq gd rd ra => enc 0x70000003 gd [(rd.code, 17), (ra.code, 13)]
  | .fexp2 gd rd ra => enc 0x70000004 gd [(rd.code, 17), (ra.code, 13)]
  | .flog2 gd rd ra => enc 0x70000005 gd [(rd.code, 17), (ra.code, 13)]
  | .fsin gd rd ra => enc 0x70000006 gd [(rd.code, 17), (ra.code, 13)]
  | .fcos gd rd ra => enc 0x70000007 gd [(rd.code, 17), (ra.code, 13)]
  | .ftanh gd rd ra => enc 0x70000008 gd [(rd.code, 17), (ra.code, 13)]
  | .fadd gd rd ra rb => enc 0x74000000 gd [(rd.code, 17), (ra.code, 13), (rb.code, 9)]
  | .fsub gd rd ra rb => enc 0x74000001 gd [(rd.code, 17), (ra.code, 13), (rb.code, 9)]
  | .fmul gd rd ra rb => enc 0x74000002 gd [(rd.code, 17), (ra.code, 13), (rb.code, 9)]
  | .fma gd rd ra rb => enc 0x74000003 gd [(rd.code, 17), (ra.code, 13), (rb.code, 9)]
  | .fmin gd rd ra rb => enc 0x74000004 gd [(rd.code, 17), (ra.code, 13), (rb.code, 9)]
  | .fmax gd rd ra rb => enc 0x74000005 gd [(rd.code, 17), (ra.code, 13), (rb.code, 9)]
  | .fneg gd rd ra => enc 0x74000006 gd [(rd.code, 17), (ra.code, 13)]
  | .fabs gd rd ra => enc 0x74000007 gd [(rd.code, 17), (ra.code, 13)]
  | .fcmpEq gd rd ra rb => enc 0x74000010 gd [(rd.toNat, 17), (ra.code, 13), (rb.code, 9)]
  | .fcmpLt gd rd ra rb => enc 0x74000011 gd [(rd.toNat, 17), (ra.code, 13), (rb.code, 9)]
  | .fcmpLe gd rd ra rb => enc 0x74000012 gd [(rd.toNat, 17), (ra.code, 13), (rb.code, 9)]
  | .fcmpUn gd rd ra rb => enc 0x74000013 gd [(rd.toNat, 17), (ra.code, 13), (rb.code, 9)]
  | .fcvtSL gd rd ra => enc 0x74000020 gd [(rd.code, 17), (ra.code, 13)]
  | .fcvtLS gd rd ra => enc 0x74000021 gd [(rd.code, 17), (ra.code, 13)]
  | .fcvtSLu gd rd ra => enc 0x74000022 gd [(rd.code, 17), (ra.code, 13)]
  | .fcvtLuS gd rd ra => enc 0x74000023 gd [(rd.code, 17), (ra.code, 13)]
  | .fcvtSHf gd rd ra => enc 0x74000024 gd [(rd.code, 17), (ra.code, 13)]
  | .fcvtHfS gd rd ra => enc 0x74000025 gd [(rd.code, 17), (ra.code, 13)]
  | .fcvtSBh gd rd ra => enc 0x74000026 gd [(rd.code, 17), (ra.code, 13)]
  | .fcvtBhS gd rd ra => enc 0x74000027 gd [(rd.code, 17), (ra.code, 13)]
  | .qmake gd rd ra rb => enc 0x78000000 gd [(rd.code, 17), (ra.code, 13), (rb.code, 9)]
  | .qnum gd rd ra => enc 0x78000001 gd [(rd.code, 17), (ra.code, 13)]
  | .qden gd rd ra => enc 0x78000002 gd [(rd.code, 17), (ra.code, 13)]
  | .qmed gd rd ra rb => enc 0x78000003 gd [(rd.code, 17), (ra.code, 13), (rb.code, 9)]
  | .qcf gd rd ra rb => enc 0x78000004 gd [(rd.code, 17), (ra.code, 13), (rb.code, 9)]
  | .qlim gd rd ra rb => enc 0x78000005 gd [(rd.code, 17), (ra.code, 13), (rb.code, 9)]
  | .qcanon gd rd ra => enc 0x78000006 gd [(rd.code, 17), (ra.code, 13)]
  | .qcvtF gd rd ra => enc 0x78000007 gd [(rd.code, 17), (ra.code, 13)]
  | .qcvtI gd rd ra => enc 0x78000008 gd [(rd.code, 17), (ra.code, 13)]
  | .qclass gd rd ra => enc 0x78000009 gd [(rd.code, 17), (ra.code, 13)]
  | .gcd gd rd ra rb => enc 0x7800000A gd [(rd.code, 17), (ra.code, 13), (rb.code, 9)]
  | .qsetm gd ra => enc 0x7800000B gd [(ra.code, 13)]
  | .issueMx gd rd ra => enc 0x80000000 gd [(rd.code, 17), (ra.code, 13)]
  | .issueMxSync gd rd ra => enc 0x80000100 gd [(rd.code, 17), (ra.code, 13)]
  | .issueQd gd rd ra => enc 0x80000001 gd [(rd.code, 17), (ra.code, 13)]
  | .issueQdSync gd rd ra => enc 0x80000101 gd [(rd.code, 17), (ra.code, 13)]
  | .issueCp gd rd ra => enc 0x80000002 gd [(rd.code, 17), (ra.code, 13)]
  | .issueCpSync gd rd ra => enc 0x80000102 gd [(rd.code, 17), (ra.code, 13)]
  | .issueCl gd rd ra => enc 0x80000003 gd [(rd.code, 17), (ra.code, 13)]
  | .issueClSync gd rd ra => enc 0x80000103 gd [(rd.code, 17), (ra.code, 13)]
  | .waitj gd ra => enc 0x80000010 gd [(ra.code, 13)]
  | .pollj gd rd ra => enc 0x80000011 gd [(rd.toNat, 17), (ra.code, 13)]
  | .jdrop gd ra => enc 0x80000012 gd [(ra.code, 13)]
  | .fmtLd gd ra => enc 0x84000000 gd [(ra.code, 13)]
  | .spawn gd rd ra rb => enc 0x90000000 gd [(rd.code, 17), (ra.code, 13), (rb.code, 9)]
  | .migr gd ra => enc 0x90000001 gd [(ra.code, 13)]
  | .exit gd => enc 0x90000002 gd []
  | .yield gd => enc 0x90000003 gd []
  | .lnch gd rd ra rb => enc 0x90000004 gd [(rd.code, 17), (ra.code, 13), (rb.code, 9)]
  | .gang2 gd => enc 0x94000000 gd []
  | .gang4 gd => enc 0x94000001 gd []
  | .gang8 gd => enc 0x94000002 gd []
  | .ungang gd => enc 0x94000003 gd []
  | .amSend gd ra rb => enc 0x98000000 gd [(ra.code, 13), (rb.code, 9)]
  | .gstore gd ra rb => enc 0x98000001 gd [(ra.code, 13), (rb.code, 9)]
  | .probeStart gd ra => enc 0x98000002 gd [(ra.code, 13)]
  | .nAlloc gd rd ra => enc 0xA0000000 gd [(rd.code, 17), (ra.code, 13)]
  | .nFree gd ra => enc 0xA0000001 gd [(ra.code, 13)]
  | .nLink gd ra rb => enc 0xA0000002 gd [(ra.code, 13), (rb.code, 9)]
  | .nRelink gd rd ra rb => enc 0xA0000003 gd [(rd.code, 17), (ra.code, 13), (rb.code, 9)]
  | .nRead gd rd ra => enc 0xA0000004 gd [(rd.code, 17), (ra.code, 13)]
  | .pairPop gd rd => enc 0xA0000005 gd [(rd.code, 17)]
  | .pairPush gd ra rb => enc 0xA0000006 gd [(ra.code, 13), (rb.code, 9)]
  | .ruleLd gd ra => enc 0xA0000007 gd [(ra.code, 13)]
  | .ruleGo gd ra => enc 0xA0000008 gd [(ra.code, 13)]
  | .srd gd x n => enc 0xC0000000 gd [(x.code, 13), (n.num, 1)]
  | .swr gd x n => enc 0xC0080000 gd [(x.code, 13), (n.num, 1)]
  | .trap gd n => enc 0xC0100000 gd [(n.toNat, 1)]
  | .eret gd => enc 0xC0180000 gd []
  | .brk gd => enc 0xC4000000 gd []
  | .watch gd ra rb => enc 0xC4000001 gd [(ra.code, 13), (rb.code, 9)]
  | .chorusMark gd ra => enc 0xC4000002 gd [(ra.code, 13)]
  | .traceMark gd ra => enc 0xC4000003 gd [(ra.code, 13)]
  | .tadpoleBinding => none
  | .quantumExpiry => none
  | .replyArrival => none
  | .icacheLineArrival => none
  | .sfuOperationFinish => none
  | .hardwareMigration => none
  | .migrationDeparture => none
  | .migrRetry => none
  | .tadpoleArrival => none
  | .wake => none
  | .gangFormationTimeout => none
  | .tlbWalkCompletion => none
  | .l1Fill => none
  | .writeBackAtHome => none
  | .sliceRequest => none
  | .hbmAccessCompletion => none
  | .eftOperation => none
  | .reservationRevocation => none
  | .overflowChainRead => none
  | .omegaCombine => none
  | .logAppendArrival => none
  | .logAreaFullTimeout => none
  | .pairCheck => none
  | .accessCounterHalving => none
  | .faultRecordDeferred => none
  | .engineSelection => none
  | .quadSignal => none
  | .mmaF4 => none
  | .mmaBf => none
  | .mmaH => none
  | .accZero => none
  | .accDrain => none
  | .fmtSet => none
  | .qmma => none
  | .cp1d => none
  | .cp2d => none
  | .cpGather => none
  | .cpScatter => none
  | .cpFill => none
  | .cpSignal => none
  | .copyUnit => none
  | .jobCompletion => none
  | .clReduce => none
  | .clBcast => none
  | .clAllreduce => none
  | .clChunk => none
  | .groupContribution => none
  | .groupDelivery => none
  | .packetArrival => none
  | .packetGrant => none
  | .packetPromotion => none
  | .messageArrival => none
  | .messageRetry => none
  | .streamMessageMove => none
  | .handlerStart => none
  | .remoteAccessService => none
  | .probeToken => none
  | .phaseEnd => none
  | .fabricPacketArrival => none
  | .endToEndAcknowledgement => none
  | .linkResend => none
  | .portDown => none
  | .linkTraining => none
  | .dependenceMet => none
  | .headBlocking => none
  | .pondPlacement => none
  | .pondEnd => none
  | .queueSet => none
  | .sliceSet => none
  | .asidSet => none
  | .taskSet => none
  | .keyLoadData => none
  | .keyLoadTweak => none
  | .routeSet => none
  | .groupSetWrite => none
  | .groupSetRetire => none
  | .fqSet => none
  | .faultAnswerReissue => none
  | .faultAnswerDeliver => none
  | .shootdown => none
  | .shootdownCluster => none
  | .moveStart => none
  | .movePass => none
  | .moveEnd => none
  | .preempt => none
  | .resume => none
  | .debugSet => none
  | .dump => none
  | .powerOperatingPoint => none
  | .powerCluster => none
  | .powerHbmRefresh => none
  | .powerLinkWidth => none
  | .withdraw => none
  | .cntRead => none
  | .launch => none
  | .attest => none
  | .objSet => none
  | .pageZero => none
  | .funcSet => none
  | .devSet => none
  | .mrq => none
  | .meq => none
  | .hstat => none
  | .bar2Access => none
  | .functionLevelReset => none
  | .boot => none
  | .thermalTrip => none
  | .chorusTick => none
  | .traceDrain => none
  | .traceDrainTimeout => none
  | .mcq => none
  | .illegalWord => none
  | .fetchTrap => none
  | .operatingPointPauseEnd => none
  | .clusterPowerUp => none
  | .finalPassTimeout => none
  | .linkAcknowledgement => none
  | .ideEnable => none

/-- The word of a well-formed instruction; none for a happening. -/
def encode (i : Instr) : Option (BitVec 32) := (encodeNat i).map (BitVec.ofNat 32)

/-- The register operands of an instruction (R10), for the checks of R11. -/
def Instr.regs : Instr → List Reg
  | .add _ rd ra rb => [rd, ra, rb]
  | .sub _ rd ra rb => [rd, ra, rb]
  | .and _ rd ra rb => [rd, ra, rb]
  | .or _ rd ra rb => [rd, ra, rb]
  | .xor _ rd ra rb => [rd, ra, rb]
  | .andn _ rd ra rb => [rd, ra, rb]
  | .orn _ rd ra rb => [rd, ra, rb]
  | .min _ rd ra rb => [rd, ra, rb]
  | .max _ rd ra rb => [rd, ra, rb]
  | .mins _ rd ra rb => [rd, ra, rb]
  | .maxs _ rd ra rb => [rd, ra, rb]
  | .shl _ rd ra rb => [rd, ra, rb]
  | .shr _ rd ra rb => [rd, ra, rb]
  | .sra _ rd ra rb => [rd, ra, rb]
  | .rol _ rd ra rb => [rd, ra, rb]
  | .ror _ rd ra rb => [rd, ra, rb]
  | .clz _ rd ra => [rd, ra]
  | .ctz _ rd ra => [rd, ra]
  | .popc _ rd ra => [rd, ra]
  | .sextB _ rd ra => [rd, ra]
  | .sextH _ rd ra => [rd, ra]
  | .sextW _ rd ra => [rd, ra]
  | .zextB _ rd ra => [rd, ra]
  | .zextH _ rd ra => [rd, ra]
  | .zextW _ rd ra => [rd, ra]
  | .mov _ rd ra => [rd, ra]
  | .ldk _ rd ra => [rd, ra]
  | .stk _ ra rb => [ra, rb]
  | .sel _ rd ra rb _ => [rd, ra, rb]
  | .addK _ rd ra _ => [rd, ra]
  | .subK _ rd ra _ => [rd, ra]
  | .andK _ rd ra _ => [rd, ra]
  | .orK _ rd ra _ => [rd, ra]
  | .xorK _ rd ra _ => [rd, ra]
  | .andnK _ rd ra _ => [rd, ra]
  | .ornK _ rd ra _ => [rd, ra]
  | .minK _ rd ra _ => [rd, ra]
  | .maxK _ rd ra _ => [rd, ra]
  | .minsK _ rd ra _ => [rd, ra]
  | .maxsK _ rd ra _ => [rd, ra]
  | .movK _ rd _ => [rd]
  | .stkK _ ra _ => [ra]
  | .cmpEq _ _ ra rb => [ra, rb]
  | .cmpNe _ _ ra rb => [ra, rb]
  | .cmpLt _ _ ra rb => [ra, rb]
  | .cmpGe _ _ ra rb => [ra, rb]
  | .cmpLe _ _ ra rb => [ra, rb]
  | .cmpGt _ _ ra rb => [ra, rb]
  | .cmpLtu _ _ ra rb => [ra, rb]
  | .cmpGeu _ _ ra rb => [ra, rb]
  | .cmpLeu _ _ ra rb => [ra, rb]
  | .cmpGtu _ _ ra rb => [ra, rb]
  | .tst _ _ ra rb => [ra, rb]
  | .cmpEqK _ _ ra _ => [ra]
  | .cmpNeK _ _ ra _ => [ra]
  | .cmpLtK _ _ ra _ => [ra]
  | .cmpGeK _ _ ra _ => [ra]
  | .cmpLeK _ _ ra _ => [ra]
  | .cmpGtK _ _ ra _ => [ra]
  | .cmpLtuK _ _ ra _ => [ra]
  | .cmpGeuK _ _ ra _ => [ra]
  | .cmpLeuK _ _ ra _ => [ra]
  | .cmpGtuK _ _ ra _ => [ra]
  | .tstK _ _ ra _ => [ra]
  | .bfx _ rd ra _ _ => [rd, ra]
  | .bfxs _ rd ra _ _ => [rd, ra]
  | .bfi _ rd ra _ _ => [rd, ra]
  | .shlImm _ rd ra _ => [rd, ra]
  | .shrImm _ rd ra _ => [rd, ra]
  | .sraImm _ rd ra _ => [rd, ra]
  | .rolImm _ rd ra _ => [rd, ra]
  | .rorImm _ rd ra _ => [rd, ra]
  | .mul _ rd ra rb => [rd, ra, rb]
  | .mulh _ rd ra rb => [rd, ra, rb]
  | .mulhs _ rd ra rb => [rd, ra, rb]
  | .div _ rd ra rb => [rd, ra, rb]
  | .divs _ rd ra rb => [rd, ra, rb]
  | .rem _ rd ra rb => [rd, ra, rb]
  | .rems _ rd ra rb => [rd, ra, rb]
  | .jmp _ ra => [ra]
  | .loop _ ra _ => [ra]
  | .ld _ rd ra _ _ _ => [rd, ra]
  | .st _ rd ra _ _ _ => [rd, ra]
  | .lds _ rd ra _ rb _ => [rd, ra, rb]
  | .ldRr _ rd ra _ rb _ => [rd, ra, rb]
  | .stRr _ rd ra _ rb _ => [rd, ra, rb]
  | .ldp _ rd ra _ rb => [rd, ra, rb]
  | .stp _ rd ra _ rb => [rd, ra, rb]
  | .rsv _ rd ra _ rb _ => [rd, ra, rb]
  | .rls _ rd ra _ rb _ => [rd, ra, rb]
  | .rlsx _ ra _ rb _ => [ra, rb]
  | .logAdd _ rd ra _ rb _ => [rd, ra, rb]
  | .logFadd _ rd ra _ rb => [rd, ra, rb]
  | .logMin _ rd ra _ rb _ => [rd, ra, rb]
  | .logMax _ rd ra _ rb _ => [rd, ra, rb]
  | .logOr _ rd ra _ rb _ => [rd, ra, rb]
  | .ldAcqW _ rd ra _ _ => [rd, ra]
  | .ldAcqD _ rd ra _ _ => [rd, ra]
  | .stRelW _ rd ra _ _ => [rd, ra]
  | .stRelD _ rd ra _ _ => [rd, ra]
  | .seal _ ra _ rb => [ra, rb]
  | .unseal _ rd ra _ => [rd, ra]
  | .pref _ ra _ => [ra]
  | .cwb _ ra _ => [ra]
  | .cdrop _ ra _ => [ra]
  | .scbWait _ ra rb => [ra, rb]
  | .segLd _ _ ra => [ra]
  | .segNarrow _ _ ra rb => [ra, rb]
  | .segGive _ _ ra _ => [ra]
  | .segTake _ _ ra => [ra]
  | .ldx _ rd ra rb _ _ => [rd, ra, rb]
  | .stx _ rd ra rb _ _ => [rd, ra, rb]
  | .stxN4 _ rd ra rb _ => [rd, ra, rb]
  | .objInit _ ra _ rb => [ra, rb]
  | .objFree _ ra _ => [ra]
  | .objRead _ rd ra _ => [rd, ra]
  | .cntAdd _ rd ra _ rb => [rd, ra, rb]
  | .cntSwap _ rd ra _ rb => [rd, ra, rb]
  | .cntCas _ rd ra _ rb => [rd, ra, rb]
  | .cntWaitge _ rd ra _ rb => [rd, ra, rb]
  | .cntWaiteq _ rd ra _ rb => [rd, ra, rb]
  | .barArrive _ rd ra _ => [rd, ra]
  | .barWait _ ra _ rb => [ra, rb]
  | .barSync _ rd ra _ => [rd, ra]
  | .tktAcq _ rd ra _ => [rd, ra]
  | .tktTry _ _ ra _ => [ra]
  | .tktRel _ ra _ => [ra]
  | .cndWait _ ra _ rb => [ra, rb]
  | .cndSig _ ra _ => [ra]
  | .cndBcast _ ra _ => [ra]
  | .qPut _ ra _ rb => [ra, rb]
  | .qGet _ rd ra _ rb => [rd, ra, rb]
  | .qTryput _ _ ra _ rb => [ra, rb]
  | .qTryget _ _ ra _ rb => [ra, rb]
  | .vadd _ rd ra rb _ => [rd, ra, rb]
  | .vsub _ rd ra rb _ => [rd, ra, rb]
  | .vadds _ rd ra rb _ => [rd, ra, rb]
  | .vsubs _ rd ra rb _ => [rd, ra, rb]
  | .vmul _ rd ra rb _ => [rd, ra, rb]
  | .vmulh _ rd ra rb _ => [rd, ra, rb]
  | .vmac _ rd ra rb _ => [rd, ra, rb]
  | .vdot4 _ rd ra rb => [rd, ra, rb]
  | .vmin _ rd ra rb _ => [rd, ra, rb]
  | .vmax _ rd ra rb _ => [rd, ra, rb]
  | .vabs _ rd ra _ => [rd, ra]
  | .vavg _ rd ra rb _ => [rd, ra, rb]
  | .vshl _ rd ra rb _ => [rd, ra, rb]
  | .vshr _ rd ra rb _ => [rd, ra, rb]
  | .vsra _ rd ra rb _ => [rd, ra, rb]
  | .vcmpEq _ rd ra rb _ => [rd, ra, rb]
  | .vcmpNe _ rd ra rb _ => [rd, ra, rb]
  | .vcmpLt _ rd ra rb _ => [rd, ra, rb]
  | .vcmpGe _ rd ra rb _ => [rd, ra, rb]
  | .vcmpLtu _ rd ra rb _ => [rd, ra, rb]
  | .vcmpGeu _ rd ra rb _ => [rd, ra, rb]
  | .vsel _ rd ra rb _ => [rd, ra, rb]
  | .vfadd _ rd ra rb _ => [rd, ra, rb]
  | .vfmul _ rd ra rb _ => [rd, ra, rb]
  | .vfma _ rd ra rb _ => [rd, ra, rb]
  | .vfmin _ rd ra rb _ => [rd, ra, rb]
  | .vfmax _ rd ra rb _ => [rd, ra, rb]
  | .vfcmpEq _ rd ra rb _ => [rd, ra, rb]
  | .vfcmpLt _ rd ra rb _ => [rd, ra, rb]
  | .vfcmpLe _ rd ra rb _ => [rd, ra, rb]
  | .vfcmpUn _ rd ra rb _ => [rd, ra, rb]
  | .vshuf _ rd ra rb _ => [rd, ra, rb]
  | .vbcast _ rd ra rb _ => [rd, ra, rb]
  | .vrev _ rd ra _ => [rd, ra]
  | .vpack _ rd ra rb _ => [rd, ra, rb]
  | .vunpk _ rd ra _ => [rd, ra]
  | .vcvt _ rd ra _ _ => [rd, ra]
  | .vf4blk _ rd ra rb _ => [rd, ra, rb]
  | .vsum _ rd ra _ => [rd, ra]
  | .fdiv _ rd ra rb => [rd, ra, rb]
  | .fsqrt _ rd ra => [rd, ra]
  | .frcp _ rd ra => [rd, ra]
  | .frsq _ rd ra => [rd, ra]
  | .fexp2 _ rd ra => [rd, ra]
  | .flog2 _ rd ra => [rd, ra]
  | .fsin _ rd ra => [rd, ra]
  | .fcos _ rd ra => [rd, ra]
  | .ftanh _ rd ra => [rd, ra]
  | .fadd _ rd ra rb => [rd, ra, rb]
  | .fsub _ rd ra rb => [rd, ra, rb]
  | .fmul _ rd ra rb => [rd, ra, rb]
  | .fma _ rd ra rb => [rd, ra, rb]
  | .fmin _ rd ra rb => [rd, ra, rb]
  | .fmax _ rd ra rb => [rd, ra, rb]
  | .fneg _ rd ra => [rd, ra]
  | .fabs _ rd ra => [rd, ra]
  | .fcmpEq _ _ ra rb => [ra, rb]
  | .fcmpLt _ _ ra rb => [ra, rb]
  | .fcmpLe _ _ ra rb => [ra, rb]
  | .fcmpUn _ _ ra rb => [ra, rb]
  | .fcvtSL _ rd ra => [rd, ra]
  | .fcvtLS _ rd ra => [rd, ra]
  | .fcvtSLu _ rd ra => [rd, ra]
  | .fcvtLuS _ rd ra => [rd, ra]
  | .fcvtSHf _ rd ra => [rd, ra]
  | .fcvtHfS _ rd ra => [rd, ra]
  | .fcvtSBh _ rd ra => [rd, ra]
  | .fcvtBhS _ rd ra => [rd, ra]
  | .qmake _ rd ra rb => [rd, ra, rb]
  | .qnum _ rd ra => [rd, ra]
  | .qden _ rd ra => [rd, ra]
  | .qmed _ rd ra rb => [rd, ra, rb]
  | .qcf _ rd ra rb => [rd, ra, rb]
  | .qlim _ rd ra rb => [rd, ra, rb]
  | .qcanon _ rd ra => [rd, ra]
  | .qcvtF _ rd ra => [rd, ra]
  | .qcvtI _ rd ra => [rd, ra]
  | .qclass _ rd ra => [rd, ra]
  | .gcd _ rd ra rb => [rd, ra, rb]
  | .qsetm _ ra => [ra]
  | .issueMx _ rd ra => [rd, ra]
  | .issueMxSync _ rd ra => [rd, ra]
  | .issueQd _ rd ra => [rd, ra]
  | .issueQdSync _ rd ra => [rd, ra]
  | .issueCp _ rd ra => [rd, ra]
  | .issueCpSync _ rd ra => [rd, ra]
  | .issueCl _ rd ra => [rd, ra]
  | .issueClSync _ rd ra => [rd, ra]
  | .waitj _ ra => [ra]
  | .pollj _ _ ra => [ra]
  | .jdrop _ ra => [ra]
  | .fmtLd _ ra => [ra]
  | .spawn _ rd ra rb => [rd, ra, rb]
  | .migr _ ra => [ra]
  | .lnch _ rd ra rb => [rd, ra, rb]
  | .amSend _ ra rb => [ra, rb]
  | .gstore _ ra rb => [ra, rb]
  | .probeStart _ ra => [ra]
  | .nAlloc _ rd ra => [rd, ra]
  | .nFree _ ra => [ra]
  | .nLink _ ra rb => [ra, rb]
  | .nRelink _ rd ra rb => [rd, ra, rb]
  | .nRead _ rd ra => [rd, ra]
  | .pairPop _ rd => [rd]
  | .pairPush _ ra rb => [ra, rb]
  | .ruleLd _ ra => [ra]
  | .ruleGo _ ra => [ra]
  | .srd _ x _ => [x]
  | .swr _ x _ => [x]
  | .watch _ ra rb => [ra, rb]
  | .chorusMark _ ra => [ra]
  | .traceMark _ ra => [ra]
  | _ => []

/-- The register operands of a form. -/
def Form.regs : Form → List Reg
  | .base i => i.regs
  | .extra (.amSend _ ra rb) => [ra, rb]
  | .extra (.gstore _ ra rb) => [ra, rb]
  | .extra (.probeStart _ ra) => [ra]
  | .extra (.nAlloc _ rd ra) => [rd, ra]
  | .extra (.nFree _ ra) => [ra]
  | .extra (.nLink _ ra rb) => [ra, rb]
  | .extra (.nRelink _ rd ra rb) => [rd, ra, rb]
  | .extra (.nRead _ rd ra) => [rd, ra]
  | .extra (.pairPop _ rd) => [rd]
  | .extra (.pairPush _ ra rb) => [ra, rb]
  | .extra (.ruleLd _ ra) => [ra]
  | .extra (.ruleGo _ ra) => [ra]
  | .extra (.srd _ x _) => [x]
  | .extra (.swr _ x _) => [x]
  | .extra (.watch _ ra rb) => [ra, rb]
  | .extra (.chorusMark _ ra) => [ra]
  | .extra (.traceMark _ ra) => [ra]
  | _ => []

end Sys2Proof
end

