-- ==== Sys2Proof/Machine/StateThread.lean ====
section
/-! DEFINITION. The plain data of a thread and of a core: the tadpole (R29), its trap state (R406), its identity (R473),
what it waits for, and the slots, queues and scoreboard of a core (R38 to R43). -/

namespace Sys2Proof.Machine

/-- The spaces of a segment (R19). -/
inductive Space where
  | global | scratch | tcm | object
  deriving DecidableEq, Repr

/-- A segment register (R19). -/
structure Seg where
  base : BitVec 57 := 0
  limit : BitVec 58 := 0
  space : Space := .global
  r : Bool := false
  w : Bool := false
  x : Bool := false
  o : Bool := false
  s : Bool := false
  g : Bool := false
  tag : Byte := 0
  deriving DecidableEq, Repr

/-- The tadpole (R29). -/
structure Ctx where
  g : Vector Word 10 := Vector.replicate 10 0
  psw : Word := 1
  pc : BitVec 32 := 0
  gtid : BitVec 32 := 0
  sel : Vector Byte 8 := Vector.replicate 8 0
  srg : Word := 0
  rmt : Word := 0
  trw : Word := 0
  deriving DecidableEq, Repr

/-- The trap state that the core holds beside a run-queue entry (R406). -/
structure TrapRegs where
  cause : Byte := 0
  epc : BitVec 32 := 0
  eword : BitVec 32 := 0
  eaddr : BitVec 57 := 0
  tscr : Word := 0
  deriving DecidableEq, Repr

/-- The identity that the core keeps beside a run-queue entry (R473). `pond` is the model's number of the pond's
placement, 0 for the threads of slots 0 and 1. -/
structure Ident where
  pond : Nat := 0
  pondRank : BitVec 32 := 0xFFFFFFFF
  crewRank : BitVec 16 := 0xFFFF
  tsn : BitVec 32 := 0xFFFFFFFF
  deriving DecidableEq, Repr

/-- Who asked a home, a router or the scheduler for something: a thread by the model's number, an engine job, the
scheduler for a launch queue, an agent of another device with its request number, its
tenant and the OP of its request, a function of the host, a cluster's
shootdown, the home of a queue that waits for a slot on another device, nobody. -/
inductive Agent where
  | thread (tid : Nat)
  | job (j : Nat)
  | sched (q : Nat)
  | fabric (dev agent seq ten op : Nat)
  | host (fn : Nat) (tag : BitVec 32)
  | shoot (id cluster : Nat)
  | home (k : Nat)
  | nobody
  deriving DecidableEq, Repr

/-- The operations that the eft of a home performs (R180, R149, R154, R161, R193, R249, R268, R270). -/
inductive HomeOp where
  | init (ty : Nat) (img : List Word)
  | free
  | read
  | cntAdd (b : Word)
  | cntSwap (b : Word)
  | cntCas (r b : Word)
  | waitGe (b : Word)
  | waitEq (b : Word)
  | barArrive
  | barWait (ph : Nat)
  | barSync
  | tktAcq
  | tktTry
  | tktRel
  /-- TKT.REL on behalf of CND.WAIT (R194) -/
  | tktRelFor
  | cndWait (lock : Nat)
  | cndSig
  | cndBcast
  | qPut (code : Nat) (p : List Byte)
  | qTryput (code : Nat) (p : List Byte)
  | qGet (code : Nat)
  | qTryget (code : Nat)
  | seal (base len : Nat) (sc : Scope)
  | unseal
  | giveCheck
  | give (c : Seg)
  | take
  | rsv (n : Nat)
  | rls (n : Nat) (v : Word)
  | rlsx (n : Nat)
  /-- CP.1D with SGM = 1 (R249) -/
  | copyTake
  /-- CP.1D with SGM = 2 (R249) -/
  | copyRelease
  /-- the type check of PROBE.START (R268) -/
  | probeType (off : Nat)
  /-- the increment of a phase end or a pond's end, for the task whose record tells that there is no counter (R268, R336) -/
  | phaseAdd (gtid : Nat)
  /-- the merge of the logs of a pond of the asking device, by its count of placements (R301, R336) -/
  | mergeLog (count : Nat)
  | nAlloc (agent ar : Nat)
  | nFree
  | nRead (p : Nat)
  /-- a limbo node recycled with the link to the old head of the free list (R277) -/
  | nRecycle (old : Word)
  /-- N.LINK: step 0 at port a's home, 1 at port b's; 2 checks b's node at a home of another device and 3 goes back to a's; 4 is the
  pair check -/
  | nLink (step a b : Nat)
  /-- N.RELINK at its step: 0 Home(P), 1 Home(N) after the first, 2 Home(x), 3 Home(N) in the loop, 4 the pair check (R272); 5 checks
  N's node at a home of another device and 6 goes back to Home(P) -/
  | nRelink (step p n x hops : Nat)
  | pairPush (u v : Nat)
  /-- a slot's bytes written at the slot's home, unmarked or, for a capability, marked (R193, R161) -/
  | slotPut (cap : Bool) (bs : List Byte)
  /-- a slot read at its home, which must be unmarked or, for a capability, marked -/
  | slotGet (n : Nat) (cap : Bool)
  /-- the mark of a slot cleared at its home (R186) -/
  | slotFree (n : Nat)
  /-- RULE.GO: step 0 reads u's header, step 1 v's (R279) -/
  | ruleGo (step u v agentU : Nat)
  deriving DecidableEq, Repr

/-- A request at a home: who asks, the object's virtual address and the s4 window it came through, the physical address,
the address space, the tenant, the scope, and the key index and AC bit of the leaf. -/
structure HomeReq where
  who : Agent
  op : HomeOp
  va : Nat
  pa : Nat
  segBase : Nat := 0
  segLimit : Nat := 0
  asid : Nat := 0
  tenant : Nat := 0
  scope : Scope := .device
  cluster : Nat := 0
  key : Nat := 0
  ac : Bool := false
  /-- the GTID, pond ID and TSN by which a reservation is identified (R149, R473) -/
  ident : BitVec 32 × Nat × BitVec 32 := (0, 0, 0)
  deriving DecidableEq, Repr

/-- What a home, a target or the scheduler answers: a cause (0 when the operation was performed), whether that cause
comes after the effect, a page fault instead (cause, address, access kind), and the values; with `push` the asker's cluster takes
the pair in `data` into its pool (R275). `seen` holds ranges of the requester's space that the home has met beside the object's first
granule, which a watchpoint checks (R412). -/
structure Reply where
  cause : Nat := 0
  addr : Nat := 0
  after : Bool := false
  fault : Option (Nat × Nat × Nat) := none
  value : Word := 0
  flag : Bool := false
  push : Bool := false
  merr : Bool := false
  data : List Byte := []
  cap : Option Seg := none
  scope : Option Scope := none
  seen : List (Nat × Nat) := []
  deriving DecidableEq, Repr

/-- A message of R263 in flight: its header, its payload, the sender's thread and task (none for stream messages and
other devices), the refusals so far, and whether the sender waits for an answer (R265). -/
structure NetMsg where
  header : Word
  payload : List Word
  sender : Agent
  asid : Nat := 0
  gtid : BitVec 32 := 0
  srcCore : Nat := 0
  refusals : Nat := 0
  asked : Bool := false
  deriving DecidableEq, Repr

/-- A remote access (R164). `val` is none for a load. -/
structure Remote where
  who : Agent
  gtid : BitVec 32
  core : Nat
  sp : RSpace
  off : Nat
  n : Nat
  nibble : Bool := false
  val : Option Word := none
  deriving DecidableEq, Repr

/-- What a reply does to the thread it reaches: where the value, the predicate or the payload goes and which acquire
follows. -/
structure Take where
  rd : Option Reg := none
  pd : Option Pred := none
  /-- bytes of the loaded value and whether it is sign-extended -/
  bytes : Nat := 8
  sext : Bool := false
  /-- the second register of a pair -/
  rd2 : Option Reg := none
  /-- TCM offset for a payload -/
  tcm : Option Nat := none
  /-- segment register that receives a capability -/
  sd : Option Nat := none
  acq : Option Scope := none
  /-- STATUS[32] decides cause 0x42 (R190) -/
  ote : Bool := false
  /-- an address whose poisoned word raises 0x28 (R143), and the virtual address for a watchpoint (R412) -/
  addr : Nat := 0
  /-- the accesses that R412 checks: virtual address, bytes, direction -/
  watch : List (Nat × Nat × Nat) := []
  /-- the cluster's dirty bytes at `addr` take precedence (R148) -/
  merge : Bool := false
  /-- RULE.GO's pair (R279) -/
  pair : Option Word := none
  /-- the request that follows an answer without a cause: the put of SEG.GIVE (R161) -/
  next : Option HomeReq := none
  /-- the answer to that put: the write right of `sd` goes -/
  give : Bool := false
  /-- a cause that follows the effect, found when the instruction issued (R403) -/
  late : Option (Nat × Nat) := none
  deriving DecidableEq, Repr

/-- What is to be done when a thread's present wait ends. -/
inductive Cont where
  /-- nothing is awaited -/
  | none
  /-- the word is executed again in full -/
  | retry
  /-- a release is awaited, then the request goes to its home -/
  | send (r : HomeReq) (t : Take)
  /-- the reply to a request is awaited -/
  | reply (t : Take)
  /-- a release is awaited, then the thread ends (R258, R402) -/
  | exit
  /-- a release of the word is awaited; the word is then executed again from what follows the release -/
  | second
  /-- the waits of R257 are awaited, with an entry reserved on this core; 16,384 more than a cluster's number while MIGR
  waits for an entry there (R337) -/
  | depart (core : Nat)
  /-- DONE of the job record at this TCM offset is awaited, then the job is observed (R234) -/
  | observe (r : Nat)
  /-- a launch record stands with the scheduler (R260) -/
  | launch (rd : Reg)
  deriving DecidableEq, Repr

/-- What a thread that executes its word again waits for. -/
inductive Why where
  | none
  /-- a translation -/
  | walk
  /-- a line of the cluster L1, or acknowledgements -/
  | fill
  /-- the range scoreboard (R157) or an entry of it (R230) -/
  | scb
  /-- a scratchpad line that is empty (R158) -/
  | line
  /-- room in a kick queue (R228) -/
  | kick
  /-- an instruction line -/
  | fetch
  /-- an N.ALLOC of the cluster that is in flight (R271) -/
  | pool
  /-- the round of the core's earlier GSTORE (R267) -/
  | group
  deriving DecidableEq, Repr

/-- Where a thread stands (R42, R415). -/
inductive Run where
  /-- no thread: a slot-0 or slot-1 thread that has nothing to run -/
  | idle
  /-- in the rotation -/
  | active
  /-- ready, in the FIFO of its core -/
  | ready
  /-- awaiting a reply, a wait or a fetch -/
  | waiting
  /-- in the special-function unit -/
  | sfu
  /-- parked at an object -/
  | parked
  /-- parked on a page fault -/
  | faulted
  /-- waiting in a GANG of this size -/
  | forming (n : Nat)
  /-- migrating -/
  | moving
  deriving DecidableEq, Repr

/-- A sampled load in progress (R419): the cycle up to which its time is told, its virtual address, the level that serves it, and the
cycles spent at each level. -/
structure Sample where
  since : Nat
  va : Nat
  level : Nat := 2
  spent : Tbl Nat := []
  deriving DecidableEq, Repr

/-- What the core and the scheduler keep beside a tadpole and that no instruction reads directly. -/
structure Aux where
  /-- its entry of the core's run queue (R334, R341), by which the core counts jobs (R253) -/
  entry : Nat := 0
  /-- the command that an ISSUE which waits has read (R230) -/
  snap : Option (List Byte) := none
  /-- log appends that have not reached their homes (R152) -/
  appends : Nat := 0
  /-- a hardware migration request held or due (R31, R257) -/
  migReq : Option Nat := none
  /-- the cluster whose pool counts a popped pair of this thread as busy (R276) -/
  popped : Option Nat := none
  /-- CHORUS.MARK (R416), with its issue cycle -/
  mark : Option (BitVec 32 × Nat) := none
  /-- first issue cycle of this binding (R43) -/
  boundAt : Nat := 0
  /-- cycle at which the present wait began -/
  waitAt : Nat := 0
  /-- sampled load in progress (R419) -/
  sample : Option Sample := none
  /-- the load that waits for a line has updated RMT (R31) -/
  counted : Bool := false
  /-- child of a SPAWN that has not yet been bound: it acquires at cluster scope (R256); a restored thread acquires at
  device scope (R343) -/
  firstAcq : Option Scope := none
  /-- the fault token it is parked on -/
  token : Nat := 0
  /-- its place in the save area of its pond: block × 256 + entry of the state table (R341) -/
  savedAt : Nat := 0
  why : Why := .none
  deriving DecidableEq, Repr

/-- One thread: the tadpole, what stands beside it, and its place. -/
structure Thread where
  ctx : Ctx := {}
  trap : TrapRegs := {}
  ident : Ident := {}
  segs : Vector Seg 8 := Vector.replicate 8 {}
  run : Run := .idle
  core : Nat := 0
  slot : Option Nat := none
  /-- the word whose execution waits -/
  word : BitVec 32 := 0
  cont : Cont := .none
  aux : Aux := {}
  deriving DecidableEq, Repr

/-- What a barrel slot holds (R38, R43). -/
inductive Slot where
  | empty
  /-- a thread whose context is being loaded; slot cycles still to pass -/
  | loading (tid left : Nat)
  | held (tid : Nat)
  deriving DecidableEq, Repr

/-- The network interface and the slot-0 queues of a core (R12, R264, R371 to R373). -/
structure NetIf where
  rx : List Word := []
  /-- positions of headers: words until the next header -/
  rxLeft : Nat := 0
  tx : List Word := []
  lastPushed : Word := 0
  /-- TENANT of the header that slot 0 last sent or received (R18) -/
  ten : Nat := 0
  /-- payload words still to come of the message being assembled; its header -/
  txLeft : Nat := 0
  txHead : Option Word := none
  /-- the words of an invalid header are dropped up to the next header -/
  dropping : Bool := false
  badHeaders : Nat := 0
  hHead : Nat := 0
  hTail : Nat := 0
  hUsed : Nat := 0
  sHead : Nat := 0
  sTail : Nat := 0
  sUsed : Nat := 0
  /-- bytes of the ring's end that a skip marker consumes -/
  hSkip : Nat := 0
  sSkip : Nat := 0
  remote : List Nat := []
  /-- messages that retry, in order, by message number -/
  retrying : List Nat := []
  /-- messages under way that their targets have neither taken nor refused -/
  sent : List Nat := []
  refdrop : BitVec 32 := 0
  /-- header of the handler message that slot 1 runs -/
  running : Option Word := none
  deriving DecidableEq, Repr

/-- The operations of a core's special-function unit (R211, R215, R221 to R225). -/
inductive SfuOp where
  | fdiv | fsqrt | frcp | frsq | fexp2 | flog2 | fsin | fcos | ftanh
  | qadd | qsub | qmul | qmin | qmax | qneg | qabs | qeq | qlt | qle | qun
  | fromL | toL | fromLu | toLu | fromHf | toHf | fromBh | toBh
  | qmake | qnum | qden | qmed | qcf | qlim | qcanon | qcvtF | qcvtI | qclass | gcd
  deriving DecidableEq, Repr

/-- An operation in a core's queue (R210): the thread, the operation, where its result goes, the operands, STATUS as it
stood at issue and the cycle of entry. -/
structure SfuEntry where
  tid : Nat
  op : SfuOp
  rd : Option Reg
  pd : Option Pred
  a : Word
  b : Word
  psw : Word
  entered : Nat
  deriving DecidableEq, Repr

/-- An entry of the range scoreboard (R157): destination and source ranges in TCM, and the job. -/
structure ScbEntry where
  job : Nat
  dst : Nat
  dstLen : Nat
  src : Nat
  srcLen : Nat
  deriving DecidableEq, Repr

/-- One tile core (R38 to R43). -/
structure Core where
  slots : Vector Slot 8 := Vector.replicate 8 .empty
  /-- resident tadpoles, at most 32 -/
  entries : List Nat := []
  /-- entries reserved for arriving tadpoles -/
  reserved : Nat := 0
  fifo : List Nat := []
  scb : List ScbEntry := []
  tags : BitVec 5 := 0
  net : NetIf := {}
  sfu : List SfuEntry := []
  sfuStart : Nat := 0
  /-- CL jobs queued, and the one in progress -/
  clq : List Nat := []
  clCur : Option Nat := none
  /-- contributions that the core has made to each group (R354, R357) -/
  groupRound : Tbl Nat := []
  /-- groups of whose round a GSTORE of the core takes part, and groups whose round was abandoned with one (R267, R357) -/
  groupOpen : List Nat := []
  groupBad : List Nat := []
  /-- a dump or a pre-emption keeps the core from binding (R340, R421) -/
  noBind : Bool := false
  deriving DecidableEq, Repr

end Sys2Proof.Machine
end

