-- ==== Sys2Proof/Machine/StateHome.lean ====
section
/-! DEFINITION. The plain data of the slices and of the clusters: objects' waiters, reservations, logs, the cluster L1, the
TLB, the engines and the torus router. -/

namespace Sys2Proof.Machine

/-- The record of a waiter at an object (R183); `inl` when it stands in the waiter store. `tag` is the phase, the ticket
or nothing. -/
structure Waiter where
  req : HomeReq
  tag : Nat
  inl : Bool
  /-- a payload record is held (R319) -/
  payload : Bool
  deriving DecidableEq, Repr

/-- What a queue's home waits for at a slot that is homed on another device: the request, whether it is a waiter's that is served,
and the slot of an OBJ.FREE. -/
structure SlotWait where
  req : HomeReq
  waiter : Bool
  free : Option Nat := none
  deriving DecidableEq, Repr

/-- What the home keeps for an object beside its words: waiters in arrival order, and whether a chain record is being
read from HBM. -/
structure ObjState where
  waiters : List Waiter := []
  /-- a chain record is being moved inline; later operations on the object wait -/
  reading : Bool := false
  /-- an operation of the queue waits for a slot's home; later operations on the queue wait -/
  slotWait : Option SlotWait := none
  /-- the space, tenant and cluster of the sealing thread, while a seal record is sealed or draining (R154) -/
  sealedBy : Option (Nat × Nat × Nat) := none
  /-- the UNSEAL that waits for COPIES = 0 (R155) -/
  unsealing : Option HomeReq := none
  /-- scope of the give of each marked slot, by slot number (R162) -/
  gives : Tbl Scope := []
  deriving DecidableEq, Repr

/-- A reservation (R149): the word, its size, who reserved it, the cycle of the grant, whether the granted word was
poisoned, and a number that its revocation names. -/
structure Reservation where
  pa : Nat
  n : Nat
  gtid : BitVec 32
  pond : Nat
  tsn : BitVec 32
  req : HomeReq
  granted : Option Nat
  poisoned : Bool
  stamp : Nat
  deriving DecidableEq, Repr

/-- The identity of a thread as reservations name it, with a word: a reservation that was revoked (R151). -/
structure DeadRsv where
  pa : Nat
  gtid : BitVec 32
  pond : Nat
  tsn : BitVec 32
  deriving DecidableEq, Repr

/-- The operators of logged updates (R152). -/
inductive LogOp where
  | add | fadd | min | max | or
  deriving DecidableEq, Repr

/-- An entry of a log area (R152). The pond key is the device ID with the count of placements. -/
structure LogEntry where
  pa : Nat
  op : LogOp
  n : Nat
  val : Word
  keyDev : Nat
  keyCount : Nat
  slice : Nat
  seq : Nat
  /-- the cluster whose interface counts it until it stands in the log (R374) -/
  cluster : Nat := 0
  /-- its thread waits until it stands in the log (R152) -/
  waits : Bool := false
  /-- the key index of its page (R323), and where its bytes from the n-th on lie when it crosses a page -/
  key : Nat := 0
  split : Option (Nat × Nat × Nat) := none
  /-- the AC bit of its leaf (R399) -/
  ac : Bool := false
  deriving DecidableEq, Repr

/-- The access counter of a 2 MiB region (R399). -/
structure AccCounter where
  count : Nat := 0
  armed : Bool := true
  die : Nat := 0
  dev : Nat := 0
  tenant : Nat := 0
  deriving DecidableEq, Repr

/-- What a home or a receiving router keeps for a source agent of another device (R382): applied sequence numbers with
their replies; none while the request is parked. -/
structure Dedup where
  ackt : Nat := 0
  seen : List (Nat × Option Reply) := []
  deriving DecidableEq, Repr

/-- The counters of a slice (R326). -/
structure SliceCounters where
  discard : BitVec 32 := 0
  objerr : BitVec 32 := 0
  mrgdrop : BitVec 32 := 0
  corr : BitVec 32 := 0
  uncorr : BitVec 32 := 0
  psnread : BitVec 32 := 0
  combined : BitVec 32 := 0
  chained : BitVec 32 := 0
  logfull : BitVec 32 := 0
  deriving DecidableEq, Repr

/-- One slice with its eft (R316 to R320). -/
structure Slice where
  /-- requests in arrival order, by message number; the first 64 are in the eft's queue -/
  queue : List Nat := []
  objs : Tbl ObjState := []
  /-- overflow records in use -/
  overflow : Nat := 0
  rsv : List Reservation := []
  dead : List DeadRsv := []
  log : List LogEntry := []
  /-- appends that wait for room: entry, thread -/
  logWait : List (LogEntry × Agent) := []
  ctr : SliceCounters := {}
  /-- the lines that the slice's 64 sets of 16 ways hold, most recently used first, by line number (R316) -/
  lines : List Nat := []
  /-- the key index under which each line was last filled or enciphered, by line number (R323) -/
  enc : Tbl Nat := []
  acc : Tbl AccCounter := []
  dedup : Tbl Dedup := []
  deriving DecidableEq, Repr

/-- A line of the cluster L1 (R313), its way and the time of its last use (R310). -/
structure L1Line where
  va : Nat
  asid : Nat
  way : Nat
  tag : Byte
  sealedLine : Bool
  valid : BitVec 128
  dirty : BitVec 128
  psn : BitVec 16
  data : BitVec 1024
  used : Nat
  /-- words whose SEC-DED code shows an error of one bit, or an uncorrectable one, that no read has met (R324) -/
  oneBit : BitVec 16 := 0
  lostBits : BitVec 16 := 0
  deriving DecidableEq, Repr

/-- A TLB entry (R392); `size` is the number of offset bits. -/
structure TlbEntry where
  asid : Nat
  va : Nat
  size : Nat
  pa : Nat
  r : Bool
  w : Bool
  x : Bool
  ac : Bool
  key : Nat
  deriving DecidableEq, Repr

/-- A line of the instruction cache: 128 bytes of global virtual memory. -/
structure ILine where
  asid : Nat
  va : Nat
  data : BitVec 1024
  used : Nat
  deriving DecidableEq, Repr

/-- What a cluster keeps for its crew (R334, R335, R266). -/
structure Crew where
  pond : Nat
  number : Nat
  s : Nat
  asid : Nat
  tenant : Nat
  gtid : BitVec 32
  launch : LaunchRec
  deriving DecidableEq, Repr

/-- The cluster registers that programs reach (R280). -/
structure ClusterRegs where
  migthr : BitVec 16 := 16
  trapvec : BitVec 32 := 0
  nfl : Word := 0xFFFFFFFFFFFFFFFF
  rtb : BitVec 57 := 0
  deriving DecidableEq, Repr

/-- An element of an accumulator bank: fixed-point value and flags (R68), or FP32 bits in the low half (R71). -/
structure Elem where
  val : Word := 0
  nan : Bool := false
  satd : Bool := false
  deriving DecidableEq, Repr

/-- An accumulator bank (R346): its mode and its elements that are not zero, by row × 64 + column. -/
structure Bank where
  fp32 : Bool := false
  elems : Tbl Elem := []
  deriving DecidableEq, Repr

/-- A segment operand of a job, as ISSUE resolved it (R246). -/
structure Operand where
  seg : Seg := {}
  off : Nat := 0
  deriving DecidableEq, Repr

/-- The engines (R228). -/
inductive Engine where
  | mx | qd | cp | cl
  deriving DecidableEq, Repr

/-- A job: where it came from, its command, the operands resolved at issue, and how far it has come. -/
structure Job where
  eng : Engine
  core : Nat
  tid : Nat
  /-- the run-queue entry of its core that issued it (R253); 32 for slot 0, 33 for slot 1 -/
  entry : Nat := 0
  id : Nat
  pond : Nat
  gtid : BitVec 32
  tenant : Nat
  asid : Nat
  cmd : Vector Word 4
  src : Operand := {}
  dst : Operand := {}
  /-- address of the s4 object operand, with its window -/
  obj : Nat := 0
  /-- error 0x0A found at issue, with its cause -/
  preErr : Nat := 0
  accepted : Bool := false
  dropped : Bool := false
  /-- units, rows or elements started; chunks sent; chunks delivered -/
  unit : Nat := 0
  sent : Nat := 0
  done : Nat := 0
  /-- requests of the job that are not answered yet -/
  pending : Nat := 0
  /-- where a job stands: 0 not begun, 1 a seal request asked, 2 its data move, 3 a signal's write-backs awaited, 4 its
  object operation asked, 5 over, 6 a seal release's write-backs awaited, 9 its completion release made, 10 held for an earlier job of its core -/
  phase : Nat := 0
  err : Nat := 0
  flg : Byte := 0
  isMatch : Bool := true
  res : Word := 0
  finished : Bool := false
  /-- scratchpad lines that the job marked empty -/
  empties : List Nat := []
  /-- chunks delivered to a CL job and not yet written: number and bytes -/
  inbox : List (Nat × List Byte) := []
  /-- one more than the core whose TCM the job's pond now has, when the pond was resumed elsewhere (R343); 0 for `core` -/
  place : Nat := 0
  deriving DecidableEq, Repr

/-- A latch of the operand ring (R346): one K chunk of 32 of all 64 N-rows of B, its elements and, in FP4, its scales. -/
structure Latch where
  elems : List Byte := []
  scales : List Byte := []
  deriving DecidableEq, Repr

/-- The matrix engine (R229, R346, R348). -/
structure MxEngine where
  queues : Vector (List Nat) 8 := Vector.replicate 8 []
  last : Nat := 7
  selected : Option Nat := none
  fillEnd : Nat := 0
  current : Option Nat := none
  currentEnd : Nat := 0
  /-- the operand ring of the current command and the shadow ring that the selected command's fill loads (R346, R348); position
  g holds K chunk g, where the eight stages of a command bring it back to (R347) -/
  ring : Vector Latch 8 := Vector.replicate 8 {}
  shadow : Vector Latch 8 := Vector.replicate 8 {}
  /-- the selected command's fill has ended; a poisoned word stood among its operands -/
  filled : Bool := false
  shadowMerr : Bool := false
  banks : Vector Bank 4 := Vector.replicate 4 {}
  ctxs : Vector (Vector Word 4) 8 :=
    Vector.replicate 8 #v[0, 0x3F803F803F803F80, 0x3F803F803F803F80, 0]
  /-- the FMT.LDs that wait, oldest first: core in the cluster, thread, image, the jobs it waits for (R241, R350) -/
  fmtWait : List (Nat × Nat × Vector Word 4 × List Nat) := []
  /-- a QMMA signalled by the token holder (R351) -/
  quadNext : Option Nat := none
  token : Nat := 0
  qdCount : Nat := 0
  deriving DecidableEq, Repr

/-- The copy hart (R353). -/
structure CopyHart where
  queue : List Nat := []
  active : List Nat := []
  turn : Nat := 0
  /-- jobs parked on page faults, which stop the whole hart (R251) -/
  stopped : List Nat := []
  /-- first cycle in which a unit may start (R353) -/
  nextAt : Nat := 0
  deriving DecidableEq, Repr

/-- A packet on the torus (R364): its VC, its length, its tenant, where it goes, what it carries and since when it
heads its buffer. -/
structure Pkt where
  vc : Nat
  flits : Nat
  tenant : Nat
  src : Nat
  dst : Nat
  msg : Nat
  since : Nat := 0
  promoted : Bool := false
  deriving DecidableEq, Repr

/-- An output of a torus router (R367). -/
structure TorusOut where
  vc : Nat := 3
  credit : Nat := 0
  busyUntil : Nat := 0
  rr : Nat := 0
  scheduled : Bool := false
  deriving DecidableEq, Repr

/-- A torus router (R364 to R369). Buffers are numbered input × 4 + VC. -/
structure TorusRouter where
  bufs : Tbl (List Nat) := []
  outs : Tbl TorusOut := []
  bitmap : BitVec 256 := BitVec.allOnes 256
  agelim : Nat := 512
  weights : Vector Nat 4 := #v[3, 4, 2, 1]
  tviol : BitVec 32 := 0
  deriving DecidableEq, Repr

/-- The trace buffer of a cluster (R418 to R420). -/
structure TraceBuf where
  recs : List (Vector Word 8) := []
  lost : Nat := 0
  ring : Nat := 0
  ringSize : Nat := 0
  sper : Nat := 0
  count : Nat := 0
  /-- the gate command's time base while a gating drains -/
  gating : Option Nat := none
  dropped : Nat := 0
  draining : Bool := false
  deriving DecidableEq, Repr

/-- The probe interface of a cluster (R374): a signed 64-bit count and a colour. -/
structure ProbeIf where
  count : Word := 0
  black : Bool := false
  deriving DecidableEq, Repr

/-- The interaction-net state of a cluster (R271, R275, R276). Pairs are node numbers (offset / 32). -/
structure NetPool where
  pairs : List (Nat × Nat) := []
  /-- pushes that wait for room: pair, thread or nobody -/
  waiting : List (Nat × Nat × Agent) := []
  busy : Nat := 0
  /-- limbo: node offset, its virtual address -/
  limbo : List (Nat × Nat) := []
  deriving DecidableEq, Repr

/-- One cluster. -/
structure Cluster where
  crew : Option Crew := none
  regs : ClusterRegs := {}
  spawnCtr : Nat := 0
  /-- scratchpad lines that are empty (R158) -/
  empties : List Nat := []
  l1 : List L1Line := []
  clock : Nat := 0
  tlb : List TlbEntry := []
  multihit : BitVec 32 := 0
  icache : List ILine := []
  pool : NetPool := {}
  mx : MxEngine := {}
  copy : CopyHart := {}
  probe : ProbeIf := {}
  router : TorusRouter := {}
  trace : TraceBuf := {}
  /-- on at reset, where R439 and R441 give no value: DESIGN CHOICE, unsafe, log 9 -/
  powered : Bool := true
  gatingCmd : Option (Nat × BitVec 32) := none
  gatedAt : Nat := 0
  withdrawn : Bool := false
  corr : BitVec 32 := 0
  uncorr : BitVec 32 := 0
  psnread : BitVec 32 := 0
  deriving DecidableEq, Repr

end Sys2Proof.Machine
end

