-- ==== Sys2Proof/Machine/StateDevice.lean ====
section
/-! DEFINITION. The plain data of the dies, the fabric, the scheduler and the host side of the device. -/

namespace Sys2Proof.Machine

/-- A fault record (R396), with the tenant whose queue receives it. -/
structure FaultRec where
  tenant : Nat
  cause : Nat
  kind : Nat
  acc : Nat := 0
  asid : Nat := 0
  gtid : BitVec 32 := 0
  rank : BitVec 32 := 0xFFFFFFFF
  pc : Nat := 0
  addr : Nat := 0
  word : BitVec 32 := 0
  core : Nat := 0
  token : Nat := 0
  info5 : Word := 0
  info6 : Word := 0
  deriving DecidableEq, Repr

/-- What is parked under a fault token (R398). -/
inductive Parked where
  | thread (tid : Nat)
  | copyJob (j : Nat)
  | clJob (j : Nat)
  | handler (tid : Nat)
  deriving DecidableEq, Repr

/-- A fault token that has not been answered; `after` when earlier steps of a net operation have taken effect (R270),
with the request that resumes. -/
structure FaultTok where
  who : Parked
  cause : Nat
  addr : Nat
  after : Option (HomeReq × Take) := none
  deriving DecidableEq, Repr

/-- A contribution that stands in a round: the contributor (local core number, or 0x10000 + port), its values, flags, the
job (nobody for a GSTORE or a router), the contributor's own number of it, what the participants' commands must agree in (0
for a GSTORE), an error that it carries up, the job's chunk, the first contributor's SAGT. -/
structure Part where
  key : Nat
  vals : List Word
  flg : Byte
  who : Agent
  num : Nat
  sig : Nat
  err : Nat
  chunk : Nat := 0
  sagt : Nat := 0
  deriving DecidableEq, Repr

/-- A round of a group at a router (R357); `sent` once its value has gone to the parent. -/
structure Round where
  group : Nat
  num : Nat
  parts : List Part := []
  sent : Bool := false
  deriving DecidableEq, Repr

/-- A group entry at reset (R356): PAR 0xFF, all else zero. -/
def resetGroupEntry : Vector Word 4 := #v[0x0000FF0000000000, 0, 0, 0]

/-- The group table of a die router or fabric router (R355, R356): the entries that the host has written, as their four words (every
other is `resetGroupEntry`), and the rounds that have not been delivered. -/
structure GroupRouter where
  entries : Tbl (Vector Word 4) := []
  rounds : List Round := []
  bitmap : BitVec 256 := BitVec.allOnes 256
  tviol : BitVec 32 := 0
  deriving DecidableEq, Repr

/-- The configuration of a die's slices (R317): bytes of overflow area, bytes of log area, default limit. -/
structure SliceCfg where
  overflow : Nat := 0x100000
  log : Nat := 0x400000
  lim : Nat := 4
  deriving DecidableEq, Repr

/-- One C-die. -/
structure Die where
  cfg : SliceCfg := {}
  faults : List FaultRec := []
  /-- parked faults whose record is unmade for want of buffer (R397) -/
  unmade : List FaultRec := []
  fqdrop : BitVec 32 := 0
  fqstale : BitVec 32 := 0
  point : Nat := 0
  paused : Bool := false
  /-- cycles that the die's clock did not advance -/
  lostCycles : Nat := 0
  groups : GroupRouter := {}
  refresh : Nat := 0
  /-- the stack's data rate in Gb/s per pin, which the host sets (R322); 0 at reset, DESIGN CHOICE, log 76 -/
  dataRate : Nat := 0
  /-- requests that wait for a stack in self-refresh (R442) -/
  held : List Nat := []
  deriving DecidableEq, Repr

/-- One X-die. -/
structure XDie where
  groups : GroupRouter := {}
  fwd : Tbl (BitVec 128) := []
  meqdrop : BitVec 32 := 0
  fqstale : BitVec 32 := 0
  /-- packets that wait for a port, by packet number -/
  held : List Nat := []
  /-- ports taken in turn by unordered packets, per destination -/
  turn : Tbl Nat := []
  /-- messages received from the agents of other devices (R382) -/
  dedup : Tbl Dedup := []
  deriving DecidableEq, Repr

/-- A Trodon port (R376, R381, R383). -/
structure Port where
  up : Bool := false
  rate : Nat := 0
  /-- the lanes that the host has set (R439), and those that the last training has found at both ends (R376) -/
  lanes : Nat := 2
  width : Nat := 2
  bitmap : BitVec 256 := BitVec.allOnes 256
  /-- requests of this device sent and not acknowledged end to end, oldest first (R380) -/
  sent : List Nat := []
  /-- packets with flits that the link has not acknowledged, oldest first, each with the number of those flits, and resends
  of the first of them (R381) -/
  line : List (Nat × Nat) := []
  resends : Nat := 0
  crcerr : BitVec 32 := 0
  retry : BitVec 32 := 0
  down : BitVec 32 := 0
  resent : BitVec 32 := 0
  dup : BitVec 32 := 0
  tviol : BitVec 32 := 0
  badop : BitVec 32 := 0
  deriving DecidableEq, Repr

/-- A source agent's request numbers (R382). -/
structure SrcAgent where
  next : Nat := 0
  /-- outstanding: sequence number and packet number -/
  out : List (Nat × Nat) := []
  /-- packets that wait for the 64-request window -/
  wait : List Nat := []
  deriving DecidableEq, Repr

/-- Where the dependence of a record stands (R331). -/
inductive Dep where
  | fresh | asked | met
  deriving DecidableEq, Repr

/-- A record in a launch queue. -/
structure QRec where
  launch : LaunchRec
  tenant : Nat
  seq : Nat
  dep : Dep := .fresh
  image : Option (List Word) := none
  placed : Nat := 0
  /-- the order in which it became blocking (R332) -/
  blocking : Option Nat := none
  deriving DecidableEq, Repr

/-- A launch queue (R327, R328). -/
structure LaunchQueue where
  cfg : QueueCfg := ⟨false, 0, 3, 16, 0, 0, 0, 0⟩
  recs : List QRec := []
  seq : Nat := 0
  deriving DecidableEq, Repr

/-- The life of a placed pond. -/
inductive PondState where
  /-- its clusters are reserved and it has not started (R335) -/
  | starting
  | running
  | preempting (fn : Nat) (tag : BitVec 32) (area : Nat)
  | saved (area : Nat)
  /-- the host has resumed it and it waits for a rectangle (R344), or for the caches of one: function, tag, save area -/
  | resuming (fn : Nat) (tag : BitVec 32) (area : Nat)
  | ended
  deriving DecidableEq, Repr

/-- The phase probe of a pond (R268, R375): the starts in order, each a counter's offset, address and window; the token's next crew,
sum and colour while a circuit runs. -/
structure ProbeState where
  starts : List HomeReq := []
  token : Option (Nat × Word × Bool) := none
  deriving DecidableEq, Repr

/-- What stays of a cluster of a saved pond (R340, R341) besides its crew block: TRAPVEC as it is saved there, the probe interface, the spawn pool and limbo
list, and of each core the scoreboard entries of CL jobs, the contributions to groups and the groups of open rounds. -/
structure KeptCluster where
  trapvec : BitVec 32
  probe : ProbeIf
  pool : NetPool
  cores : List (List ScbEntry × Tbl Nat × List Nat × List Nat)
  deriving DecidableEq, Repr

/-- A pond that has been placed (R333 to R336). -/
structure Pond where
  id : BitVec 32
  queue : Nat
  seq : Nat
  tenant : Nat
  gtid : BitVec 32
  asid : Nat
  launch : LaunchRec
  /-- count of pond placements at its first placement (R152) -/
  key : Nat
  col : Nat
  row : Nat
  w : Nat
  h : Nat
  state : PondState := .running
  /-- worker threads that have not exited -/
  live : Nat
  probe : ProbeState := {}
  /-- the record's copy of the constant image until the pond has started (R331) -/
  image : List Word := []
  /-- what is kept of its clusters while it is saved -/
  kept : List KeptCluster := []
  /-- other devices whose homes may hold log entries of the pond (R301) -/
  logDevs : List Nat := []
  /-- a reset of its function has ended it: its end changes no memory (R433) -/
  aborted : Bool := false
  deriving DecidableEq, Repr

/-- A task of the host's task table (R328 TASK.SET, R329). -/
structure TaskEntry where
  asid : Nat
  segtab : Nat
  deriving DecidableEq, Repr

/-- An encryption key (R438). -/
structure Key where
  data : BitVec 256
  tweak : BitVec 256
  deriving DecidableEq, Repr

/-- A completion record (R427). -/
structure Completion where
  opc : Nat
  status : Nat
  fn : Nat
  tag : BitVec 32
  words : List Word := []
  deriving DecidableEq, Repr

/-- A PCI Express function (R424 to R427, R432). -/
structure HostFn where
  ide : Bool := false
  /-- BAR2 window: ASID, base, size -/
  win : Option (Nat × Nat × Nat) := none
  mcq : List (CmdHdr × HostCmd) := []
  mrq : List Completion := []
  /-- completions that wait for room in the queue, oldest first (R426) -/
  mrqWait : List Completion := []
  mcqFull : Bool := false
  /-- a command that completes before the next one starts is at work (R429) -/
  busy : Bool := false
  /-- MSI-X messages raised: vectors 0 to 2 (R426) -/
  msix : Vector Nat 3 := #v[0, 0, 0]
  deriving DecidableEq, Repr

/-- A ring or queue in host-visible memory: its address and its capacity in records or bytes. -/
structure HostRing where
  addr : Nat
  cap : Nat
  deriving DecidableEq, Repr

/-- A live page move (R400, R401). -/
structure Move where
  old : Nat
  new : Nat
  size : Nat
  leaf : Nat
  ctr : Nat
  status : Nat
  fn : Nat
  tag : BitVec 32
  pass : Nat := 0
  dirty : List Nat := []
  final : Bool := false
  finalStart : Nat := 0
  parked : List Nat := []
  deriving DecidableEq, Repr

/-- A shootdown in progress (R395); `move` names the page move it ends. -/
structure Shoot where
  asid : Nat
  va : Nat
  len : Nat
  ctr : Nat
  left : Nat
  fn : Nat
  tag : BitVec 32
  move : Option Nat := none
  deriving DecidableEq, Repr

/-- A core dump at work (R421): what its command names, the time base at its start, the bytes of slots 0 and 1 latched
there. -/
structure DumpState where
  asid : Nat
  va : Nat
  size : Nat
  entry : Nat
  fn : Nat
  tag : BitVec 32
  start : Nat
  latched : List Byte
  deriving DecidableEq, Repr

/-- The chorus (R414 to R417). -/
structure Chorus where
  cfg : Word := 0
  high : BitVec 16 := 0
  lost : BitVec 32 := 0
  ring : Nat := 0
  ringSize : Nat := 0
  deriving DecidableEq, Repr

/-- The root of trust and what boot leaves (R425, R434 to R437). -/
structure BootState where
  bootok : Bool := false
  recovery : Bool := false
  sige : Bool := false
  sigl : Bool := false
  berr : Byte := 0
  svnf : Word := 0
  svn : Nat := 0
  ecdsaFuse : BitVec 384 := 0
  lmsFuse : BitVec 384 := 0
  serial : Word := 0
  meas : Vector (BitVec 384) 8 := Vector.replicate 8 0
  /-- the components that run, with their bytes: the copy hart's and the communication threads' microcode among them, which the host can
  read (R352, R354) -/
  loaded : List (Nat × List Byte) := []
  lmsCount : Nat := 0
  deriving DecidableEq, Repr

/-- The device-wide tables that the host and the scheduler keep. -/
structure Device where
  id : Nat := 0
  asids : Tbl Word := []
  tasks : Tbl TaskEntry := []
  queues : Tbl LaunchQueue := []
  /-- last queue served at each priority (R332) -/
  served : Vector Nat 4 := #v[4095, 4095, 4095, 4095]
  ponds : Tbl Pond := []
  placements : BitVec 36 := 0
  keys : Tbl Key := []
  staged : Tbl (BitVec 256) := []
  /-- zeroed pages with the key of the zeros, newest first: local base, size, key index, key (R431) -/
  zeroed : List (Nat × Nat × Nat × Key) := []
  fns : Tbl HostFn := []
  meq : List FaultRec := []
  fqs : Tbl HostRing := []
  tokens : Tbl FaultTok := []
  moves : Tbl Move := []
  /-- forwarding ranges: old page, new page, size (R401) -/
  forwards : List (Nat × Nat × Nat) := []
  shoots : Tbl Shoot := []
  /-- dumps at work, by core -/
  dumps : Tbl DumpState := []
  /-- the bytes that the host's last read returned (R424, R425) -/
  hostOut : List Byte := []
  dbg : Tbl (Vector Word 8) := []
  chorus : Chorus := {}
  boot : BootState := {}
  hostWidth : Nat := 16
  agents : Tbl SrcAgent := []
  /-- lines of other devices that the scheduler or a walk has read: for whom, line number of the physical address, bytes (R331, R391) -/
  schedLines : List (Nat × Nat × List Byte) := []
  /-- full fences performed (R291) -/
  fences : Nat := 0
  deriving DecidableEq, Repr

end Sys2Proof.Machine
end

