-- ==== Sys2Proof/Machine/State.lean ====
section
/-! DEFINITION. The state of the machine: memory, threads, cores, clusters, slices, dies, the fabric, the device's tables,
messages in flight and the schedule; the reasons for which a step stops; the state after reset. -/

namespace Sys2Proof.Machine

/-- The type tag and the mark of a granule (R168), and whether it is the first granule of its object (R169). -/
structure GranTag where
  ty : Nat := 0
  mark : Bool := false
  first : Bool := false
  deriving DecidableEq, Repr

/-- All memory bytes of the device in one list, by rising key, no byte that reads as an unlisted one. A physical address
is its own key; the TCMs, the scratchpads and the host's memory follow (Ops: `tcmKey`, `spadKey`, `hostKey`). Tags by
granule number, poison by 8-byte word number. Of the SEC-DED code of a word (R322, R324) the model keeps whether it shows an
error that no read has met yet: of one bit, or an uncorrectable one. -/
structure Memory where
  cells : List Host.Cell := []
  tags : Tbl GranTag := []
  poison : List Nat := []
  oneBit : List Nat := []
  lostBits : List Nat := []
  deriving DecidableEq, Repr

/-- The kinds of access that a translation serves (R391) and that a fault record names (R396). -/
inductive AccKind where
  | load | store | fetch | object | reserve | engineRead | engineWrite | writeBack | prefetch | cacheDrop
  | hostRead | hostWrite
  deriving DecidableEq, Repr

/-- A request for memory at its home slice (R316): who waits, the addresses, the bytes of a write, the attributes of the
leaf, the cluster that asks and the TAG of the segment. -/
structure SliceReq where
  who : Agent
  fill : Bool
  write : Option (List Byte) := none
  /-- the bytes of the write that its packet's mask names, bit 0 for the first; none for all (R377) -/
  mask : Option Nat := none
  va : Nat
  pa : Nat
  n : Nat
  asid : Nat
  tenant : Nat := 0
  key : Nat := 0
  ac : Bool := false
  cluster : Nat := 0
  tag : Byte := 0
  /-- an object-space access (R145) -/
  obj : Bool := false
  /-- where the bytes from the n-th on lie, when the access crosses a page: n, physical address, key index (R142) -/
  split : Option (Nat × Nat × Nat) := none
  /-- the bytes of the first page, and the first poisoned address there, when the rest is asked of another home -/
  got : List Byte := []
  bad : Option Nat := none
  /-- a fill that is not to be put into the L1 (R147, R292) -/
  stale : Bool := false
  /-- an acquire of the cluster has passed the fill: the line serves who asked and is dropped then (R147, R292) -/
  passed : Bool := false
  /-- the line goes to the instruction cache (R136) -/
  code : Bool := false
  /-- the bytes of the cluster's L1 that were dirty when the request went to another device's home (R148) -/
  own : List (Option Byte) := []
  deriving DecidableEq, Repr

/-- A write-back in flight (R146): the line, the mask, the bytes, the poison of its words (R324), whose data they are (a copy
job's, else nobody's), who waits for the acknowledgement. -/
structure WriteBack where
  cluster : Nat
  asid : Nat
  tenant : Nat
  gtid : BitVec 32
  va : Nat
  pa : Nat
  key : Nat
  mask : BitVec 128
  data : BitVec 1024
  psn : BitVec 16 := 0
  owner : Agent := .nobody
  waiters : List Agent
  /-- the AC bit of its leaf (R399) -/
  ac : Bool := false
  /-- its address is not known yet: its walk waits for a table (R391, R395) -/
  unsent : Bool := false
  deriving DecidableEq, Repr

/-- A walk in progress (R391, R392): the cluster, the space, the address, the access and who waits. -/
structure Walk where
  cluster : Nat
  asid : Nat
  tenant : Nat
  va : Nat
  kind : AccKind
  who : Agent
  tag : Byte := 0
  deriving DecidableEq, Repr

/-- A contribution to a round on its way to a router (R357): routers 0 to 7 are the dies', 8 and 9 the X-dies'. -/
structure Contribution where
  router : Nat
  group : Nat
  key : Nat
  vals : List Word
  flg : Byte
  who : Agent
  tenant : Nat
  num : Nat
  sig : Nat
  err : Nat := 0
  /-- the chunk of a CL job that it is -/
  chunk : Nat := 0
  /-- SAGT of the first contributor whose value it holds (R377; log 42) -/
  sagt : Nat := 0
  /-- the request of another device that brought it, acknowledged once it has taken effect (R380) -/
  ack : Agent := .nobody
  deriving DecidableEq, Repr

/-- A round's result on its way down the tree (R357, R359). -/
structure Delivery where
  router : Nat
  group : Nat
  num : Nat
  vals : List Word
  flg : Byte
  err : Nat
  tenant : Nat
  /-- the router is on the path to the round's first contributor (R357) -/
  first : Bool := false
  /-- a round of GSTOREs (R359) -/
  store : Bool := false
  sagt : Nat := 0
  ack : Agent := .nobody
  deriving DecidableEq, Repr

/-- A fabric packet that a router of this device keeps (R380, R381): the fabric router, the number of the message that it carries (0 for
none), the port that a group's tree names, and the port by which it last left; 128 for no port. -/
structure Outbound where
  p : FabricPacket
  xd : Nat
  carried : Nat := 0
  named : Nat := 128
  last : Nat := 128
  deriving DecidableEq, Repr

/-- What is in flight. -/
inductive Msg where
  | reply (dst : Agent) (r : Reply)
  | wake (dst : Agent) (r : Reply)
  /-- the end of an agent's wait for acknowledgements -/
  | waitEnd (who : Agent)
  | home (r : HomeReq)
  /-- CNT.ADD requests that a switch combined, in the order of application (R321) -/
  | combined (rs : List HomeReq)
  | slice (r : SliceReq)
  /-- a line on its way to a cluster L1: request, bytes, poisoned words, sealed; stale when an acquire, an UNSEAL or a write of
  the cluster at the home has overtaken it, so that it is not put into the L1 (R147, R155, R292) -/
  | fill (r : SliceReq) (data : BitVec 1024) (psn : BitVec 16) (sealedLine stale : Bool)
  | wb (w : WriteBack)
  | walk (w : Walk)
  | append (e : LogEntry) (who : Agent)
  /-- an append's acknowledgement on its way to its thread's cluster (R152, R364) -/
  | appended (e : LogEntry) (tid : Nat)
  | tadpole (tid core : Nat)
  | net (m : NetMsg) (core : Nat)
  | remote (r : Remote)
  /-- a check of R273 or a push of R275: node offsets, addresses, s4 window, the pond's issuing cluster, the PP check -/
  | pairCheck (u v : Nat) (r : HomeReq) (check : Bool)
  | contribution (c : Contribution)
  | delivery (d : Delivery)
  | torus (p : Pkt)
  /-- the refusal of a message on its way back to the sender's interface (R373) -/
  | refusal (i : Nat)
  /-- a probe token on its way to a crew (R375) -/
  | token (pond crew : Nat)
  /-- a fabric packet that its source keeps -/
  | fabric (x : Outbound)
  deriving DecidableEq, Repr

/-- What the agenda holds: a happening, or the end of a thread's wait. -/
inductive Happen where
  | ev (e : Event)
  | resume (tid : Nat)
  deriving DecidableEq, Repr

/-- Latencies in cycles, which the spec leaves open but for the eft's 8 (R318) and the copy hart's 2 (R353): to a slice,
to the eft, an HBM access, a walk, a line of instructions, a torus hop, a router link, a fabric link, the host link. -/
structure Lat where
  slice : Nat := 40
  eft : Nat := 8
  hbm : Nat := 100
  walk : Nat := 60
  iline : Nat := 40
  hop : Nat := 1
  link : Nat := 20
  fabric : Nat := 500
  host : Nat := 200
  deriving DecidableEq, Repr

/-- The schedule and the numbers that the model gives out. -/
structure Ctl where
  cycle : Nat := 0
  agenda : List (Nat × Happen) := []
  /-- cores whose slot of this cycle has not yet issued -/
  turns : List Nat := []
  /-- the thread whose instruction runs -/
  acting : Nat := 0
  /-- the happening that is taken -/
  ev : Event := ⟨.mrq, 0, 0, 0, .none⟩
  /-- the acting thread executes again a word that it waited in -/
  retry : Bool := false
  /-- members that execute this word in lockstep (R37) -/
  lock : List Nat := []
  /-- lowest cause that the running instruction raises after its effect, with its address (R403) -/
  after : Option (Nat × Nat) := none
  /-- a walk of the happening that is taken has met an entry at this address that it must wait for, for this tenant and near this
  cluster (R391) -/
  need : Option (Nat × Nat × Nat) := none
  lat : Lat := {}
  nextTid : Nat := 32768
  nextMsg : Nat := 1
  nextJob : Nat := 1
  nextTok : Nat := 1
  nextPond : Nat := 1
  nextId : Nat := 1
  deriving DecidableEq, Repr

/-- The state of the machine. -/
structure State where
  ctl : Ctl := {}
  mem : Memory := {}
  threads : Tbl Thread := []
  cores : Tbl Core := []
  clusters : Tbl Cluster := []
  slices : Tbl Slice := []
  dies : Tbl Die := []
  xdies : Tbl XDie := []
  ports : Tbl Port := []
  dev : Device := {}
  jobs : Tbl Job := []
  msgs : Tbl Msg := []
  /-- the image in the module's flash (R435) -/
  flash : Option BootImage := none
  deriving DecidableEq, Repr

/-- The faults of the model. -/
inductive Fault where
  /-- Raised by a happening's row when the event latch names nothing that the row could act on. No run from reset
  reaches such a state. Safe. -/
  | noSuchHappening
  deriving DecidableEq, Repr

/-- The refusals of the model. -/
inductive Refusal where
  /-- Raised by an arm of `exec` that has no meaning yet, with the row's mnemonic. Safe. -/
  | notModelled (mnemonic : String)
  deriving DecidableEq, Repr

/-- The machine right after reset: every table at its defaults, nothing listed in memory, the boot ROM about to run
(R434, R435). -/
def State.reset : State := { ctl := { agenda := [(0, .ev ⟨.boot, 0, 0, 0, .none⟩)] } }

end Sys2Proof.Machine
end

