-- ==== Sys2Proof/Machine/Bits.lean ====
section
/-! DEFINITION. Bit-field, byte-order and table helpers, the memory's reads and writes, and the fields of the status word
(R14), the remote-access word and the trap word (R29). -/

namespace Sys2Proof.Machine

/-- Bits `lo` up, `n` of them, of a number. -/
def field (w lo n : Nat) : Nat := w / 2 ^ lo % 2 ^ n

/-- Bit `i` of a number. -/
def bit (w i : Nat) : Bool := w / 2 ^ i % 2 == 1

/-- One or zero. -/
def b2n (b : Bool) : Nat := if b then 1 else 0

/-- The word with its bits `lo` up, `n` of them, replaced. -/
def putField (w : Word) (lo n v : Nat) : Word :=
  (w &&& ~~~(BitVec.ofNat 64 ((2 ^ n - 1) * 2 ^ lo))) ||| BitVec.ofNat 64 (v % 2 ^ n * 2 ^ lo)

/-- A number read as two's complement of `n` bits. -/
def signed (n v : Nat) : Int :=
  if v % 2 ^ n < 2 ^ (n - 1) then (v % 2 ^ n : Nat) else ((v % 2 ^ n : Nat) : Int) - (2 ^ n : Nat)

/-- An integer modulo 2^n, as a number. -/
def wrapInt (n : Nat) (i : Int) : Nat := (i % ((2 ^ n : Nat) : Int)).toNat

/-- A number of `n` bits sign-extended to a word. -/
def sextWord (n v : Nat) : Word := BitVec.ofInt 64 (signed n v)

/-- The number of little-endian bytes (R3). -/
def leNat : List Byte → Nat
  | [] => 0
  | b :: t => b.toNat + 256 * leNat t

/-- `n` little-endian bytes of a number (R3). -/
def leBytes : Nat → Nat → List Byte
  | 0, _ => []
  | n + 1, v => BitVec.ofNat 8 v :: leBytes n (v / 256)

/-- The words of a list of bytes, eight by eight. -/
def wordsOf (n : Nat) (bs : List Byte) : List Word :=
  match n with
  | 0 => []
  | n + 1 => BitVec.ofNat 64 (leNat (bs.take 8)) :: wordsOf n (bs.drop 8)

/-- The bytes of words. -/
def bytesOf (ws : List Word) : List Byte := ws.flatMap fun w => leBytes 8 w.toNat

/-- The word at a place of a list, 0 beyond its end. -/
def wordAt (ws : List Word) (i : Nat) : Word := ws.getD i 0

/-- A counter of 32 bits that saturates (R326, R383). -/
def sat32 (c : BitVec 32) : BitVec 32 := if c.toNat < 0xFFFFFFFF then c + 1 else c

/-- The same, counted up by `n`. -/
def satAdd (c : BitVec 32) (n : Nat) : BitVec 32 := BitVec.ofNat 32 (min (c.toNat + n) 0xFFFFFFFF)

/-- The least place, up to `n`, at which a test holds. -/
def firstBelow (p : Nat → Bool) : Nat → Nat → Option Nat
  | 0, _ => none
  | fuel + 1, i => if p i then some i else firstBelow p fuel (i + 1)

/-! ## Memory -/

/-- What an unlisted byte reads as: 0. DESIGN CHOICE, unsafe: log 1. -/
def unlisted : Byte := 0

/-- The byte at a key in a list of cells. -/
def cellRead : List Host.Cell → Nat → Byte
  | [], _ => unlisted
  | (k, v) :: t, a => if a = k then v else cellRead t a

/-- The list with a cell put in its place. -/
def cellPut : List Host.Cell → Nat → Byte → List Host.Cell
  | [], a, b => [(a, b)]
  | (k, v) :: t, a, b =>
    if a = k then (a, b) :: t else if a < k then (a, b) :: (k, v) :: t else (k, v) :: cellPut t a b

/-- The list with a byte written, in its one form. -/
def cellWrite (c : List Host.Cell) (a : Nat) (b : Byte) : List Host.Cell :=
  if b = unlisted then c.filter fun x => x.1 != a else cellPut c a b

/-- Keys rise strictly from above `lo`, and no byte is the unlisted one. -/
def cellsWf : Option Nat → List Host.Cell → Bool
  | _, [] => true
  | none, (k, v) :: t => v != unlisted && cellsWf (some k) t
  | some lo, (k, v) :: t => decide (lo < k) && v != unlisted && cellsWf (some k) t

/-- The memory has its one form. -/
def Memory.wf (m : Memory) : Bool := cellsWf none m.cells

/-- The byte at a key. -/
def Memory.readByte (m : Memory) (a : Nat) : Byte := cellRead m.cells a

/-- The memory with a byte written. -/
def Memory.writeByte (m : Memory) (a : Nat) (b : Byte) : Memory := { m with cells := cellWrite m.cells a b }

/-- `n` bytes from a key up. -/
def Memory.read (m : Memory) (a : Nat) : Nat → List Byte
  | 0 => []
  | n + 1 => m.readByte a :: Memory.read m (a + 1) n

/-- The memory with bytes written from a key up. -/
def Memory.write (m : Memory) (a : Nat) : List Byte → Memory
  | [] => m
  | b :: t => Memory.write (m.writeByte a b) (a + 1) t

/-- The memory with the bytes written whose mask bit is set; bit 0 of the mask belongs to the first byte. -/
def Memory.writeMasked (m : Memory) (a mask : Nat) : List Byte → Memory
  | [] => m
  | b :: t =>
    Memory.writeMasked (if mask % 2 = 1 then m.writeByte a b else m) (a + 1) (mask / 2) t

/-- The memory with `n` bytes from a key set to zero, all at once. -/
def Memory.zero (m : Memory) (a n : Nat) : Memory :=
  { m with cells := m.cells.filter fun c => c.1 < a || a + n ≤ c.1 }

/-- The tag of the granule of an address (R168). -/
def Memory.tag (m : Memory) (a : Nat) : GranTag := m.tags.get {} (a / 16)

/-- The memory with the tag of a granule set; the default tag is not listed. -/
def Memory.setTag (m : Memory) (a : Nat) (t : GranTag) : Memory :=
  { m with tags := if t = {} then m.tags.erase (a / 16) else m.tags.set (a / 16) t }

/-- The 8-byte word of an address is poisoned (R143). -/
def Memory.poisoned (m : Memory) (a : Nat) : Bool := m.poison.contains (a / 8)

/-- The memory with the poison of an address's word set or cleared. -/
def Memory.setPoison (m : Memory) (a : Nat) (p : Bool) : Memory :=
  let rest := m.poison.filter (· != a / 8)
  { m with poison := if p then (a / 8) :: rest else rest }

/-- The memory with the poison of every word that lies whole in a range cleared: a plain store of all eight bytes
(R143). -/
def Memory.clearPoison (m : Memory) (a n : Nat) : Memory :=
  let out (p : Nat) : Bool := 8 * p < a || a + n < 8 * p + 8
  { m with poison := m.poison.filter out, oneBit := m.oneBit.filter out, lostBits := m.lostBits.filter out }

/-- A word of some range is poisoned; the first such address from `a` up. -/
def Memory.firstPoison (m : Memory) (a n : Nat) : Option Nat :=
  (firstBelow (fun i => m.poisoned (8 * (a / 8) + 8 * i)) ((a + n + 7) / 8 - a / 8) 0).map fun i =>
    if 8 * (a / 8) + 8 * i < a then a else 8 * (a / 8) + 8 * i

/-- The bytes of a range with zero for each byte of a poisoned word (R143). -/
def Memory.readClean (m : Memory) (a : Nat) : Nat → List Byte
  | 0 => []
  | n + 1 => (if m.poisoned a then 0 else m.readByte a) :: Memory.readClean m (a + 1) n

/-- What a read of a range finds in the SEC-DED codes of its words (R324): errors of one bit are corrected, uncorrectable ones
become poison; how many of each. -/
def Memory.scan (m : Memory) (a n : Nat) : Memory × Nat × Nat :=
  if m.oneBit.isEmpty && m.lostBits.isEmpty then (m, 0, 0)
  else
    let here (w : Nat) : Bool := decide (a / 8 ≤ w) && decide (8 * w < a + n)
    let lost := m.lostBits.filter here
    ({ m with
        oneBit := m.oneBit.filter fun w => !here w, lostBits := m.lostBits.filter fun w => !here w,
        poison := lost ++ m.poison.filter fun w => !lost.contains w },
      (m.oneBit.filter here).length, lost.length)

/-- Memory key of a TCM byte. -/
def tcmKey (core off : Nat) : Nat := 2 ^ 60 + core * 2 ^ 15 + off

/-- Memory key of a scratchpad byte. -/
def spadKey (cluster off : Nat) : Nat := 2 ^ 61 + cluster * 2 ^ 19 + off

/-- Memory key of a byte of host memory. -/
def hostKey (a : Nat) : Nat := 2 ^ 62 + a

/-! ## The status word (R14) -/

/-- Predicate `n` of a status word. -/
def pswPred (w : Word) (n : Nat) : Bool := n == 0 || bit w.toNat n

/-- The status word with predicate `n` written; p0 ignores writes. -/
def pswSetPred (w : Word) (n : Nat) (b : Bool) : Word :=
  if n = 0 ∨ 15 < n then w else putField w n 1 (b2n b)

/-- FRM. -/
def pswFrm (w : Word) : Nat := field w.toNat 16 3
/-- QRM. -/
def pswQrm (w : Word) : Nat := field w.toNat 19 2
/-- RQ. -/
def pswRq (w : Word) : Bool := bit w.toNat 21
/-- OTE. -/
def pswOte (w : Word) : Bool := bit w.toNat 32
/-- MTE. -/
def pswMte (w : Word) : Bool := bit w.toNat 33
/-- LVL. -/
def pswLvl (w : Word) : Nat := field w.toNat 36 2
/-- GSZ. -/
def pswGsz (w : Word) : Nat := field w.toNat 38 2
/-- GLEAD. -/
def pswGlead (w : Word) : Bool := bit w.toNat 40
/-- SLOT. -/
def pswSlot (w : Word) : Nat := field w.toNat 41 3

/-- Sticky flags by their bit of STATUS[31:24] (R14): NV 1, DZ 2, OF 4, UF 8, NX 16, ZD 32, MERR 64, SAT 128. -/
def pswOrFlags (w : Word) (f : Byte) : Word := w ||| BitVec.ofNat 64 (f.toNat * 2 ^ 24)

/-- What a write to STATUS stores (R16). -/
def pswWrite (old v : Word) : Word :=
  let frm := pswFrm v
  let v := if 4 < frm then putField v 16 3 0 else v
  let mask : Word := 0x00000003FF3FFFFE
  (old &&& ~~~mask) ||| (v &&& mask)

/-- The status word without its reserved bits (R30). -/
def pswClean (w : Word) : Word := (w &&& 0x00000FF3FF3FFFFE) ||| 1

end Sys2Proof.Machine
end

