-- ==== Sys2Proof/Machine/Base.lean ====
section
/-! DEFINITION. The operations under all others: how an instruction ends, tables of the state, places, the schedule, records for
the host, trace and debug records, translation. -/

namespace Sys2Proof.Machine

/-- How an instruction can end other than by completing. -/
inductive Exit where
  /-- no effect; the thread issues it again at its next issue cycle (R12, R308) -/
  | replay
  /-- a precise trap with its address (R402) -/
  | trap (c addr : Nat)
  /-- no effect but `f`; the thread leaves the rotation and executes the word again when its wait ends; `second` when a
  release of the word has been started -/
  | wait (second : Bool) (why : Why) (f : State → State)
  /-- the thread leaves the rotation in this state -/
  | leave (s : State)

/-- An instruction's effect: it goes on with a value and a state, or ends otherwise. -/
abbrev M := StateT State (Except Exit)

/-! ## Tables -/

/-- A thread as it stands before anything has been written for it: the threads of slots 0 and 1 have the numbers
2 × core + slot (R39, R14, R18); log 5. -/
def Thread.initial (tid : Nat) : Thread :=
  if tid < 32768 then
    { ctx := { psw := BitVec.ofNat 64 (1 + 2 * 2 ^ 36 + (tid % 2) * 2 ^ 41), gtid := 0x00FFFFFF },
      core := tid / 2, slot := some (tid % 2) }
  else {}

/-- A core before anything has been written for it: slots 0 and 1 hold their own threads (R40). -/
def Core.initial (c : Nat) : Core :=
  { slots := #v[.held (2 * c), .held (2 * c + 1), .empty, .empty, .empty, .empty, .empty, .empty] }

def State.thread (s : State) (tid : Nat) : Thread := (s.threads.find tid).getD (Thread.initial tid)
def State.setThread (s : State) (tid : Nat) (t : Thread) : State := { s with threads := s.threads.set tid t }
def State.updThread (s : State) (tid : Nat) (f : Thread → Thread) : State := s.setThread tid (f (s.thread tid))
def State.core (s : State) (c : Nat) : Core := (s.cores.find c).getD (Core.initial c)
def State.setCore (s : State) (c : Nat) (x : Core) : State := { s with cores := s.cores.set c x }
def State.updCore (s : State) (c : Nat) (f : Core → Core) : State := s.setCore c (f (s.core c))
def State.cluster (s : State) (c : Nat) : Cluster := s.clusters.get {} c
def State.setCluster (s : State) (c : Nat) (x : Cluster) : State := { s with clusters := s.clusters.set c x }
def State.updCluster (s : State) (c : Nat) (f : Cluster → Cluster) : State := s.setCluster c (f (s.cluster c))
def State.slice (s : State) (c : Nat) : Slice := s.slices.get {} c
def State.updSlice (s : State) (c : Nat) (f : Slice → Slice) : State :=
  { s with slices := s.slices.set c (f (s.slice c)) }
def State.die (s : State) (d : Nat) : Die := s.dies.get {} d
def State.updDie (s : State) (d : Nat) (f : Die → Die) : State := { s with dies := s.dies.set d (f (s.die d)) }
def State.xdie (s : State) (d : Nat) : XDie := s.xdies.get {} d
def State.updXdie (s : State) (d : Nat) (f : XDie → XDie) : State := { s with xdies := s.xdies.set d (f (s.xdie d)) }
def State.port (s : State) (p : Nat) : Port := s.ports.get {} p
def State.updPort (s : State) (p : Nat) (f : Port → Port) : State := { s with ports := s.ports.set p (f (s.port p)) }
def State.pond (s : State) (p : Nat) : Option Pond := s.dev.ponds.find p
def State.updPond (s : State) (p : Nat) (f : Pond → Pond) : State :=
  match s.dev.ponds.find p with
  | some x => { s with dev := { s.dev with ponds := s.dev.ponds.set p (f x) } }
  | none => s
def State.job (s : State) (j : Nat) : Option Job := s.jobs.find j
def State.updJob (s : State) (j : Nat) (f : Job → Job) : State :=
  match s.jobs.find j with
  | some x => { s with jobs := s.jobs.set j (f x) }
  | none => s
def State.updDev (s : State) (f : Device → Device) : State := { s with dev := f s.dev }
def State.updCtl (s : State) (f : Ctl → Ctl) : State := { s with ctl := f s.ctl }
def State.fn (s : State) (n : Nat) : HostFn := s.dev.fns.get {} n
def State.updFn (s : State) (n : Nat) (f : HostFn → HostFn) : State :=
  s.updDev fun d => { d with fns := d.fns.set n (f (d.fns.get {} n)) }
def State.queue (s : State) (n : Nat) : LaunchQueue := s.dev.queues.get {} n
def State.updQueue (s : State) (n : Nat) (f : LaunchQueue → LaunchQueue) : State :=
  s.updDev fun d => { d with queues := d.queues.set n (f (d.queues.get {} n)) }

/-- The thread whose instruction runs. -/
def State.me (s : State) : Thread := s.thread s.ctl.acting
/-- Its update. -/
def State.updMe (s : State) (f : Thread → Thread) : State := s.updThread s.ctl.acting f
/-- The cluster of the acting thread. -/
def State.myCluster (s : State) : Nat := s.me.core / 8
/-- The acting thread is a core's slot 0. -/
def State.isSlot0 (s : State) : Bool := decide (s.ctl.acting < 32768) && s.ctl.acting % 2 == 0
/-- The acting thread is a core's slot 1. -/
def State.isSlot1 (s : State) : Bool := decide (s.ctl.acting < 32768) && s.ctl.acting % 2 == 1

/-- Thread numbers that are in use. -/
def State.tids (s : State) : List Nat := s.threads.keys

/-! ## Places (R27) -/

/-- Torus column of a cluster. -/
def clusterCol (c : Nat) : Nat := 16 * (c / 256 % 4) + c % 16
/-- Torus row of a cluster. -/
def clusterRow (c : Nat) : Nat := 16 * (c / 1024) + c % 256 / 16
/-- The cluster at a torus column and row. -/
def clusterAt (col row : Nat) : Nat := 256 * (col / 16 + 4 * (row / 16)) + 16 * (row % 16) + col % 16
/-- The slice of a local address, numbered in the device (R315). -/
def sliceOf (pa : Nat) : Nat := 256 * field pa 36 3 + Nat.xor (field pa 8 8) (field pa 16 8)
/-- The device ID of a physical address (R315). -/
def devOf (pa : Nat) : Nat := field pa 40 12
/-- The local part of a physical address. -/
def localOf (pa : Nat) : Nat := pa % 2 ^ 40
/-- A physical address is homed on this device (R432). -/
def State.isLocal (s : State) (pa : Nat) : Bool := devOf pa == s.dev.id

/-- A local address through the forwarding of moved pages (R401), the oldest move first: a page that moves again is forwarded twice. -/
def forwarded (a : Nat) : List (Nat × Nat × Nat) → Nat
  | [] => a
  | f :: t =>
    let b := forwarded a t
    if localOf f.1 ≤ b ∧ b < localOf f.1 + f.2.2 then b - localOf f.1 + localOf f.2.1 else b

/-- The memory key of a physical address (R401). -/
def State.key (s : State) (pa : Nat) : Nat := forwarded (localOf pa) s.dev.forwards

/-- The clusters of a pond's rectangle in crew-number order (R334). -/
def Pond.clusters (p : Pond) : List Nat :=
  (List.range (p.w * p.h)).map fun n => clusterAt (p.col + n % p.w) (p.row + n / p.w)

/-- A pond is a saved one. -/
def Pond.isSaved (p : Pond) : Bool := match p.state with | .saved _ | .resuming _ _ _ => true | _ => false
/-- A pond has ended. -/
def Pond.isEnded (p : Pond) : Bool := match p.state with | .ended => true | _ => false

/-- It has started and not ended (R335, R336). -/
def Pond.isLive (p : Pond) : Bool := match p.state with | .starting | .ended => false | _ => true

/-- The crew of a cluster, its scratchpad size, ASID and tenant; zero without a crew (R22, R386). -/
def State.spadSize (s : State) (cl : Nat) : Nat := match (s.cluster cl).crew with | some c => c.s | none => 0
def State.asidOf (s : State) (cl : Nat) : Nat := match (s.cluster cl).crew with | some c => c.asid | none => 0
def State.tenantOf (s : State) (cl : Nat) : Nat := match (s.cluster cl).crew with | some c => c.tenant | none => 0

/-- The tenant of a task identifier (R18). -/
def tenantOfGtid (g : BitVec 32) : Nat := g.toNat / 2 ^ 24

/-- The task on whose behalf a thread runs: that of its cluster's crew for slots 0 and 1, which carry another GTID (R18, R266, R412). -/
def State.servedTask (s : State) (tid : Nat) : BitVec 32 :=
  if tid < 32768 then
    match (s.cluster ((s.thread tid).core / 8)).crew with
    | some c => c.gtid
    | none => (s.thread tid).ctx.gtid
  else (s.thread tid).ctx.gtid

/-- GTID as a thread shows it: slot 0's TENANT is that of the header it last sent or serviced (R18). -/
def State.gtidOf (s : State) (tid : Nat) : BitVec 32 :=
  if tid < 32768 && tid % 2 == 0 then BitVec.ofNat 32 ((s.core (tid / 2)).net.ten * 2 ^ 24 + 0xFFFFFF) else (s.thread tid).ctx.gtid

/-! ## Message headers (R263) -/

/-- LEN of a message header (R263). -/
def hdrLen (h : Word) : Nat := field h.toNat 32 4
/-- KIND of a message header. -/
def hdrKind (h : Word) : Nat := field h.toNat 36 2
/-- DCORE of a message header. -/
def hdrCore (h : Word) : Nat := field h.toNat 38 14
/-- DDEV of a message header. -/
def hdrDev (h : Word) : Nat := field h.toNat 52 12
/-- TEN of a message header. -/
def hdrTen (h : Word) : Nat := field h.toNat 24 8
/-- HND of a message header. -/
def hdrHnd (h : Word) : Nat := field h.toNat 16 8

/-! ## The schedule -/

/-- A list with an entry put behind every entry that is due no later. -/
def insertDue (d : Nat) (h : Happen) : List (Nat × Happen) → List (Nat × Happen)
  | [] => [(d, h)]
  | (e, k) :: t => if e ≤ d then (e, k) :: insertDue d h t else (d, h) :: (e, k) :: t

/-- A happening due at a cycle. -/
def State.at (s : State) (due : Nat) (h : Happen) : State :=
  s.updCtl fun c => { c with agenda := insertDue due h c.agenda }

/-- An event due `n` cycles from now. -/
def State.later (s : State) (n : Nat) (k : EvKind) (a b c : Nat) : State :=
  s.at (s.ctl.cycle + n) (.ev ⟨k, a, b, c, .none⟩)

/-- An event of this kind and first operand is on the agenda. -/
def State.scheduled (s : State) (k : EvKind) (a : Nat) : Bool :=
  s.ctl.agenda.any fun x => match x.2 with | .ev e => e.kind == k && e.a == a | .resume _ => false

/-- The agenda without the events of a kind and first operand. -/
def State.unschedule (s : State) (k : EvKind) (a : Nat) : State :=
  s.updCtl fun c => { c with agenda := c.agenda.filter fun x =>
    match x.2 with | .ev e => !(e.kind == k && e.a == a) | .resume _ => true }

/-- A message put in flight. -/
def State.addMsg (s : State) (m : Msg) : State :=
  { s with msgs := s.msgs.set s.ctl.nextMsg m, ctl := { s.ctl with nextMsg := s.ctl.nextMsg + 1 } }

/-- A message put in flight that a row of this kind takes up `n` cycles from now. -/
def State.post (s : State) (n : Nat) (k : EvKind) (m : Msg) : State :=
  (s.addMsg m).later n k s.ctl.nextMsg 0 0

/-- The message is no longer in flight. -/
def State.dropMsg (s : State) (i : Nat) : State := { s with msgs := s.msgs.erase i }

/-- The end of a thread's wait, now; at most one such end stands in the agenda. -/
def State.resumeNow (s : State) (tid : Nat) : State :=
  if s.ctl.agenda.any fun x => match x.2 with | .resume i => i == tid | .ev _ => false then s
  else s.at s.ctl.cycle (.resume tid)

/-- A packet that carries a message put into a torus router's local input (R364). -/
def State.inject (s : State) (src dst vc flits tenant carried : Nat) : State :=
  let i := s.ctl.nextMsg
  (s.addMsg (.torus { vc := vc, flits := flits, tenant := tenant, src := src, dst := dst, msg := carried })).later
    0 .packetArrival src i 0

/-! ## Records for the host (R396, R397, R426) -/

/-- The eight words of a record. -/
def FaultRec.words (r : FaultRec) : List Word :=
  [BitVec.ofNat 64 (r.cause * 2 ^ 56 + r.kind * 2 ^ 52 + r.acc * 2 ^ 48 + r.asid % 2 ^ 13 * 2 ^ 32 + r.gtid.toNat),
   BitVec.ofNat 64 (r.rank.toNat * 2 ^ 32 + r.pc % 2 ^ 32),
   BitVec.ofNat 64 (r.addr % 2 ^ 57),
   BitVec.ofNat 64 (r.word.toNat * 2 ^ 32 + r.core % 2 ^ 14 * 2 ^ 18),
   BitVec.ofNat 64 r.token, r.info5, r.info6, 0]

/-- The number of records in a queue of host memory; its header word holds TAIL and HEAD as a bounded queue's does
(R175, R396); log 8. -/
def State.ringUsed (s : State) (q : HostRing) : Nat :=
  let w := leNat (s.mem.read (hostKey q.addr) 8)
  (w / 2 ^ 32 + 2 ^ 32 - w % 2 ^ 32) % 2 ^ 32

/-- A 64-byte record put into a queue of host memory that has room. -/
def State.ringPut (s : State) (q : HostRing) (ws : List Word) : State :=
  let w := leNat (s.mem.read (hostKey q.addr) 8)
  let tail := w / 2 ^ 32
  let m := s.mem.write (hostKey (q.addr + 64 + 64 * (tail % q.cap))) (bytesOf (ws.take 8))
  { s with mem := m.write (hostKey q.addr) (leBytes 8 ((tail + 1) % 2 ^ 32 * 2 ^ 32 + w % 2 ^ 32)) }

/-- A queue of a function has become non-empty: its MSI-X vector is raised (R426). -/
def State.raiseMsix (s : State) (fn vec : Nat) : State :=
  s.updFn fn fun f => { f with msix := f.msix.setIfInBounds vec (f.msix.toList.getD vec 0 + 1) }

/-- A record put into its tenant's fault queue, if the host placed one and it has room. -/
def State.putFault (s : State) (r : FaultRec) : Option State :=
  match s.dev.fqs.find r.tenant with
  | some q =>
    if s.ringUsed q < q.cap then
      some ((if s.ringUsed q = 0 then s.raiseMsix r.tenant 2 else s).ringPut q r.words)
    else none
  | none => none

/-- The die on which a record is made. -/
def FaultRec.die (r : FaultRec) : Nat := r.core / 2048 % 8

/-- A record made at a die's MMU (R397): it goes to the fault queue, or waits in the buffer of 256; beyond that an
information record is dropped and counted, and a parking fault's record stays unmade. -/
def State.postRec (s : State) (r : FaultRec) : State :=
  let d := s.die r.die
  let s' := if d.faults.isEmpty then s.putFault r else none
  match s' with
  | some s' => s'
  | none =>
    let s := if s.scheduled .faultRecordDeferred r.die then s
      else s.later s.ctl.lat.host .faultRecordDeferred r.die 0 0
    if d.faults.length < 256 then s.updDie r.die fun d => { d with faults := d.faults ++ [r] }
    else if r.kind < 4 then s.updDie r.die fun d => { d with unmade := d.unmade ++ [r] }
    else s.updDie r.die fun d => { d with fqdrop := sat32 d.fqdrop }

/-- A record put into the event queue of the PF, or dropped and counted when 256 stand there (R426). -/
def State.postMeq (s : State) (r : FaultRec) : State :=
  if s.dev.meq.length < 256 then
    (if s.dev.meq.isEmpty then s.raiseMsix 0 1 else s).updDev fun d => { d with meq := d.meq ++ [r] }
  else s.updXdie 0 fun x => { x with meqdrop := sat32 x.meqdrop }

/-! ## Trace and debug records (R412, R418) -/

/-- A record of a cluster's trace buffer, preceded by a lost record when records were dropped (R418); none is made while
a gating drains it (R420). -/
def State.traceRec (s : State) (cl : Nat) (kind : Nat) (ws : List Word) : State :=
  let t := (s.cluster cl).trace
  let mk (k : Nat) (ws : List Word) : Vector Word 8 :=
    #v[BitVec.ofNat 64 (k * 2 ^ 60 + s.ctl.cycle % 2 ^ 48), wordAt ws 0, wordAt ws 1, wordAt ws 2, wordAt ws 3,
      wordAt ws 4, wordAt ws 5, wordAt ws 6]
  let recs := if t.lost = 0 then [mk kind ws] else [mk 3 [BitVec.ofNat 64 (t.lost * 2 ^ 32)], mk kind ws]
  let s' := s.updCluster cl fun c =>
    if t.gating.isSome then { c with trace := { t with dropped := t.dropped + 1 } }
    else if 256 < t.recs.length + recs.length then { c with trace := { t with lost := t.lost + 1 } }
    else { c with trace := { t with recs := t.recs ++ recs, lost := 0, draining := true } }
  if t.gating.isSome || t.draining || t.ringSize == 0 then s' else s'.later 8 .traceDrain cl 0 0

/-- The live debug entry of a task: its index and words (R410). -/
def State.debugEntry (s : State) (g : BitVec 32) : Option (Nat × Vector Word 8) :=
  s.dev.dbg.find? fun e => bit e.2[0].toNat 63 && field e.2[0].toNat 0 32 == g.toNat

/-- A breakpoint of a word of two: enabled at this offset. -/
def bpHit (w : Word) (pc : Nat) : Bool :=
  (bit w.toNat 0 && field w.toNat 2 30 == pc / 4) || (bit w.toNat 32 && field w.toNat 34 30 == pc / 4)

/-- An enabled breakpoint of the task stands at the offset (R412). -/
def State.breakpoint (s : State) (g : BitVec 32) (pc : Nat) : Bool :=
  match s.debugEntry g with
  | some (_, e) => bpHit e[1] pc || bpHit e[2] pc
  | none => false

/-- A watchpoint word covers an access: direction 1 stores, 2 loads, 3 both (R410). -/
def wpHit (w : Word) (va n dir : Nat) : Bool :=
  let sz := field w.toNat 60 4
  let base := field w.toNat 0 57 / 2 ^ sz * 2 ^ sz
  (Nat.land (field w.toNat 58 2) dir != 0) && decide (va < base + 2 ^ sz) && decide (base < va + n)

/-- A watchpoint of the task matches an access (R412). -/
def State.watchpoint (s : State) (g : BitVec 32) (va n dir : Nat) : Bool :=
  match s.debugEntry g with
  | some (_, e) => wpHit e[3] va n dir || wpHit e[4] va n dir || wpHit e[5] va n dir || wpHit e[6] va n dir
  | none => false

/-- A breakpoint hit (`bp`) or a watchpoint hit counted in the task's entry (R413). -/
def State.countHit (s : State) (g : BitVec 32) (bp : Bool) : State :=
  match s.debugEntry g with
  | some (i, e) =>
    let w := e[7].toNat
    let w := if bp then (if w / 2 ^ 32 < 2 ^ 32 - 1 then w + 2 ^ 32 else w)
      else (if w % 2 ^ 32 < 2 ^ 32 - 1 then w + 1 else w)
    s.updDev fun d => { d with dbg := d.dbg.set i (e.set 7 (BitVec.ofNat 64 w)) }
  | none => s

/-! ## Translation (R384 to R394) -/

/-- The number of offset bits of a leaf at a level (R388). -/
def leafBits (lvl : Nat) : Nat := if lvl = 2 then 30 else if lvl = 3 then 21 else 16

/-- The index of a level (R388). -/
def walkIndex (va lvl : Nat) : Nat :=
  match lvl with
  | 0 => field va 48 9
  | 1 => field va 39 9
  | 2 => field va 30 9
  | 3 => field va 21 9
  | _ => field va 16 5

/-- The rights that an access needs of a leaf (R391). -/
def AccKind.allowed (k : AccKind) (r w x : Bool) : Bool :=
  match k with
  | .load | .engineRead | .prefetch | .hostRead => r
  | .store | .engineWrite | .writeBack | .cacheDrop | .hostWrite => w
  | .fetch => x
  | .object | .reserve => r && w

/-- The ACC code of a fault record (R396). -/
def AccKind.code : AccKind → Nat
  | .load | .prefetch | .hostRead => 0
  | .store | .cacheDrop | .hostWrite => 1
  | .fetch => 2
  | .object => 3
  | .reserve => 4
  | .engineRead => 5
  | .engineWrite => 6
  | .writeBack => 7

/-- A table entry is malformed at its level (R389 to R391). -/
def badEntry (p lvl : Nat) : Bool :=
  let leaf := bit p 62
  if leaf then
    field p 52 6 != 0 || field p 0 8 != 0 || decide (lvl < 2) ||
      field p 16 (leafBits lvl - 16) != 0 || bit p 39
  else
    field p 52 10 != 0 || field p 0 8 != 0 || decide (lvl = 4) || (decide (lvl < 3) && field p 8 4 != 0) || bit p 39

/-- An entry of a page table as its home holds it (R391): one on another device as that has sent its line for the walk `who`, and none
while it has not; none while its stack is in self-refresh (R442) or its die pauses (R440). -/
def State.walkEntry (s : State) (who pa : Nat) : Option Nat :=
  if s.isLocal pa then
    let d := s.die (sliceOf (s.key pa) / 256)
    if d.refresh = 2 || d.paused then none else some (leNat (s.mem.read (s.key pa) 8))
  else (s.dev.schedLines.find? fun l => l.1 == who && l.2.1 == pa / 128).map fun l => leNat ((l.2.2.drop (pa % 128)).take 8)

/-- The walk of R391 from a table on: the leaf and its level, or the cause; cause 0 with the address of an entry that must be waited
for. -/
def State.walkFrom (s : State) (who va : Nat) : Nat → Nat → Nat → Except (Nat × Nat) (Nat × Nat)
  | 0, _, _ => .error (0x2D, 0)
  | fuel + 1, lvl, t =>
    let a := t + 8 * walkIndex va lvl
    match s.walkEntry who a with
    | none => .error (0, a)
    | some p =>
      if !bit p 63 then .error (0x29, 0)
      else if badEntry p lvl then .error (0x2D, 0)
      else if bit p 62 then .ok (p, lvl)
      else State.walkFrom s who va fuel (lvl + 1) (field p 8 44 * 2 ^ 8)

/-- Walk() (R387, R391): a TLB entry or the cause, with the address as `walkFrom` has it. -/
def State.walkBy (s : State) (who asid tenant va : Nat) (k : AccKind) : Except (Nat × Nat) TlbEntry :=
  let e := (s.dev.asids.get 0 asid).toNat
  if 2 ^ 57 ≤ va then .error (0x2C, 0)
  else if !bit e 63 || field e 52 8 != tenant then .error (0x2B, 0)
  else
    match s.walkFrom who va 5 0 (field e 12 40 * 2 ^ 12) with
    | .error x => .error x
    | .ok (p, lvl) =>
      if k.allowed (bit p 61) (bit p 60) (bit p 59) then
        let b := leafBits lvl
        .ok ⟨asid, va / 2 ^ b * 2 ^ b, b, field p 16 36 * 2 ^ 16, bit p 61, bit p 60, bit p 59, bit p 58, field p 8 8⟩
      else .error (0x2A, 0)

/-- For whom another device sends a line of a page table that the happening at work needs. -/
def eventAsker (e : Event) : Nat := 2 ^ 44 + (e.a * 2 ^ 64 + e.b) * 2 ^ 8 + e.kind.ctorIdx

/-- The same for a cluster that walks for itself. -/
def clusterAsker (cl : Nat) : Nat := 2 ^ 43 + cl

/-- The walk of a home, of the scheduler or of the host agent in the happening at work. -/
def State.walk (s : State) (asid tenant va : Nat) (k : AccKind) : Except (Nat × Nat) TlbEntry :=
  s.walkBy (eventAsker s.ctl.ev) asid tenant va k

/-- The happening at work must wait for an entry of a page table. -/
def State.needs (s : State) (pa tenant cl : Nat) : State := s.updCtl fun c => { c with need := some (pa, tenant, cl) }

/-- An entry covers an address. -/
def TlbEntry.covers (e : TlbEntry) (asid va : Nat) : Bool := e.asid == asid && va / 2 ^ e.size == e.va / 2 ^ e.size

/-- The physical address that an entry gives. -/
def TlbEntry.phys (e : TlbEntry) (va : Nat) : Nat := e.pa + va % 2 ^ e.size

/-- The entry of the smallest page that covers an address, and whether pages of two sizes do (R394). -/
def tlbFind (tlb : List TlbEntry) (asid va : Nat) : Option TlbEntry × Bool :=
  let hits := tlb.filter fun e => e.covers asid va
  match hits.find? (·.size == 16), hits.find? (·.size == 21), hits.find? (·.size == 30) with
  | some e, b, c => (some e, b.isSome || c.isSome)
  | none, some e, c => (some e, c.isSome)
  | none, none, c => (c, false)

/-- The TLB with an entry at the front, the most recently used place, 512 at most (R392). -/
def tlbTouch (tlb : List TlbEntry) (e : TlbEntry) : List TlbEntry :=
  (e :: tlb.filter fun x => !(x.asid == e.asid && x.va == e.va && x.size == e.size)).take 512

/-- A TLB lookup (R392): the entry if it carries the rights, and the cluster with its use and its multi-hit noted. -/
def Cluster.lookup (c : Cluster) (asid va : Nat) (k : AccKind) : Option TlbEntry × Cluster :=
  match tlbFind c.tlb asid va with
  | (some e, multi) =>
    let c := if multi then { c with multihit := sat32 c.multihit } else c
    if k.allowed e.r e.w e.x then (some e, { c with tlb := tlbTouch c.tlb e }) else (none, c)
  | (none, _) => (none, c)

/-- A walk put in flight (R392). -/
def State.startWalk (s : State) (w : Walk) : State := s.post s.ctl.lat.walk .tlbWalkCompletion (.walk w)

/-- The translation of an access of the acting thread; on a miss the thread leaves for the walk (R392). -/
def translate (va : Nat) (k : AccKind) : M TlbEntry := do
  let s ← get
  let cl := s.myCluster
  let asid := s.asidOf cl
  match (s.cluster cl).lookup asid va k with
  | (some e, c) => do set (s.setCluster cl c); pure e
  | (none, c) =>
    throw (.wait false .walk fun s => (s.setCluster cl c).startWalk
      ⟨cl, asid, s.tenantOf cl, va, k, .thread s.ctl.acting, 0⟩)

/-- The tenant for which a cluster walks: its crew's (R387), else that of the space. -/
def State.walkTenant (s : State) (cl asid : Nat) : Nat :=
  match (s.cluster cl).crew with
  | some c => c.tenant
  | none => field (s.dev.asids.get 0 asid).toNat 52 8

/-- The translation that a write-back uses: the TLB's, or a walk of the tables (R395), with a match of two sizes counted (R394). -/
def State.translateNow (s : State) (cl asid va : Nat) (k : AccKind) : Except (Nat × Nat) TlbEntry × State :=
  match tlbFind (s.cluster cl).tlb asid va with
  | (some e, multi) => (.ok e, if multi then s.updCluster cl fun c => { c with multihit := sat32 c.multihit } else s)
  | (none, _) => (s.walkBy (clusterAsker cl) asid (s.walkTenant cl asid) va k, s)

end Sys2Proof.Machine
end

