-- ==== Sys2Proof/Machine/Path.lean ====
section
/-! DEFINITION. Which way a message goes (R362, R365, R378), the tenant checks on the way (R369), and what a source keeps of a
fabric request (R380, R382). -/

namespace Sys2Proof.Machine

/-! ## The torus -/

/-- A rectangle of clusters: origin column and row, width and height. -/
structure Rect where
  col : Nat
  row : Nat
  w : Nat
  h : Nat
  deriving DecidableEq, Repr

/-- The tenant's rectangle SUB (R327): that of its first enabled queue, the whole torus without one; log 20. -/
def State.subMesh (s : State) (tenant : Nat) : Rect :=
  match s.dev.queues.find? fun q => q.2.cfg.en && q.2.cfg.owner == tenant with
  | some (_, q) => ⟨q.cfg.subCol, q.cfg.subRow, q.cfg.subW, q.cfg.subH⟩
  | none => ⟨0, 0, 64, 32⟩

/-- A cluster lies in a rectangle. -/
def Rect.has (r : Rect) (c : Nat) : Bool :=
  decide (r.col ≤ clusterCol c) && decide (clusterCol c < r.col + r.w) &&
    decide (r.row ≤ clusterRow c) && decide (clusterRow c < r.row + r.h)

/-- One coordinate's way from `a` to `b` (R365): none when there, else whether the coordinate increases. -/
def ringWay (a b n : Nat) (whole : Bool) : Option Bool :=
  if a = b then none
  else if whole then some (decide ((b + n - a) % n ≤ n - (b + n - a) % n))
  else some (decide (a < b))

/-- Hops along one coordinate. -/
def ringHops (a b n : Nat) (whole : Bool) : Nat :=
  if whole then min ((b + n - a) % n) ((a + n - b) % n) else (b - a) + (a - b)

/-- The output that a packet takes at cluster `c` towards `d`, and the cluster there (R365): 0 local, 1 west, 2 east,
3 south, 4 north; the row number rises southward, log 20. -/
def Rect.hop (r : Rect) (c d : Nat) : Nat × Nat :=
  let x := clusterCol c
  let y := clusterRow c
  match ringWay x (clusterCol d) 64 (r.w == 64) with
  | some true => (2, clusterAt ((x + 1) % 64) y)
  | some false => (1, clusterAt ((x + 63) % 64) y)
  | none =>
    match ringWay y (clusterRow d) 32 (r.h == 32) with
    | some true => (3, clusterAt x ((y + 1) % 32))
    | some false => (4, clusterAt x ((y + 31) % 32))
    | none => (0, c)

/-- The hops of a route. -/
def Rect.hops (r : Rect) (c d : Nat) : Nat :=
  ringHops (clusterCol c) (clusterCol d) 64 (r.w == 64) + ringHops (clusterRow c) (clusterRow d) 32 (r.h == 32)

/-- The entry cluster of a die (R362): fewest hops, then the lowest row, then the lowest column. -/
def Rect.entry (r : Rect) (src die : Nat) : Option Nat :=
  ((List.range 256).map (256 * die + ·)).foldl (fun best c =>
    if r.has c then
      match best with
      | none => some c
      | some b => if r.hops src c < r.hops src b then some c else best
    else best) none

/-- The cluster beside a slice: the one with the slice's number in its die (R362). -/
def besideSlice (sl : Nat) : Nat := sl

/-- The omega port at which a request of a cluster for a slice of its device enters (R362): the cluster's own, the entry
cluster's, or that of the cluster beside the slice. -/
def State.portOf (s : State) (src tenant sl : Nat) : Nat :=
  if src / 256 = sl / 256 then src else ((s.subMesh tenant).entry src (sl / 256)).getD (besideSlice sl)

/-! ## Arrival rows -/

/-- The row that takes a message up where it arrives, and the cycles until then. Every request takes as long from its omega port
to its home, the eft's cycles among them, so that the requests of one port reach a slice in their order (R363, R318); log 3. -/
def State.rowOf (s : State) (m : Msg) : EvKind × Nat :=
  let l := s.ctl.lat
  match m with
  | .reply _ _ | .waitEnd _ | .appended _ _ => (.replyArrival, l.slice)
  | .wake _ _ => (.wake, l.slice)
  | .home _ | .combined _ => (.eftOperation, l.slice + l.eft)
  | .slice _ => (.sliceRequest, l.slice + l.eft)
  | .fill r _ _ _ _ => (if r.code then .icacheLineArrival else .l1Fill, l.slice)
  | .wb _ => (.writeBackAtHome, l.slice + l.eft)
  | .walk _ => (.tlbWalkCompletion, l.walk)
  | .append _ _ => (.logAppendArrival, l.slice + l.eft)
  | .tadpole _ _ => (.tadpoleArrival, 1)
  | .net _ _ => (.messageArrival, 1)
  | .remote _ => (.remoteAccessService, 1)
  | .pairCheck _ _ _ _ => (.pairCheck, l.slice + l.eft)
  | .contribution _ => (.groupContribution, l.link)
  | .delivery _ => (.groupDelivery, l.link)
  | .torus _ => (.packetArrival, 1)
  | .token _ _ => (.probeToken, l.slice)
  | .refusal _ => (.messageRetry, l.slice)
  | .fabric _ => (.endToEndAcknowledgement, l.fabric)

/-- Two CNT.ADD requests that may meet at a switch (R321): same counter, space and scope, both of this device, through different
ports of the home's die. -/
def State.meets (s : State) (a b : HomeReq) : Bool :=
  let own (r : HomeReq) : Bool := match r.who with | .fabric _ _ _ _ _ => false | _ => true
  let add (r : HomeReq) : Bool := match r.op with | .cntAdd _ => true | _ => false
  let port (r : HomeReq) : Nat := s.portOf r.cluster r.tenant (sliceOf (localOf r.pa))
  add a && add b && own a && own b && a.pa == b.pa && a.asid == b.asid && decide (a.scope = b.scope) && port a != port b

/-- A request in flight that enters the home's network in the same cycle as one that enters it now, and with which a switch
combines it: the message's number (R321); log 14. -/
def State.meeting (s : State) (r : HomeReq) (due : Nat) : Option Nat :=
  (s.ctl.agenda.find? fun x => x.1 == due && (match x.2 with
    | .ev e => e.kind == .eftOperation && (match s.msgs.find e.a with
      | some (.home q) => s.meets q r
      | some (.combined (q :: qs)) => (q :: qs).all (s.meets · r)
      | _ => false)
    | .resume _ => false)).map fun x => match x.2 with | .ev e => e.a | .resume _ => 0

/-- A message in flight has reached the network's end, with `more` cycles of links still to pass; its row is due. A CNT.ADD may
meet another in the omega network. -/
def State.arriveIn (s : State) (i more : Nat) : State :=
  match s.msgs.find i with
  | some m =>
    let n := (s.rowOf m).2 + more
    let met := match m with | .home r => s.meeting r (s.ctl.cycle + n) | _ => none
    let s := s.later n (s.rowOf m).1 i 0 0
    match met with
    | some j => s.later 1 .omegaCombine j i 0
    | none => s
  | none => s

/-- The same without links. -/
def State.arrive (s : State) (i : Nat) : State := s.arriveIn i 0

/-- A reply from the home's side to an agent that needs no torus hop. -/
def State.replyNow (s : State) (dst : Agent) (r : Reply) : State := s.post s.ctl.lat.slice .replyArrival (.reply dst r)

/-- Who waits for a message, for the drop notice of R369. -/
def Msg.issuer : Msg → Option Agent
  | .home r => some r.who
  | .slice r => some r.who
  | .append e who => if e.waits then some who else none
  | .net m _ => if m.asked then some m.sender else none
  | .remote r => some r.who
  | .contribution c => some c.who
  | .tadpole tid _ => some (.thread tid)
  | _ => none

/-! ## The interface's count (R374) and drops (R369) -/

/-- A cluster's count rises or falls. -/
def State.probeCount (s : State) (cl : Nat) (n : Int) : State :=
  s.updCluster cl fun c => { c with probe := { c.probe with count := c.probe.count + n } }

/-- A message, pair or tadpole is received: the count falls and the colour turns black. -/
def State.probeReceive (s : State) (cl : Nat) : State :=
  s.updCluster cl fun c => { c with probe := ⟨c.probe.count - 1, true⟩ }

/-- The end of an agent's wait for acknowledgements is looked at in the next cycle. -/
def State.wakeWaiter (s : State) (a : Agent) : State := s.post 1 .replyArrival (.waitEnd a)

/-- Two messages of one sender to one core (R373). -/
def NetMsg.sameFlow (x m : NetMsg) : Bool :=
  x.sender == m.sender && hdrCore x.header == hdrCore m.header && hdrDev x.header == hdrDev m.header

/-- A message on its way from its core's interface: on the torus to its core, or to its own die's router (R362). -/
def State.sendMessage (s : State) (m : NetMsg) (i : Nat) : State :=
  s.inject (m.srcCore / 8) (if hdrDev m.header = s.dev.id then hdrCore m.header / 8 else m.srcCore / 8) 2 (1 + (m.payload.length + 7) / 8)
    (hdrTen m.header) i

/-- A message of a sender has been taken or given up: its next message to the same core may go (R373). -/
def State.sentDone (s : State) (i : Nat) (m : NetMsg) : State :=
  let drop (k : Nat) (s : State) : State := s.updCore m.srcCore fun c => { c with net := { c.net with
    retrying := c.net.retrying.filter (· != k), sent := c.net.sent.filter (· != k) } }
  let s := drop i s
  let next := (s.core m.srcCore).net.retrying.find? fun k => match s.msgs.find k with
    | some (.net x _) => x.refusals == 0 && x.sameFlow m
    | _ => false
  match next with
  | some k => match s.msgs.find k with
    | some (.net x _) =>
      ((drop k s).updCore m.srcCore fun c => { c with net := { c.net with sent := c.net.sent ++ [k] } }).sendMessage x k
    | _ => s
  | none => s

/-- What a dropped message leaves: the sender's count falls, a tadpole's reserved entry is free (R374, R337; log 43), and those who
waited for a write-back look again. -/
def State.undoSend (s : State) (i : Nat) (m : Msg) : State :=
  match m with
  | .net n _ => (s.probeCount (n.srcCore / 8) (-1)).sentDone i n
  | .contribution c => if c.key < 0x10000 then s.probeCount (256 * c.router + c.key / 8) (-1) else s
  | .append e (.thread tid) | .appended e tid =>
    let s := s.probeCount e.cluster (-1)
    if (s.threads.find tid).isSome then s.updThread tid fun t => { t with aux := { t.aux with appends := t.aux.appends - 1 } } else s
  | .tadpole tid core =>
    let s := s.probeCount ((s.thread tid).core / 8) (-1)
    (s.updCore core fun c => { c with reserved := c.reserved - 1 }).updThread tid fun t => { t with run := .waiting }
  | .wb w => w.waiters.foldl (fun s a => s.wakeWaiter a) s
  | _ => s

/-- Replies, acknowledgements, wakes, write-backs and tokens are only counted when they are dropped (R369). -/
def Msg.onlyCounted : Msg → Bool
  | .reply _ _ | .wake _ _ | .waitEnd _ | .appended _ _ | .fill _ _ _ _ _ | .wb _ | .refusal _ | .token _ _ => true
  | _ => false

/-- The cluster at which an agent of this device stands. -/
def State.agentCluster (s : State) (a : Agent) : Option Nat :=
  match a with
  | .thread tid => if (s.threads.find tid).isSome || decide (tid < 32768) then some ((s.thread tid).core / 8) else none
  | .job j => (s.job j).map (·.core / 8)
  | .shoot _ c => some c
  | _ => none

/-- A drop notice (R369): a packet of VC1 from the torus router that dropped, over the service link from another router. -/
def State.notify (s : State) (src : Option Nat) (who : Agent) (tenant : Nat) : State :=
  match src, s.agentCluster who with
  | some c, some d =>
    let i := s.ctl.nextMsg
    (s.addMsg (.reply who { cause := 0x81 })).inject c d 1 1 tenant i
  | _, _ => s.post s.ctl.lat.link .replyArrival (.reply who { cause := 0x81 })

/-- A packet of a non-member tenant (R369): dropped, recorded at the management queue, its issuer notified; `src` is the cluster of
the torus router that drops it. -/
def State.dropViolation (s : State) (tenant i : Nat) (src : Option Nat) : State :=
  match s.msgs.find i with
  | some m =>
    if m.onlyCounted then (s.dropMsg i).undoSend i m
    else
      let s := ((s.postMeq { tenant := tenant, cause := 0x81, kind := 4 }).dropMsg i).undoSend i m
      match m.issuer with
      | some who => s.notify src who tenant
      | none => s
  | none => s.postMeq { tenant := tenant, cause := 0x81, kind := 4 }

/-- A die router or fabric router counts a dropped packet; routers 0 to 7 are the dies'. -/
def State.countTviol (s : State) (r : Nat) : State :=
  if r < 8 then s.updDie r fun d => { d with groups := { d.groups with tviol := sat32 d.groups.tviol } }
  else s.updXdie (r - 8) fun x => { x with groups := { x.groups with tviol := sat32 x.groups.tviol } }

/-- The membership bitmap of a die router or fabric router. -/
def State.routerMap (s : State) (r : Nat) : BitVec 256 :=
  if r < 8 then (s.die r).groups.bitmap else (s.xdie (r - 8)).groups.bitmap

/-- A tenant is a member. -/
def member (m : BitVec 256) (tenant : Nat) : Bool := bit m.toNat (tenant % 256)

/-- A message passes the routers of a path; the first that refuses it drops it. `links` is the number of router links. -/
def State.viaRouters (s : State) (tenant i : Nat) : List Nat → Nat → State
  | [], n => s.arriveIn i (n * s.ctl.lat.link)
  | r :: rest, n =>
    if member (s.routerMap r) tenant then s.viaRouters tenant i rest (n + 1)
    else (s.countTviol r).dropViolation tenant i none

/-- A message from a cluster to a slice's side of a die (R362). -/
def State.toDie (s : State) (src die tenant vc flits : Nat) (m : Msg) : State :=
  let i := s.ctl.nextMsg
  let s := s.addMsg m
  if src / 256 = die then s.arrive i
  else match (s.subMesh tenant).entry src die with
    | some e => s.inject src e vc flits tenant i
    | none => s.viaRouters tenant i [src / 256, die] 0

/-- A message from a slice's side of a die to a cluster: the reverse path (R362). -/
def State.fromDie (s : State) (die dst tenant vc flits : Nat) (m : Msg) : State :=
  let i := s.ctl.nextMsg
  let s := s.addMsg m
  if dst / 256 = die then s.arrive i
  else match (s.subMesh tenant).entry dst die with
    | some e => s.inject e dst vc flits tenant i
    | none => s.viaRouters tenant i [die, dst / 256] 0

/-! ## The fabric -/

/-- The source agent number of R377; agents that it does not list take slot 0 of the cluster's first core: log 21. -/
def State.sagt (s : State) (a : Agent) (cl : Nat) : Nat :=
  match a with
  | .thread tid => let t := s.thread tid; 8 * t.core + t.slot.getD 2
  | .job j => match s.job j with
    | some x => if x.eng = .cl then 0x30000 + x.core else 0x20000 + x.core / 8
    | none => 0x20000 + cl
  | _ => 64 * cl

/-- The die of a source agent by its number (R377). -/
def sagtDie (a : Nat) : Nat :=
  (if a < 0x20000 then a / 16384 else if a < 0x30000 then (a - 0x20000) / 256 else (a - 0x30000) / 2048) % 8

/-- The set bits of a port mask. -/
def maskPorts (m : BitVec 128) : List Nat := (List.range 128).filter fun i => bit m.toNat i

/-- The port that a packet takes from a fabric router (R378), and the router with its turn noted. -/
def XDie.pick (x : XDie) (p : FabricPacket) : Option (Nat × XDie) :=
  let ports := maskPorts (x.fwd.get 0 p.ddev)
  match ports with
  | [] => none
  | q :: _ =>
    if p.ord then
      let h := (p.sdev * 0x9E37 + p.ddev * 0x79B9 + p.vc) % 2 ^ 16
      some (ports.getD (h % ports.length) q, x)
    else
      let k := x.turn.get 0 p.ddev
      some (ports.getD (k % ports.length) q, { x with turn := x.turn.set p.ddev ((k + 1) % ports.length) })

/-- The port that a packet names (a group's tree port, R357) while the router's table has it for its destination, else the one of
R378. -/
def XDie.pickOr (x : XDie) (port : Nat) (p : FabricPacket) : Option (Nat × XDie) :=
  if port < 128 && bit (x.fwd.get 0 p.ddev).toNat port then some (port, x) else x.pick p

/-- A packet at a fabric router leaves through a port, past the other X-die's router when that has the port (R355), or waits there and the
host is notified (R378). True when a router or a port whose bitmap lacks the tenant drops it (R369). One that leaves by another port
than before is counted at that (R383). -/
def State.fabricPut (s : State) (i : Nat) : Bool × State :=
  match s.msgs.find i with
  | some (.fabric k) =>
    let p := k.p
    match (s.xdie k.xd).pickOr k.named p with
    | none => (false, (s.updXdie k.xd fun x => { x with held := x.held ++ [i] }).postMeq { tenant := p.ten, cause := 0x83, kind := 4 })
    | some (port, x) =>
      if port / 64 % 2 != k.xd && !member (s.routerMap (8 + port / 64 % 2)) p.ten then
        (true, (s.countTviol (8 + port / 64 % 2)).dropMsg i)
      else if !member (s.port port).bitmap p.ten then
        (true, (s.updPort port fun q => { q with tviol := sat32 q.tviol }).dropMsg i)
      else
        let s := s.updXdie k.xd fun _ => x
        let s := if k.last < 128 && k.last != port then s.updPort k.last fun q => { q with resent := sat32 q.resent } else s
        let s := { s with msgs := s.msgs.set i (.fabric { k with last := port }) }
        (false, s.updPort port fun q => { q with
          sent := if p.op < 32 && p.sdev == s.dev.id then q.sent ++ [i] else q.sent,
          line := q.line ++ [(i, 1 + (p.data.length + 63) / 64)] })
  | _ => (false, s)

/-- Write-backs, which are only counted when they are dropped (R369), bring halves of a line or a whole one; a store of a thread has at
most 16 bytes. -/
def isWbPacket (p : FabricPacket) : Bool := p.op == 0x02 && decide (64 ≤ p.data.length)

/-- A drop notice to the source of another device's request (R369). -/
def dropNotice (dev : Nat) (p : FabricPacket) : FabricPacket :=
  ⟨p.sdev, dev, 1, true, p.ten, p.op % 32 + 0x20, p.seq, p.seq, 0, 0, p.sagt,
    bytesOf [BitVec.ofNat 64 0x81, 0, 0]⟩

/-- The same with what a drop leaves (R369): a dropped reply or write-back is only counted; the issuer of this device, or the source of a
request on its way through it, gets a drop notice; the agent's window moves (R382). -/
def State.fabricOut (s : State) (i : Nat) : State :=
  match s.msgs.find i with
  | some (.fabric k) =>
    let p := k.p
    let (dropped, s) := s.fabricPut i
    if !dropped || decide (32 ≤ p.op) then s
    else if p.sdev == s.dev.id then
      let s := if k.carried = 0 then s.postMeq { tenant := p.ten, cause := 0x81, kind := 4 } else s.dropViolation p.ten k.carried none
      s.later 1 .endToEndAcknowledgement p.sagt p.seq 0
    else
      let s := if isWbPacket p then s else s.postMeq { tenant := p.ten, cause := 0x81, kind := 4 }
      ((s.addMsg (.fabric { p := dropNotice s.dev.id p, xd := k.xd })).fabricPut s.ctl.nextMsg).2
  | _ => s

/-- The X-die that serves a die's packets to other devices: X-die 0 for C-dies 0 to 3: log 21. -/
def xdieOf (die : Nat) : Nat := die / 4 % 2

/-- A request leaves this device from an X-die (R377, R382): its sequence number and, when 64 are outstanding, its wait at the
agent; `c` is the number of the message that it carries, `port` the port that a group's tree names, else 128. -/
def State.sendFabric (s : State) (xd sagt ddev tenant vc : Nat) (ord : Bool) (op pa : Nat) (arg : Word) (data : List Byte)
    (c port : Nat) : State :=
  let a : SrcAgent := s.dev.agents.get {} sagt
  let i := s.ctl.nextMsg
  let seq := a.next % 2 ^ 32
  let ackt := match a.out with | (q, _) :: _ => q | [] => seq
  let s := s.addMsg (.fabric
    { p := ⟨ddev, s.dev.id, vc, ord, tenant, op, seq, ackt, pa, arg, sagt, data⟩, xd := xd, carried := c, named := port })
  let a := { a with next := (a.next + 1) % 2 ^ 32 }
  let a := if a.out.length < 64 then { a with out := a.out ++ [(seq, i)] } else { a with wait := a.wait ++ [i] }
  let sends := a.wait.isEmpty
  let s := s.updDev fun d => { d with agents := d.agents.set sagt a }
  if sends then s.fabricOut i else s

/-- A request of a die's side to another device: past the die router and the fabric router (R362, R369). -/
def State.toFabric (s : State) (die sagt ddev tenant vc : Nat) (ord : Bool) (op pa : Nat) (arg : Word)
    (data : List Byte) (m : Msg) : State :=
  let c := s.ctl.nextMsg
  let s := s.addMsg m
  if !member (s.routerMap die) tenant then (s.countTviol die).dropViolation tenant c none
  else if !member (s.routerMap (8 + xdieOf die)) tenant then (s.countTviol (8 + xdieOf die)).dropViolation tenant c none
  else s.sendFabric (xdieOf die) sagt ddev tenant vc ord op pa arg data c 128

/-! ## What the cluster L1 holds of an access -/

/-- An access cut at the line boundaries. -/
def pieces (e n : Nat) : List (Nat × Nat) :=
  if e % 128 + n ≤ 128 then [(e, n)] else [(e, 128 - e % 128), (e + (128 - e % 128), n - (128 - e % 128))]

/-- The dirty bytes of a line from `off`, none for a byte that is not dirty. -/
def L1Line.dirtyBytes (l : L1Line) (off : Nat) : Nat → List (Option Byte)
  | 0 => []
  | n + 1 => (if bit l.dirty.toNat off then some (BitVec.ofNat 8 (field l.data.toNat (8 * off) 8)) else none) ::
      L1Line.dirtyBytes l (off + 1) n

/-- The dirty bytes that a cluster holds of an access. -/
def State.ownDirty (s : State) (cl asid va n : Nat) : List (Option Byte) :=
  (pieces va n).flatMap fun p =>
    match (s.cluster cl).l1.find? fun l => l.asid == asid && l.va == p.1 / 128 with
    | some l => l.dirtyBytes (p.1 % 128) p.2
    | none => List.replicate p.2 none

/-- Bytes of a home under those that take precedence over them. -/
def overlay : List (Option Byte) → List Byte → List Byte
  | some b :: o, _ :: t => b :: overlay o t
  | none :: o, b :: t => b :: overlay o t
  | [], t => t
  | _, [] => []

/-- The cluster's own dirty bytes take precedence over those of an ordered load (R148). -/
def State.mergeOwn (s : State) (cl asid va : Nat) (bs : List Byte) : List Byte := overlay (s.ownDirty cl asid va bs.length) bs

/-- A write-back of the cluster to the line of a read is on its way. -/
def State.wbPending (s : State) (r : SliceReq) : Bool :=
  r.write.isNone && !r.code && s.msgs.any fun m => match m.2 with
    | .wb w => w.cluster == r.cluster && w.asid == r.asid && w.va == r.va / 128
    | _ => false

/-! ## Requests to homes -/

/-- The flits of a packet of VC0 or VC1 with `n` bytes of data (R364). -/
def dataFlits (n : Nat) : Nat := if n = 0 then 1 else 3

/-- The flits of a packet of VC3 with `n` bytes of data: a header and up to 256 bytes (R364). -/
def bulkFlits (n : Nat) : Nat := 1 + min 4 ((n + 63) / 64)

/-- An agent is an engine job, whose data go on VC3 (R364). -/
def Agent.isJob : Agent → Bool
  | .job _ => true
  | _ => false

/-- The byte mask in word 3 of a write's packet (R377): bit i for byte i of a write of up to 64 bytes; all ones for a longer one,
which has no byte left out; with bit 63 beyond the bytes of a store of object space. Log 21. -/
def writeMask (n : Nat) (obj : Bool) : Word := BitVec.ofNat 64 (2 ^ (min n 64) - 1 + b2n (obj && decide (n ≤ 16)) * 2 ^ 63)

/-- The bytes of a request that lie in its first page. -/
def SliceReq.first (r : SliceReq) : Nat := match r.split with | some (n, _, _) => n | none => r.n

/-- What is left to ask when the bytes of the first page have been read or written. -/
def SliceReq.rest (r : SliceReq) (got : List Byte) (bad : Option Nat) : Option SliceReq :=
  r.split.map fun x => { r with
    va := r.va + x.1, pa := x.2.1, key := x.2.2, n := r.n - x.1, write := r.write.map (·.drop x.1), split := none, got := r.got ++ got,
    bad := match r.bad with | some b => some b | none => bad }

/-- A load of a thread at the home of global data, an LD.ACQ (R148). -/
def SliceReq.ordered (r : SliceReq) : Bool :=
  r.write.isNone && !r.fill && !r.obj && (match r.who with | .thread _ => true | _ => false)

/-- A request to the slice that homes an address (R362). A job's data are unordered (R377). A read of another device's home goes behind
the cluster's own write-back to its line, which may be unordered, and takes along what the cluster holds dirty of it (R148, R292). -/
def State.toSlice (s : State) (r : SliceReq) : State :=
  match r.write with
  | none =>
    if s.isLocal r.pa then s.toDie r.cluster (field r.pa 36 3) r.tenant 0 1 (.slice r)
    else if s.wbPending r then s.post 8 .sliceRequest (.slice r)
    else
    let r := if r.ordered then { r with own := s.ownDirty r.cluster r.asid r.va r.first } else r
    s.toFabric (r.cluster / 256) (s.sagt r.who r.cluster) (devOf r.pa) r.tenant 0 true 0x01 r.pa (BitVec.ofNat 64 r.first) []
      (.slice r)
  | some bs =>
    let vc := if r.who.isJob then 3 else 0
    let bs := bs.take r.first
    if s.isLocal r.pa then
      s.toDie r.cluster (field r.pa 36 3) r.tenant vc (if r.who.isJob then bulkFlits bs.length else dataFlits bs.length) (.slice r)
    else s.toFabric (r.cluster / 256) (s.sagt r.who r.cluster) (devOf r.pa) r.tenant vc (!r.who.isJob) 0x02 r.pa
        (writeMask bs.length r.obj) bs (.slice r)

/-- A write-back sent to its home (R146, R362): the whole line in one packet of the fabric, else each half that has dirty bytes
under the mask of its 64 bytes (R377); the data of a copy job are unordered (R380). -/
def State.sendWb (s : State) (w : WriteBack) : State :=
  let bulk := w.owner.isJob
  if s.isLocal w.pa then
    s.toDie w.cluster (field w.pa 36 3) w.tenant (if bulk then 3 else 0) (if bulk then bulkFlits 128 else 3) (.wb w)
  else
    let send (s : State) (pa : Nat) (mask : Word) (bs : List Byte) (w : WriteBack) : State :=
      s.toFabric (w.cluster / 256) (s.sagt w.owner w.cluster) (devOf w.pa) w.tenant (if bulk then 3 else 0) (!bulk) 0x02 pa mask bs (.wb w)
    let bs := leBytes 128 w.data.toNat
    if w.mask = BitVec.allOnes 128 then send s w.pa (writeMask 128 false) bs w
    else
      let lo := w.mask.toNat % 2 ^ 64
      let hi := w.mask.toNat / 2 ^ 64
      let s := if lo = 0 then s else send s w.pa (BitVec.ofNat 64 lo) (bs.take 64) { w with mask := BitVec.ofNat 128 lo }
      if hi = 0 then s else send s (w.pa + 64) (BitVec.ofNat 64 hi) (bs.drop 64) { w with mask := BitVec.ofNat 128 (hi * 2 ^ 64) }

/-- The OP of a request to a home of another device (R377). -/
def HomeOp.fabricOp : HomeOp → Nat
  | .rsv _ => 0x04
  | .rls _ _ | .rlsx _ => 0x05
  | _ => 0x03

/-- fn6 of an object operation, with bit 9 set for those of major 0x15, and above 64 what R96 and R97 do not number:
log 21. -/
def HomeOp.fn6 : HomeOp → Nat
  | .init _ _ => 0x00
  | .free => 0x01
  | .read => 0x02
  | .cntAdd _ => 0x08
  | .cntSwap _ => 0x09
  | .cntCas _ _ => 0x0A
  | .waitGe _ => 0x0B
  | .waitEq _ => 0x0C
  | .barArrive => 0x10
  | .barWait _ => 0x11
  | .barSync => 0x12
  | .tktAcq => 0x18
  | .tktTry => 0x19
  | .tktRel => 0x1A
  | .tktRelFor => 0x40F
  | .cndWait _ => 0x20
  | .cndSig => 0x21
  | .cndBcast => 0x22
  | .qPut _ _ => 0x200
  | .qGet _ => 0x201
  | .qTryput _ _ => 0x202
  | .qTryget _ => 0x203
  | .seal _ _ _ => 0x400
  | .unseal => 0x401
  | .giveCheck => 0x402
  | .give _ => 0x403
  | .take => 0x404
  | .copyTake => 0x405
  | .copyRelease => 0x406
  | .probeType _ => 0x407
  | .mergeLog _ => 0x414
  | .phaseAdd _ => 0x415
  | .nAlloc _ _ => 0x408
  | .nFree => 0x409
  | .nRead _ => 0x40A
  | .nRecycle _ => 0x413
  | .nLink _ _ _ => 0x40B
  | .nRelink _ _ _ _ _ => 0x40C
  | .pairPush _ _ => 0x40D
  | .ruleGo _ _ _ _ => 0x40E
  | .slotPut _ _ => 0x410
  | .slotGet _ _ => 0x411
  | .slotFree _ => 0x412
  | .rsv _ | .rls _ _ | .rlsx _ => 0

/-- A segment register as its table entry (R19). -/
def Seg.words (g : Seg) : List Word :=
  let sp := match g.space with | .global => 0 | .scratch => 1 | .tcm => 2 | .object => 3
  [g.base.setWidth 64, g.limit.setWidth 64,
   BitVec.ofNat 64 (sp + 2 ^ 8 * b2n g.r + 2 ^ 9 * b2n g.w + 2 ^ 10 * b2n g.x + 2 ^ 11 * b2n g.o + 2 ^ 12 * b2n g.s +
     2 ^ 13 * b2n g.g + 2 ^ 16 * g.tag.toNat), 0]

/-- A table entry as a segment register; reserved bits are ignored (R19, R20). -/
def segOf (ws : List Word) : Seg :=
  let w := (wordAt ws 2).toNat
  { base := (wordAt ws 0).setWidth 57, limit := (wordAt ws 1).setWidth 58,
    space := match w % 4 with | 0 => .global | 1 => .scratch | 2 => .tcm | _ => .object,
    r := bit w 8, w := bit w 9, x := bit w 10, o := bit w 11, s := bit w 12, g := bit w 13, tag := BitVec.ofNat 8 (w / 2 ^ 16) }

/-- The operands of an operation, as its fabric packet carries them in data words. -/
def HomeOp.operands : HomeOp → List Word
  | .init ty img => BitVec.ofNat 64 ty :: img
  | .cntAdd b | .cntSwap b | .waitGe b | .waitEq b => [b]
  | .cntCas r b => [r, b]
  | .barWait ph => [BitVec.ofNat 64 ph]
  | .cndWait l => [BitVec.ofNat 64 l]
  | .qPut c p | .qTryput c p => BitVec.ofNat 64 c :: BitVec.ofNat 64 p.length :: wordsOf ((p.length + 7) / 8) p
  | .qGet c | .qTryget c => [BitVec.ofNat 64 c]
  | .rsv n | .rlsx n => [BitVec.ofNat 64 n]
  | .rls n v => [BitVec.ofNat 64 n, v]
  | .seal b l sc => [BitVec.ofNat 64 b, BitVec.ofNat 64 l, BitVec.ofNat 64 sc.code]
  | .give g => g.words
  | .probeType n | .phaseAdd n | .mergeLog n => [BitVec.ofNat 64 n]
  | .nAlloc g a => [BitVec.ofNat 64 g, BitVec.ofNat 64 a]
  | .nRead p => [BitVec.ofNat 64 p]
  | .nRecycle w => [w]
  | .nLink k a b => [BitVec.ofNat 64 k, BitVec.ofNat 64 a, BitVec.ofNat 64 b]
  | .nRelink k p n x h => [BitVec.ofNat 64 k, BitVec.ofNat 64 p, BitVec.ofNat 64 n, BitVec.ofNat 64 x, BitVec.ofNat 64 h]
  | .pairPush u v => [BitVec.ofNat 64 u, BitVec.ofNat 64 v]
  | .ruleGo k u v a => [BitVec.ofNat 64 k, BitVec.ofNat 64 u, BitVec.ofNat 64 v, BitVec.ofNat 64 a]
  | .slotPut c p => BitVec.ofNat 64 (b2n c) :: BitVec.ofNat 64 p.length :: wordsOf ((p.length + 7) / 8) p
  | .slotGet n c => [BitVec.ofNat 64 n, BitVec.ofNat 64 (b2n c)]
  | .slotFree n => [BitVec.ofNat 64 n]
  | .free | .read | .barArrive | .barSync | .tktAcq | .tktTry | .tktRel | .tktRelFor | .cndSig | .cndBcast | .unseal | .giveCheck
  | .take | .copyTake | .copyRelease | .nFree => []

/-- The data of an object request's packet: the address and the window that it came through, its space and leaf, the operands;
log 21. -/
def HomeReq.words (r : HomeReq) : List Word :=
  [BitVec.ofNat 64 r.va, BitVec.ofNat 64 r.segBase, BitVec.ofNat 64 r.segLimit,
   BitVec.ofNat 64 (r.asid + r.key * 2 ^ 13 + b2n r.ac * 2 ^ 21),
   BitVec.ofNat 64 (r.ident.1.toNat + r.ident.2.1 % 2 ^ 32 * 2 ^ 32),
   BitVec.ofNat 64 (r.ident.2.2.toNat + r.ident.2.1 / 2 ^ 32 * 2 ^ 32)] ++ r.op.operands

/-- A request to the home of an object, a reserved word or a node. -/
def State.toHome (s : State) (r : HomeReq) : State :=
  if s.isLocal r.pa then
    s.toDie r.cluster (field r.pa 36 3) r.tenant 0 (dataFlits (8 * r.op.operands.length)) (.home r)
  else
    s.toFabric (r.cluster / 256) (s.sagt r.who r.cluster) (devOf r.pa) r.tenant 0 true r.op.fabricOp r.pa
      (BitVec.ofNat 64 (r.op.fn6 % 64 + r.op.fn6 / 64 * 2 ^ 9 + r.scope.code * 2 ^ 6)) (bytesOf r.words) (.home r)

/-! ## Answers of homes -/

/-- An agent's tenant. -/
def State.agentTenant (s : State) (a : Agent) : Nat :=
  match a with
  | .thread tid => if tid < 32768 then s.tenantOf ((s.thread tid).core / 8) else tenantOfGtid (s.thread tid).ctx.gtid
  | .job j => match s.job j with | some x => x.tenant | none => 0
  | .shoot _ c => s.tenantOf c
  | .fabric _ _ _ ten _ => ten
  | _ => 0

/-- The data words of a reply packet: cause and flags, value, address, capability, page fault and data; log 21. -/
def Reply.bytes (r : Reply) : List Byte :=
  let sc := match r.scope with | some x => x.code + 1 | none => 0
  bytesOf [BitVec.ofNat 64 (r.cause + 256 * b2n r.flag + 512 * b2n r.merr + 1024 * b2n r.push + 2048 * b2n r.after +
      4096 * b2n r.cap.isSome + 8192 * sc + 65536 * b2n r.fault.isSome + 2 ^ 20 * r.seen.length), r.value, BitVec.ofNat 64 r.addr] ++
    (match r.cap with | some g => bytesOf g.words | none => []) ++
    (match r.fault with | some (c, va, k) => bytesOf [BitVec.ofNat 64 c, BitVec.ofNat 64 va, BitVec.ofNat 64 k] | none => []) ++
    r.seen.flatMap (fun x => bytesOf [BitVec.ofNat 64 x.1, BitVec.ofNat 64 x.2]) ++ r.data

/-- A packet that another device's request gets back: OP plus 0x20 (R377). -/
def State.fabricReply (s : State) (die dev agent seq ten op : Nat) (r : Reply) : State :=
  let i := s.ctl.nextMsg
  -- an answer to a group packet comes from the fabric router itself
  if op < 9 && !member (s.routerMap die) ten then s.countTviol die
  else if !member (s.routerMap (8 + xdieOf die)) ten then s.countTviol (8 + xdieOf die)
  else (s.addMsg (.fabric
    { p := ⟨dev, s.dev.id, 1, true, ten, op + 0x20, seq, seq, 0, 0, agent, r.bytes⟩, xd := xdieOf die })).fabricOut i

/-- The answer to a request noted (R382). -/
def Dedup.record (d : Dedup) (seq : Nat) (r : Reply) : Dedup :=
  { d with seen := d.seen.map fun e => if e.1 = seq then (seq, some r) else e }

/-- The answer to a message or group packet of another device, recorded at the fabric routers (R380, R382). -/
def State.ackFabric (s : State) (die : Nat) (dst : Agent) (r : Reply) : State :=
  match dst with
  | .fabric dev agent seq ten op =>
    let key := dev * 2 ^ 18 + agent
    let note (x : XDie) : XDie := { x with dedup := x.dedup.set key ((x.dedup.get {} key).record seq r) }
    ((s.updXdie 0 note).updXdie 1 note).fabricReply die dev agent seq ten op r
  | _ => s

/-- An answer of a home to an agent: along the reverse path to an agent of this device, over the fabric to one of another,
and recorded there against duplicates (R382). A wake is one with `isWake`. -/
def State.answer (s : State) (sl : Nat) (dst : Agent) (r : Reply) (isWake : Bool) : State :=
  let m : Msg := if isWake then .wake dst r else .reply dst r
  match dst with
  | .nobody => s
  | .fabric dev agent seq ten op =>
    let key := dev * 2 ^ 18 + agent
    let s := s.updSlice sl fun x => { x with dedup := x.dedup.set key ((x.dedup.get {} key).record seq r) }
    s.fabricReply (sl / 256) dev agent seq ten op r
  | _ => match s.agentCluster dst with
    | some c => s.fromDie (sl / 256) c (s.agentTenant dst) 1 (dataFlits r.data.length) m
    | none => s.post s.ctl.lat.slice (if isWake then .wake else .replyArrival) m

end Sys2Proof.Machine
end

