-- ==== Sys2Proof/Machine/Ops.lean ====
section
/-! DEFINITION. The shared operations: the cluster L1, leaving and joining the rotation, taking an exception and returning from
one, running one instruction under its guard, registers, segment checks. -/

namespace Sys2Proof.Machine

/-! ## The cluster L1 (R310, R313) -/

/-- The mask of `n` bytes from `off` in a line. -/
def byteMask (off n : Nat) : BitVec 128 := BitVec.ofNat 128 ((2 ^ n - 1) * 2 ^ off)

/-- The bit mask of a byte mask: eight bits for each byte. -/
def spreadMask : Nat → Nat → Nat
  | 0, _ => 0
  | n + 1, m => (if m % 2 = 1 then 255 else 0) + 256 * spreadMask n (m / 2)

/-- Line bytes replaced under a byte mask. -/
def mergeBytes (old new : BitVec 1024) (mask : BitVec 128) : BitVec 1024 :=
  let m := BitVec.ofNat 1024 (spreadMask 128 mask.toNat)
  (old &&& ~~~m) ||| (new &&& m)

/-- The words of a line whose eight mask bits are all set. -/
def fullWords (mask : BitVec 128) : Nat → Nat
  | 0 => 0
  | n + 1 => fullWords mask n + (if field mask.toNat (8 * n) 8 = 255 then 2 ^ n else 0)

/-- The set of a line number (R310). -/
def l1Set (line : Nat) : Nat := line % 128

/-- The line that the cluster L1 holds. -/
def Cluster.l1Find (c : Cluster) (asid line : Nat) : Option L1Line := c.l1.find? fun l => l.asid == asid && l.va == line

/-- The cluster with a line put into its set and way. -/
def Cluster.l1Put (c : Cluster) (l : L1Line) : Cluster :=
  { c with
    l1 := { l with used := c.clock } :: c.l1.filter (fun x => !(l1Set x.va == l1Set l.va && x.way == l.way)),
    clock := c.clock + 1 }

/-- The cluster without a line. -/
def Cluster.l1Drop (c : Cluster) (asid line : Nat) : Cluster :=
  { c with l1 := c.l1.filter fun x => !(x.asid == asid && x.va == line) }

/-- The number of active ways (R310). -/
def Cluster.ways (c : Cluster) : Nat := (327680 - (match c.crew with | some x => x.s | none => 0)) / 16384

/-- The least recently used of the lines of a set. -/
def lruLine : List L1Line → Option L1Line
  | [] => none
  | l :: t => match lruLine t with
    | some m => if l.used ≤ m.used then some l else some m
    | none => some l

/-- The way that a new line of a set takes: the lowest empty active way, else the least recently used line's (R310). -/
def Cluster.victim (c : Cluster) (line : Nat) : Nat :=
  let inSet := c.l1.filter fun l => l1Set l.va == l1Set line
  match firstBelow (fun k => !(inSet.any fun l => l.way == k)) c.ways 0 with
  | some k => k
  | none => match lruLine (inSet.filter fun l => decide (l.way < c.ways)) with
    | some l => l.way
    | none => 0

/-- Bytes of a line that the home has discarded, or that a write of the cluster at the home has superseded, leave the cluster L1
(R287, R292); with `own` its dirty bytes too. -/
def Cluster.l1Forget (c : Cluster) (asid line : Nat) (mask : BitVec 128) (own : Bool) : Cluster :=
  { c with l1 := (c.l1.map fun l =>
      if l.asid == asid && l.va == line then
        let m := if own then mask else mask &&& ~~~l.dirty
        { l with valid := l.valid &&& ~~~m, dirty := l.dirty &&& ~~~m }
      else l).filter fun l => l.valid != 0 }

/-- What a read of a line finds in the SEC-DED codes of its words (R324): the line with its errors met, and how many there were. -/
def L1Line.scan (l : L1Line) : L1Line × Nat × Nat :=
  let count (m : BitVec 16) : Nat := ((List.range 16).filter fun i => bit m.toNat i).length
  ({ l with psn := l.psn ||| l.lostBits, oneBit := 0, lostBits := 0 }, count l.oneBit, count l.lostBits)

/-- Errors met in a cluster's memories counted (R326). -/
def Cluster.countErrors (c : Cluster) (one lost : Nat) : Cluster :=
  { c with corr := satAdd c.corr one, uncorr := satAdd c.uncorr lost }

/-- Fills that `p` selects are stale: they wake those who asked and put nothing into the L1. `p` sees the request and, once the home
has read the line, whether it was sealed. -/
def State.staleFills (s : State) (p : SliceReq → Option Bool → Bool) : State :=
  { s with msgs := s.msgs.map fun m => match m.2 with
      | .fill r d psn sl old => (m.1, .fill r d psn sl (old || p r (some sl)))
      | .slice r => (m.1, .slice { r with stale := r.stale || (r.fill && p r none) })
      | _ => m }

/-- Fills that `p` selects serve those who asked and do not stay in the L1. -/
def State.passFills (s : State) (p : SliceReq → Option Bool → Bool) : State :=
  { s with msgs := s.msgs.map fun m => match m.2 with
      | .fill r d psn sl old => (m.1, .fill { r with passed := r.passed || p r (some sl) } d psn sl old)
      | .slice r => (m.1, .slice { r with passed := r.passed || (r.fill && p r none) })
      | _ => m }

/-- The home of a request has read the line, or may have: a far home answers over the fabric. -/
def State.mayBeRead (s : State) (r : SliceReq) (sl : Option Bool) : Bool := sl.isSome || !s.isLocal r.pa

/-- Dirty bytes that find no translation are discarded, counted and reported (R395). -/
def State.discardWb (s : State) (w : WriteBack) (c : Nat) : State :=
  (s.updSlice (256 * (w.cluster / 256)) fun x => { x with ctr := { x.ctr with discard := sat32 x.ctr.discard } }).postRec
    { tenant := w.tenant, cause := c, kind := 4, acc := 7, asid := w.asid, gtid := w.gtid, addr := w.va * 128, core := 8 * w.cluster }

/-- A line's dirty bytes on their way to the home, with those who wait for the acknowledgement; bytes that find no
translation are discarded, counted and reported, and the line no longer holds them (R146, R287, R395). The line's codes are checked as
it is read (R324). `owner` is the copy job whose data they are. -/
def State.writeBackLine (s : State) (cl : Nat) (l : L1Line) (owner : Agent) (waiters : List Agent) : State :=
  if l.dirty = 0 then s
  else
    let (l, one, lost) := l.scan
    let s := if one = 0 ∧ lost = 0 then s else s.updCluster cl fun c => c.countErrors one lost
    let gtid := match (s.cluster cl).crew with | some c => c.gtid | none => 0
    -- a fill that the home serves before these bytes reach it would put older ones over them (R292)
    let s := s.staleFills fun r _ => r.cluster == cl && r.asid == l.asid && r.va / 128 == l.va
    let w : WriteBack := {
      cluster := cl, asid := l.asid, tenant := s.walkTenant cl l.asid, gtid := gtid, va := l.va, pa := 0, key := 0, mask := l.dirty,
      data := l.data, psn := l.psn, owner := owner, waiters := waiters }
    match s.translateNow cl l.asid (l.va * 128) .writeBack with
    | (.ok e, s) => s.sendWb { w with pa := e.phys (l.va * 128), key := e.key, ac := e.ac }
    | (.error (c, _), s) =>
      if c = 0 then s.post s.ctl.lat.walk .writeBackAtHome (.wb { w with unsent := true })
      else (s.discardWb w c).updCluster cl fun k => k.l1Forget l.asid l.va l.dirty true

/-- Every line that `p` selects is written back, and stays clean. -/
def State.writeBackLines (s : State) (cl : Nat) (p : L1Line → Bool) (owner : Agent) (waiters : List Agent) : State :=
  let ls := (s.cluster cl).l1.filter p
  let s := ls.foldl (fun s l => s.writeBackLine cl l owner waiters) s
  let clean (l : L1Line) : L1Line := if p l then (if l.dirty = 0 then l else { l.scan.1 with dirty := 0 }) else l
  s.updCluster cl fun c => { c with l1 := c.l1.map clean }

/-- A new line takes its place; the line that stood there is written back first (R310). -/
def State.l1Install (s : State) (cl : Nat) (l : L1Line) : State :=
  let way := (s.cluster cl).victim l.va
  let old := (s.cluster cl).l1.find? fun x => l1Set x.va == l1Set l.va && x.way == way
  let s := match old with | some o => s.writeBackLine cl o .nobody [] | none => s
  s.updCluster cl fun c => c.l1Put { l with way := way }

/-- Write-backs of the cluster are in flight. -/
def State.wbInFlight (s : State) (cl : Nat) : Bool :=
  s.msgs.any fun m => match m.2 with | .wb w => w.cluster == cl | _ => false

/-- Some write-back in flight is awaited by this agent. -/
def State.awaits (s : State) (a : Agent) : Bool :=
  s.msgs.any fun m => match m.2 with | .wb w => w.waiters.contains a | _ => false

/-- The agent waits for every write-back of the cluster that is in flight. -/
def State.awaitWbs (s : State) (cl : Nat) (a : Agent) : State :=
  { s with msgs := s.msgs.map fun m => match m.2 with
      | .wb w => if w.cluster == cl && !w.waiters.contains a
          then (m.1, .wb { w with waiters := a :: w.waiters }) else m
      | _ => m }

/-- Scopes that reach beyond the cluster (R147). -/
def scopeWide (sc : Scope) : Bool := decide (3 ≤ sc.code)

/-- An agent awaits every write-back of its cluster that is in flight; with none it goes on in the next cycle. -/
def State.awaitAll (s : State) (cl : Nat) (a : Agent) : State :=
  let s := s.awaitWbs cl a
  if s.awaits a then s else s.wakeWaiter a

/-- Whose data the write-backs of an agent's release are: a matrix job's go as a thread's do (R377). -/
def State.dataOwner (s : State) (a : Agent) : Agent :=
  match a with
  | .job j => match s.job j with
    | some x => (match x.eng with | .cp | .cl => a | .mx | .qd => .nobody)
    | none => .nobody
  | a => a

/-- The cache action of a release (R147): at die scope and wider every dirty byte goes home and the agent awaits the
acknowledgements. -/
def State.releaseAct (s : State) (cl : Nat) (sc : Scope) (a : Agent) : State :=
  if scopeWide sc then (s.writeBackLines cl (fun l => l.dirty != 0) (s.dataOwner a) []).awaitAll cl a else s

/-- A release at this scope would have to wait. -/
def State.mustWait (s : State) (cl : Nat) (sc : Scope) : Bool :=
  scopeWide sc && ((s.cluster cl).l1.any (fun l => l.dirty != 0) || s.wbInFlight cl)

/-- An L1 without its clean bytes, but for sealed lines, of the lines that `p` selects. -/
def Cluster.dropClean (c : Cluster) (p : L1Line → Bool) : Cluster :=
  { c with l1 := (c.l1.map fun l => if p l && !l.sealedLine then { l with valid := l.valid &&& l.dirty } else l).filter fun l => l.valid != 0 }

/-- The cache action of an acquire (R147): at die scope and wider every unsealed line drops its clean bytes, and what a home read
before the acquire and still is on its way serves only who asked for it (R291, R292). -/
def State.acquireAct (s : State) (cl : Nat) (sc : Scope) : State :=
  if scopeWide sc then
    (s.updCluster cl fun c => c.dropClean fun _ => true).passFills
      fun r sl => r.cluster == cl && sl != some true && s.mayBeRead r sl
  else s

/-! ## Leaving and joining the rotation (R41 to R44) -/

/-- A thread is a member of a gang (R37). -/
def Thread.inGang (t : Thread) : Bool := pswGsz t.ctx.psw != 0

/-- A cluster is on until its gating has ended (R441): one that is off keeps no line and no TLB entry, and its cores do nothing. -/
def Cluster.isOn (c : Cluster) : Bool := c.powered || c.gatingCmd.isSome

/-- The thread that a slot holds. -/
def Slot.tid : Slot → Option Nat
  | .held t | .loading t _ => some t
  | .empty => none

/-- A slot's thread leaves the slot: the slot is empty. -/
def State.freeSlot (s : State) (tid : Nat) : State :=
  let t := s.thread tid
  match t.slot with
  | some _ =>
    if tid < 32768 then s
    else (s.updCore t.core fun c => { c with slots := c.slots.map fun x =>
        if (x.tid == some tid) then .empty else x }).updThread tid fun t => { t with slot := none }
  | none => s

/-- The thread leaves the rotation for a wait: a worker thread outside a gang gives up its slot (R40, R43, R37). -/
def State.leaveAs (s : State) (tid : Nat) (r : Run) : State :=
  let t := s.thread tid
  let s := s.updThread tid fun t => { t with run := r, aux := { t.aux with waitAt := s.ctl.cycle } }
  if tid < 32768 || t.inGang then s else s.freeSlot tid

/-- A worker thread's pond is saved. -/
def State.isSavedThread (s : State) (tid : Nat) : Bool :=
  decide (32768 ≤ tid) && (match s.threads.find tid with
  | some t => (match s.pond t.ident.pond with | some p => p.isSaved | none => false)
  | none => false)

/-- The thread's wait is over: a thread that keeps its slot goes on there, any other joins its core's FIFO at the tail
(R42); one whose pond is saved is ready in the save area (R342). A gang member that keeps its slot over a pre-emption acquires at its
first instruction (R343). -/
def State.rejoin (s : State) (tid : Nat) : State :=
  let t := s.thread tid
  if s.isSavedThread tid then s.updThread tid fun t => { t with run := .ready }
  else if t.slot.isSome then
    (match t.aux.firstAcq with
      | some sc => s.acquireAct (t.core / 8) sc
      | none => s).updThread tid fun t => { t with run := .active, aux := { t.aux with firstAcq := none } }
  else (s.updThread tid fun t => { t with run := .ready }).updCore t.core fun c => { c with fifo := c.fifo ++ [tid] }

/-- The members of a thread's gang in ascending core number; the thread alone when it is in none (R34, R37). -/
def State.gangOf (s : State) (tid : Nat) : List Nat :=
  let t := s.thread tid
  let n := 2 ^ pswGsz t.ctx.psw
  if n = 1 then [tid]
  else match t.slot with
    | some k =>
      let base := t.core / n * n
      (List.range n).filterMap fun i =>
        match ((s.core (base + i)).slots.toList.getD k .empty).tid with
        | some u => if pswGsz (s.thread u).ctx.psw = pswGsz t.ctx.psw then some u else none
        | none => none
    | none => [tid]

/-- The gang is disbanded: GSZ and GLEAD cleared in every member (R37, R262). -/
def State.disband (s : State) (tid : Nat) : State :=
  if (s.thread tid).inGang then
    (s.gangOf tid).foldl (fun s u =>
      let s := s.updThread u fun t => { t with ctx := { t.ctx with psw := putField (putField t.ctx.psw 38 2 0) 40 1 0 } }
      -- a member that was held while out of the rotation gives up its slot
      let t := s.thread u
      match t.run with
      | .active | .ready => s
      | _ => s.freeSlot u) s
  else s

/-! ## The end of a thread -/

/-- The address space of a thread: its cluster's crew's, or that of its saved pond. -/
def State.asidFor (s : State) (tid : Nat) : Nat :=
  if s.isSavedThread tid then (match s.pond (s.thread tid).ident.pond with | some p => p.asid | none => 0)
  else s.asidOf ((s.thread tid).core / 8)

/-- The record of a thread (R396). -/
def State.threadRec (s : State) (tid : Nat) (cause kind acc addr token : Nat) : FaultRec :=
  let t := s.thread tid
  { tenant := tenantOfGtid (s.gtidOf tid), cause := cause, kind := kind, acc := acc, asid := s.asidFor tid,
    gtid := s.gtidOf tid, rank := if tid < 32768 then 0xFFFFFFFF else t.ident.pondRank, pc := t.ctx.pc.toNat, addr := addr,
    word := t.word, core := t.core, token := token }

/-- A popped pair of the thread is no longer busy (R276), in its cluster's pool or in that of its saved pond. -/
def State.retirePair (s : State) (tid : Nat) : State :=
  let free (p : NetPool) : NetPool := { p with busy := p.busy - 1 }
  let saved := s.isSavedThread tid
  match (s.thread tid).aux.popped with
  | some cl =>
    let s := if saved then s.updPond (s.thread tid).ident.pond fun p =>
        { p with kept := p.kept.zip p.clusters |>.map fun x => if x.2 = cl then { x.1 with pool := free x.1.pool } else x.1 }
      else s.updCluster cl fun c => { c with pool := free c.pool }
    s.updThread tid fun t => { t with aux := { t.aux with popped := none } }
  | none => s

/-- The pond has ended: no live thread, no job outstanding (R336). The end itself is the row POND_END. -/
def State.checkPondEnd (s : State) (p : Nat) : State :=
  match s.pond p with
  | some x =>
    if x.live = 0 && !(s.jobs.any fun j => j.2.pond == p && !j.2.finished) && !x.isEnded && !s.scheduled .pondEnd p
    then s.later 1 .pondEnd p 0 0 else s
  | none => s

/-- The core whose TCM holds a job's record and operands. -/
def Job.tcmCore (x : Job) : Nat := if x.place = 0 then x.core else x.place - 1

/-- The run-queue entry by which a core counts a thread's jobs (R253): log 44 for the threads of slots 0 and 1. -/
def State.entryOf (s : State) (tid : Nat) : Nat := if tid < 32768 then 32 + tid % 2 else (s.thread tid).aux.entry

/-- Jobs that a run-queue entry of a core has issued and that have not completed (R253). -/
def State.entryJobs (s : State) (core entry : Nat) : Nat :=
  (s.jobs.filter fun j => !j.2.finished && j.2.tcmCore == core && j.2.entry == entry).length

/-- The lowest free entry of a core's run queue (R334). -/
def State.freeEntry (s : State) (core : Nat) : Nat :=
  (firstBelow (fun e => !(s.core core).entries.any fun u => (s.thread u).aux.entry == e) 32 0).getD 0

/-- The thread is gone: its run-queue entry is freed, its reservations stay (R258). -/
def State.endThread (s : State) (tid : Nat) : State :=
  let t := s.thread tid
  let p := t.ident.pond
  let s := (s.retirePair tid).freeSlot tid
  let s := s.updCore t.core fun c => { c with entries := c.entries.filter (· != tid), fifo := c.fifo.filter (· != tid) }
  let s := { s with threads := s.threads.erase tid }
  let s := s.updPond p fun x => { x with live := x.live - 1 }
  s.checkPondEnd p

/-- The thread ends as EXIT does: a release at device scope, then its end (R258, R402); the save of a saved thread was its release
(R340). -/
def State.exitThread (s : State) (tid : Nat) : State :=
  let cl := (s.thread tid).core / 8
  if s.mustWait cl .device && !s.isSavedThread tid then
    ((s.releaseAct cl .device (.thread tid)).updThread tid fun t => { t with cont := .exit }).leaveAs tid .waiting
  else s.endThread tid

/-- A system slot's thread that has nothing to do; a mark stays with the slot (R416). -/
def Thread.idleAgain (t : Thread) (tid : Nat) : Thread :=
  { Thread.initial tid with run := .idle, aux := { (Thread.initial tid).aux with mark := t.aux.mark } }

/-- Slot 1 has ended its handler and takes the next message (R266). -/
def State.handlerEnd (s : State) (tid : Nat) : State :=
  let core := tid / 2
  let s := (s.retirePair tid).updThread tid fun t => t.idleAgain tid
  let s := s.updCore core fun c => { c with net := { c.net with running := none } }
  if 0 < (s.core core).net.hUsed && !s.scheduled .handlerStart core then s.later 1 .handlerStart core 0 0 else s

/-! ## Taking an exception (R402, R407) and returning from one (R404) -/

/-- Trap entry of a worker thread whose pond has a handler and whose TND is below 255 (R402). -/
def Thread.trapEntry (t : Thread) (c epc addr : Nat) (word : BitVec 32) (handler : BitVec 32) : Thread :=
  { t with
    trap := { t.trap with cause := BitVec.ofNat 8 c, epc := BitVec.ofNat 32 epc, eaddr := BitVec.ofNat 57 addr, eword := word },
    ctx := { t.ctx with
      trw := putField t.ctx.trw 0 8 (field t.ctx.trw.toNat 0 8 + 1),
      psw := putField t.ctx.psw 36 2 1,
      pc := handler &&& 0xFFFFFFFC } }

/-- TRAPVEC as the thread's cluster holds it (R280), or the crew block of a saved pond (R341). -/
def State.trapvec (s : State) (tid : Nat) : BitVec 32 :=
  let t := s.thread tid
  if s.isSavedThread tid then
    match s.pond t.ident.pond with
    | some p => (match p.kept[t.aux.savedAt / 256]? with | some k => k.trapvec | none => 0)
    | none => 0
  else (s.cluster (t.core / 8)).regs.trapvec

/-- The access of an instruction word, as a record's ACC names it (R396): 0 a load, 1 a store, 3 an operation on an object, 4 a reserve or
log form. -/
def accOfWord (w : Nat) : Nat :=
  match w / 2 ^ 26 with
  | 0x01 => if w % 512 = 0x39 then 1 else 0
  | 0x02 => if w % 32 = 0x11 then 1 else 0
  | 0x0D => 1
  | 0x0E => if 5 ≤ w % 64 / 4 then 4 else if w % 64 / 4 = 2 ∨ w % 64 / 4 = 4 then 1 else 0
  | 0x0F => 4
  | 0x10 => if w % 64 = 8 ∨ w % 64 = 9 then 3 else if w % 64 = 6 ∨ w % 64 = 7 ∨ w % 64 = 0x0E then 1 else 0
  | 0x11 => if w % 64 = 1 then 1 else if w % 64 = 2 ∨ w % 64 = 3 then 3 else 0
  | 0x12 => if w % 512 / 8 = 0 then 0 else 1
  | 0x14 | 0x15 | 0x28 => 3
  | 0x26 => if w % 512 = 2 then 3 else 0
  | _ => 0

/-- ACC of the record of a trap: the access of the word that met the cause, 2 for a fetch, whose word is 0; 0 for a cause that no access
meets (log 79). -/
def trapAcc (c : Nat) (word : BitVec 32) : Nat :=
  if (0x20 ≤ c ∧ c ≤ 0x2D) ∨ (0x40 ≤ c ∧ c ≤ 0x4B) ∨ c = 0xA1 then (if word = 0 then 2 else accOfWord word.toNat) else 0

/-- Taking an exception with cause `c` at the instruction of offset `pc` (R402): a worker thread enters its handler, or ends when none
is set or TND is 255; a gang is disbanded (R37); slot 1 ends its handler (R266) and slot 0 restarts at its firmware entry (R407). A
record names the instruction by its own offset, whatever EPC is (R396). -/
def State.takeTrap (s : State) (tid c pc epc addr : Nat) (word : BitVec 32) : State :=
  let acc := trapAcc c word
  if tid < 32768 then
    if tid % 2 = 1 then
      let hd := match (s.core (tid / 2)).net.running with | some h => h.toNat | none => 0
      let r := s.threadRec tid c 4 acc 0 0
      (s.postRec { r with addr := hd, pc := pc, word := word }).handlerEnd tid
    else
      let r := s.threadRec tid c 4 acc addr 0
      let s := s.postMeq { r with pc := pc, word := word }
      let s := s.updThread tid fun t => { t with ctx := { t.ctx with pc := 0 }, cont := .none }
      s.updCore (tid / 2) fun k => { k with net := { k.net with lastPushed := 0 } }
  else
    let s := s.disband tid
    let t := s.thread tid
    if (s.trapvec tid) &&& 0xFFFFFFFC = 0 then
      (s.postRec { s.threadRec tid c 5 acc addr 0 with pc := pc, word := word }).exitThread tid
    else if field t.ctx.trw.toNat 0 8 = 255 then
      (s.postRec { s.threadRec tid 0xA2 5 acc addr 0 with pc := pc, word := word }).exitThread tid
    else
      (s.updThread tid fun t => { t.trapEntry c epc addr word (s.trapvec tid) with
        cont := .none, aux := { t.aux with sample := none } })

/-- Returning from an exception (R404): the pc from EPC, TND lowered, LVL 0 with it at 0. The caller has checked that TND
is not 0. -/
def Thread.trapReturn (t : Thread) : Thread :=
  let tnd := field t.ctx.trw.toNat 0 8 - 1
  { t with ctx := { t.ctx with
      trw := putField t.ctx.trw 0 8 tnd,
      psw := if tnd = 0 then putField t.ctx.psw 36 2 0 else t.ctx.psw,
      pc := t.trap.epc &&& 0xFFFFFFFC } }

/-! ## Completing an instruction -/

/-- The acting thread has completed its word and goes on at `npc`: causes after the effect (R403) and a breakpoint at the
word (R412) are raised, the lowest first; a thread that was out of the rotation joins again. -/
def State.complete (s : State) (npc : BitVec 32) (executed : Bool) : State :=
  let tid := s.ctl.acting
  let t := s.thread tid
  let was := t.run
  let task := s.servedTask tid
  let bp := executed && !s.isSlot0 && s.breakpoint task t.ctx.pc.toNat
  let cause : Option (Nat × Nat) := match s.ctl.after, bp with
    | some (c, a), true => if c < 0xA0 then some (c, a) else some (0xA0, 0)
    | some x, false => some x
    | none, true => some (0xA0, 0)
    | none, false => none
  let s := s.updCtl fun c => { c with after := none }
  let s := s.updThread tid fun t => { t with ctx := { t.ctx with pc := npc }, cont := .none }
  let s := match cause with
    | some (c, a) =>
      let s := if c = 0xA0 && bp then s.countHit task true
        else if c = 0xA1 then s.countHit task false else s
      s.takeTrap tid c t.ctx.pc.toNat npc.toNat a t.word
    | none => s
  match was with
  | .active => s
  | _ => match s.threads.find tid with
    | some t => match t.run with
      | .active | .idle => s
      | _ => match t.cont with | .none => s.rejoin tid | _ => s
    | none => s

/-- The acting thread executes its word in lockstep with others (R37): it is in a gang, or was when the word issued. -/
def State.lockstep (s : State) : Bool := s.me.inGang || !s.ctl.lock.isEmpty

/-- A word of FMA, whatever its register fields hold (R101): RQ decides before they are checked (R80, R215). -/
def isFma (w : Nat) : Bool := w / 2 ^ 26 == 0x1D && w % 2 ^ 9 == 3

/-- The guard of a word holds for the acting thread (R77). -/
def guardHolds (s : State) (gd : Guard) : Bool :=
  pswPred s.me.ctx.psw (gd.toNat % 16) != bit gd.toNat 4

/-- The end of an instruction's body. -/
def State.finish (s : State) (r : Except Exit (BitVec 32 × State)) : State :=
  match r with
  | .ok (npc, s') => s'.complete npc true
  | .error .replay =>
    -- a word that had left the rotation is issued again like any other (R12)
    match s.me.run with
    | .active => s
    | _ => (s.updMe fun t => { t with cont := .none }).rejoin s.ctl.acting
  | .error (.trap c a) =>
    let tid := s.ctl.acting
    let t := s.thread tid
    let s' := s.takeTrap tid c t.ctx.pc.toNat t.ctx.pc.toNat a t.word
    match t.run, s'.threads.find tid with
    | .active, _ => s'
    | _, some t' => match t'.cont with | .none => s'.rejoin tid | _ => s'
    | _, none => s'
  | .error (.wait second why f) =>
    let tid := s.ctl.acting
    let keep := match (s.thread tid).cont with | .second => true | _ => false
    let since := (s.thread tid).aux.waitAt
    let s' := ((f s).updThread tid fun t => { t with
      cont := if second || keep then .second else .retry, aux := { t.aux with why := why } }).leaveAs tid .waiting
    -- a word that waits again keeps its place among those that wait (R271)
    if s.ctl.retry then s'.updThread tid fun t => { t with aux := { t.aux with waitAt := since } } else s'
  | .error (.leave s') => s'

/-- An instruction that names where the thread goes on: under its guard its body, else nothing but the next word
(R81). -/
def performTo (gd : Guard) (s : State) (body : M (BitVec 32)) : Host.Outcome State Fault Refusal :=
  if guardHolds s gd then .next (s.finish (body.run s))
  else .next (s.complete (s.me.ctx.pc + 4) false)

/-- An instruction that goes on at the next word. -/
def perform (gd : Guard) (s : State) (body : M Unit) : Host.Outcome State Fault Refusal :=
  performTo gd s do
    body
    pure (s.me.ctx.pc + 4)

/-! ## Registers (R10 to R12) -/

/-- Words of slot 0's messages that no core has accepted yet, and of the one being assembled (R264, R373): DESIGN CHOICE, unsafe, log 75. -/
def State.txUsed (s : State) (core : Nat) : Nat :=
  let n := (s.core core).net
  n.tx.length + ((n.retrying ++ n.sent).map fun i => match s.msgs.find i with
    | some (.net m _) => (match m.sender with | .thread t => if t = 2 * core then 1 + m.payload.length else 0 | _ => 0)
    | _ => 0).sum

/-- The gq word (R264). -/
def State.gqWord (s : State) (core : Nat) : Word :=
  let n := (s.core core).net
  BitVec.ofNat 64 (n.rx.length + (64 - s.txUsed core) * 2 ^ 8 + b2n (!n.rx.isEmpty && n.rxLeft == 0) * 2 ^ 16)

/-- A read of g8 by slot 0: the head of the receive queue, or the word is issued again (R12). A word that names g8 in several fields pops
once for each, in the order in which its meaning reads them (rd, ra, rb): DESIGN CHOICE, unsafe, log 68. -/
def popRx : M Word := do
  let s ← get
  let core := s.me.core
  let n := (s.core core).net
  match n.rx with
  | [] => throw .replay
  | w :: t => do
    let left := if n.rxLeft = 0 then hdrLen w else n.rxLeft - 1
    let ten := if n.rxLeft = 0 then hdrTen w else n.ten
    let s := s.updCore core fun c => { c with net := { n with rx := t, rxLeft := left, ten := ten } }
    set (if 0 < n.sUsed && !s.scheduled .streamMessageMove core then s.later 1 .streamMessageMove core 0 0 else s)
    pure w

/-- A complete message handed to the network (R264, R265): behind a message of the same sender to the same core that is under way or
retries, it waits in the interface, so that the messages keep their order (R373; log 72); the torus or the fabric takes it otherwise
(R362). -/
def State.sendNet (s : State) (m : NetMsg) : State :=
  let n := (s.core m.srcCore).net
  let held := (n.retrying ++ n.sent).any fun i => match s.msgs.find i with
    | some (.net x _) => x.sameFlow m
    | _ => false
  let i := s.ctl.nextMsg
  let s := s.addMsg (.net m (hdrCore m.header))
  let s := s.updCluster (m.srcCore / 8) fun c => { c with probe := { c.probe with count := c.probe.count + 1 } }
  if held then s.updCore m.srcCore fun c => { c with net := { c.net with retrying := c.net.retrying ++ [i] } }
  else (s.updCore m.srcCore fun c => { c with net := { c.net with sent := c.net.sent ++ [i] } }).sendMessage m i

/-- A write of g9 by slot 0 (R12, R264). -/
def pushTx (w : Word) : M Unit := do
  let s ← get
  let core := s.me.core
  let n := (s.core core).net
  if 64 ≤ s.txUsed core then throw .replay
  if n.dropping && n.txLeft != 0 then
    set (s.updCore core fun c => { c with net := { n with lastPushed := w, txLeft := n.txLeft - 1 } })
  else if n.txLeft = 0 then
    if 1 < hdrKind w || 8 < hdrLen w then
      set (s.updCore core fun c => { c with net := { n with
        lastPushed := w, dropping := true, txLeft := hdrLen w, badHeaders := n.badHeaders + 1 } })
    else if hdrLen w = 0 then
      set ((s.updCore core fun c => { c with net := { n with lastPushed := w, dropping := false, ten := hdrTen w } }).sendNet
        { header := w, payload := [], sender := .thread s.ctl.acting, srcCore := core })
    else
      set (s.updCore core fun c => { c with net := { n with
        lastPushed := w, dropping := false, ten := hdrTen w, txHead := some w, tx := [w], txLeft := hdrLen w } })
  else if n.txLeft = 1 then
    set ((s.updCore core fun c => { c with net := { n with lastPushed := w, tx := [], txHead := none, txLeft := 0 } }).sendNet
      { header := n.txHead.getD 0, payload := (n.tx.drop 1) ++ [w], sender := .thread s.ctl.acting, srcCore := core })
  else
    set (s.updCore core fun c => { c with net := { n with lastPushed := w, tx := n.tx ++ [w], txLeft := n.txLeft - 1 } })

/-- The read of a register operand without a k8 field (R10, R11, R12). -/
def readReg (r : Reg) : M Word := do
  let s ← get
  match r with
  | .g n =>
    if s.isSlot0 && n.val == 8 then popRx
    else if s.isSlot0 && n.val == 9 then pure (s.core s.me.core).net.lastPushed
    else pure s.me.ctx.g[n]
  | .gz => pure 0
  | .k => throw (.trap 0x04 0)
  | .gq => if s.isSlot0 then pure (s.gqWord s.me.core) else throw (.trap 0x04 0)

/-- The write of a register operand (R10, R12). -/
def writeReg (r : Reg) (v : Word) : M Unit := do
  let s ← get
  match r with
  | .g n =>
    if s.isSlot0 && n.val == 8 then pure ()
    else if s.isSlot0 && n.val == 9 then pushTx v
    else set (s.updMe fun t => { t with ctx := { t.ctx with g := t.ctx.g.set n v } })
  | .gz | .k | .gq => pure ()

/-- The codes of a range of a cluster's memories are checked as it is read (R324). -/
def State.checkCodes (s : State) (cl key n : Nat) : State :=
  let (m, one, lost) := s.mem.scan key n
  if one = 0 ∧ lost = 0 then s else { s with mem := m }.updCluster cl fun c => c.countErrors one lost

/-- A poisoned word read from a cluster's memories is counted (R326). -/
def State.countPoison (s : State) (cl : Nat) : State := s.updCluster cl fun c => { c with psnread := sat32 c.psnread }

/-- Entry n of the constant window (R25). A poisoned word of it reads zero (R143). -/
def State.kEntry (s : State) (core n : Nat) : Word := BitVec.ofNat 64 (leNat (s.mem.readClean (tcmKey core (8 * n)) 8))

/-- What a read of an entry of the constant window does beside its value: its code is checked and its poison counted (R324, R326).
Through a k8 field poison sets no flag: DESIGN CHOICE, unsafe, log 77. -/
def State.kTouch (s : State) (core n : Nat) : State :=
  let s := s.checkCodes (core / 8) (tcmKey core (8 * n)) 8
  if (s.mem.firstPoison (tcmKey core (8 * n)) 8).isSome then s.countPoison (core / 8) else s

/-- The read of an entry of the acting core's constant window. -/
def readK (k : BitVec 8) : M Word := do
  let s ← get
  let core := s.me.core
  set (s.kTouch core k.toNat)
  pure ((s.kTouch core k.toNat).kEntry core k.toNat)

/-- The read of a register operand in a format with a k8 field (R10). -/
def readRegK (r : Reg) (k : BitVec 8) : M Word :=
  match r with
  | .k => readK k
  | r => readReg r

/-- The write of a predicate (R14). -/
def writePred (p : Pred) (b : Bool) : M Unit :=
  modify fun s => s.updMe fun t => { t with ctx := { t.ctx with psw := pswSetPred t.ctx.psw p.toNat b } }

/-- The read of a predicate. -/
def readPred (p : Pred) : M Bool := do
  let s ← get
  pure (pswPred s.me.ctx.psw p.toNat)

/-- Sticky flags set (R15). -/
def orFlags (f : Byte) : M Unit :=
  modify fun s => s.updMe fun t => { t with ctx := { t.ctx with psw := pswOrFlags t.ctx.psw f } }

/-- A cause to be raised after the effect; the lowest stays (R403). -/
def raiseAfter (c addr : Nat) : M Unit :=
  modify fun s => s.updCtl fun x => { x with after := match x.after with
    | some (d, a) => if c < d then some (c, addr) else some (d, a)
    | none => some (c, addr) }

/-! ## Segment checks (R21, R22) -/

/-- The rights that a segment check asks for. -/
inductive Right where
  | r | w | x | o
  deriving DecidableEq, Repr

/-- A segment has a right. -/
def Seg.has (g : Seg) : Right → Bool
  | .r => g.r
  | .w => g.w
  | .x => g.x
  | .o => g.o

/-- The limit that R21 checks; for scratchpad space R22's effective limit with the crew's S. -/
def Seg.effLimit (g : Seg) (spad : Nat) : Nat :=
  match g.space with
  | .scratch => if spad ≤ g.base.toNat then 0 else min g.limit.toNat (spad - g.base.toNat)
  | _ => g.limit.toNat

/-- A range that does not lie in a segment: past its limit, or past the end of TCM (R21, R22, R24). -/
def Seg.beyond (g : Seg) (spad o n : Nat) : Bool :=
  decide (g.effLimit spad < o + n) || (g.space == .tcm && decide (0x7000 < g.base.toNat + o + n))

/-- The check of R21 with R22 and R24: the cause that fails first, if any. -/
def Seg.check (g : Seg) (spad o n : Nat) (right : Right) (natural : Nat) : Option Nat :=
  if g.beyond spad o n then some 0x20
  else if !g.has right then some 0x21
  else if o % natural != 0 then some 0x22
  else none

/-- chk() of R21: the sum of base and offset. -/
def chk (g : Seg) (o n : Nat) (right : Right) (natural : Nat) : M Nat := do
  let s ← get
  match g.check (s.spadSize s.myCluster) o n right natural with
  | some c => throw (.trap c ((g.base.toNat + o) % 2 ^ 57))
  | none => pure (g.base.toNat + o)

/-- The range check of R385. -/
def chkRange (e : Nat) : M Unit := if 2 ^ 57 ≤ e then throw (.trap 0x2C (e % 2 ^ 57)) else pure ()

/-- A segment register of the acting thread. -/
def segReg (i : Nat) : M Seg := do
  let s ← get
  pure (s.me.segs.toList.getD i {})

/-- The checks of R179: s4, 16 bytes or more, right O, object space, range. The address of the object. -/
def chkObj (a : Nat) (n : Nat) : M Nat := do
  let g ← segReg 4
  let e ← chk g a n .o 16
  if g.space ≠ .object then throw (.trap 0x24 e)
  chkRange e
  pure e

end Sys2Proof.Machine
end

