-- ==== Sys2Proof/Machine/Operands.lean ====
section
/-! DEFINITION. Operand forms that reach memory beside the core: the constant window, the TCM and the scratchpad, with the
range scoreboard (R157) and the full/empty lines (R158), and what poisoned data does (R143). -/

namespace Sys2Proof.Machine

/-- Two ranges share a byte. -/
def overlap (a n b m : Nat) : Bool := decide (a < b + m) && decide (b < a + n) && decide (0 < n) && decide (0 < m)

/-- A load of a TCM range waits for a copy in flight (R157). -/
def Core.loadWaits (c : Core) (off n : Nat) : Bool := c.scb.any fun e => overlap off n e.dst e.dstLen

/-- A store to a TCM range waits for a copy in flight (R157). -/
def Core.storeWaits (c : Core) (off n : Nat) : Bool :=
  c.scb.any fun e => overlap off n e.dst e.dstLen || overlap off n e.src e.srcLen

/-- A scratchpad range touches an empty line (R158). -/
def Cluster.lineWaits (c : Cluster) (off n : Nat) : Bool := c.empties.any fun l => overlap off n (128 * l) 128

/-- What poisoned data does to the thread that loads it (R143): MERR, a count, and 0x28 after the effect when MTE is set;
`addr` is the address of the first poisoned byte. -/
def poisonSeen (addr : Nat) : M Unit := do
  orFlags 64
  let s ← get
  if pswMte s.me.ctx.psw then raiseAfter 0x28 (addr % 2 ^ 57)

/-- The codes of a range of the cluster's memories are checked as it is read (R324). -/
def scanCodes (cl key n : Nat) : M Unit := modify fun s => s.checkCodes cl key n

/-- The words of a range that a store of it does not cover whole are read before the store merges into them (R324). -/
def scanPartial (cl key n : Nat) : M Unit := do
  if key % 8 != 0 then scanCodes cl key 1
  if (key + n) % 8 != 0 then scanCodes cl (key + n - 1) 1

/-- A poisoned word read from the cluster's memories is counted (R326). -/
def countPsn (cl : Nat) : M Unit := modify fun s => s.countPoison cl

/-- A TCM load of the acting core at an offset: it waits on the scoreboard and meets poison; `ea` is the address that a
trap names. -/
def tcmLoad (off n ea : Nat) : M (List Byte) := do
  let s ← get
  let core := s.me.core
  if (s.core core).loadWaits off n then throw (.wait false .scb id)
  scanCodes (core / 8) (tcmKey core off) n
  let s ← get
  match s.mem.firstPoison (tcmKey core off) n with
  | none => pure (s.mem.read (tcmKey core off) n)
  | some a => do
    countPsn (core / 8)
    poisonSeen (ea + (a - tcmKey core off))
    pure (s.mem.readClean (tcmKey core off) n)

/-- A TCM store of the acting core at an offset. -/
def tcmStore (off : Nat) (bs : List Byte) : M Unit := do
  let s ← get
  let core := s.me.core
  if (s.core core).storeWaits off bs.length then throw (.wait false .scb id)
  scanPartial (core / 8) (tcmKey core off) bs.length
  let s ← get
  set { s with mem := (s.mem.write (tcmKey core off) bs).clearPoison (tcmKey core off) bs.length }

/-- A scratchpad load of the acting cluster at an offset. -/
def spadLoad (off n ea : Nat) : M (List Byte) := do
  let s ← get
  let cl := s.myCluster
  if (s.cluster cl).lineWaits off n then throw (.wait false .line id)
  scanCodes cl (spadKey cl off) n
  let s ← get
  match s.mem.firstPoison (spadKey cl off) n with
  | none => pure (s.mem.read (spadKey cl off) n)
  | some a => do
    countPsn cl
    poisonSeen (ea + (a - spadKey cl off))
    pure (s.mem.readClean (spadKey cl off) n)

/-- A scratchpad store of the acting cluster at an offset. -/
def spadStore (off : Nat) (bs : List Byte) : M Unit := do
  let s ← get
  let cl := s.myCluster
  if (s.cluster cl).lineWaits off bs.length then throw (.wait false .line id)
  scanPartial cl (spadKey cl off) bs.length
  let s ← get
  set { s with mem := (s.mem.write (spadKey cl off) bs).clearPoison (spadKey cl off) bs.length }

/-- The offset of a TCM operand that an instruction names through s3 (R472): R21's checks, then TCM space. -/
def tcmOperand (off n : Nat) (right : Right) (natural : Nat) : M Nat := do
  let g ← segReg 3
  let e ← chk g off n right natural
  if g.space ≠ .tcm then throw (.trap 0x24 (e % 2 ^ 57))
  pure e

/-! ## Results that arrive later (R13, R42) -/

/-- A slot-0 word whose result goes to g9 issues only when the send queue has room for it (R12). -/
def chkTx (rd : Option Reg) : M Unit := do
  let s ← get
  if rd = some (.g 9) && s.isSlot0 && decide (64 ≤ s.txUsed s.me.core) then throw .replay

/-- A waiting word of a thread completes now: `body` writes its results; `late` is a cause that follows. -/
def State.completeBy (s : State) (tid : Nat) (late : Option (Nat × Nat)) (body : M Unit) : State :=
  let s := s.updCtl fun c => { c with acting := tid, retry := false, after := late, lock := [] }
  s.finish ((do body; pure (s.me.ctx.pc + 4) : M (BitVec 32)).run s)

/-- A waiting word of a thread traps precisely now (R402). -/
def State.trapBy (s : State) (tid c addr : Nat) : State :=
  let s := s.updCtl fun x => { x with acting := tid, retry := false, after := none, lock := [] }
  s.finish (.error (.trap c addr))

end Sys2Proof.Machine
end

