-- ==== Sys2Proof/Machine/Flags.lean ====
section
/-! DEFINITION. The sticky flags by their place in STATUS[31:24] (R14), and the integer results with the flags that R128 and
R47 give them. -/

namespace Sys2Proof.Machine

def flagNV : Byte := 1
def flagDZ : Byte := 2
def flagOF : Byte := 4
def flagUF : Byte := 8
def flagNX : Byte := 16
def flagZD : Byte := 32
def flagMERR : Byte := 64
def flagSAT : Byte := 128

/-- The smallest signed word, the dividend of R128's overflow row. -/
def minWord : Word := 0x8000000000000000

/-- DIV with its flags (R128). -/
def divU (a b : Word) : Word × Byte :=
  if b = 0 then (0xFFFFFFFFFFFFFFFF, flagDZ) else (BitVec.ofNat 64 (a.toNat / b.toNat), 0)

/-- DIVS with its flags (R128). -/
def divS (a b : Word) : Word × Byte :=
  if b = 0 then (0xFFFFFFFFFFFFFFFF, flagDZ)
  else if a = minWord ∧ b = 0xFFFFFFFFFFFFFFFF then (minWord, flagOF)
  else (BitVec.ofInt 64 (Int.tdiv a.toInt b.toInt), 0)

/-- REM with its flags (R128). -/
def remU (a b : Word) : Word × Byte :=
  if b = 0 then (a, flagDZ) else (BitVec.ofNat 64 (a.toNat % b.toNat), 0)

/-- REMS with its flags (R128). -/
def remS (a b : Word) : Word × Byte :=
  if b = 0 then (a, flagDZ)
  else if a = minWord ∧ b = 0xFFFFFFFFFFFFFFFF then (0, flagOF)
  else (BitVec.ofInt 64 (Int.tmod a.toInt b.toInt), 0)

/-- Sat() of R47 for signed lanes of `w` bits: the lane and the SAT flag. -/
def satS (w : Nat) (v : Int) : Nat × Byte :=
  let hi : Int := 2 ^ (w - 1) - 1
  let lo : Int := -(2 ^ (w - 1))
  if hi < v then (wrapInt w hi, flagSAT) else if v < lo then (wrapInt w lo, flagSAT) else (wrapInt w v, 0)

/-- Sat() of R47 for unsigned lanes. -/
def satU (w : Nat) (v : Int) : Nat × Byte :=
  let hi : Int := 2 ^ w - 1
  if hi < v then (wrapInt w hi, flagSAT) else if v < 0 then (0, flagSAT) else (wrapInt w v, 0)

end Sys2Proof.Machine
end

