-- ==== Sys2Proof/Machine/Memory.lean ====
section
/-! DEFINITION. Majors 0x0C to 0x0E and the ordered accesses, fences and cache forms of 0x10 (R139 to R159): loads and
stores of every space, RMT (R31), releases and acquires. -/

namespace Sys2Proof.Machine

/-! ## What an access leaves beside its data -/

/-- A cluster lies in a pond. -/
def State.inPond (s : State) (p cl : Nat) : Bool :=
  match s.pond p with
  | some x => x.clusters.contains cl
  | none => false

/-- rmt_update of R31 for an access homed at `pa`: the word, and the cluster of a migration request. -/
def rmtStep (s : State) (t : Thread) (pa : Nat) : Word × Option Nat :=
  let w := t.ctx.rmt
  let beside := s.isLocal pa && sliceOf pa == t.core / 8
  let h := devOf pa * 2 ^ 11 + field pa 36 3 * 2 ^ 8 + sliceOf pa % 256
  let lrv := bit w.toNat 39
  let rac := field w.toNat 0 16
  let w := if beside then putField (putField w 0 16 0) 39 1 0
    else if lrv && field w.toNat 16 23 == h then putField w 0 16 (min (rac + 1) 65535)
    else putField (putField (putField w 16 23 h) 39 1 1) 0 16 1
  let thr := (s.cluster (t.core / 8)).regs.migthr.toNat
  if thr ≠ 0 && decide (thr ≤ field w.toNat 0 16) && s.isLocal pa && s.inPond t.ident.pond (sliceOf pa) && !beside then
    (putField (putField w 0 16 0) 39 1 0, some (sliceOf pa))
  else (w, none)

/-- RMT updated by an access of the acting thread (R31); a request waits for the access to complete. The threads of slots 0 and 1 do not
leave their slots (R40), so that a request of theirs is dropped. -/
def State.countRmt (s : State) (pa : Nat) : State :=
  let tid := s.ctl.acting
  let (w, req) := rmtStep s s.me pa
  let req := if tid < 32768 then none else req
  let s := s.updMe fun t => { t with
    ctx := { t.ctx with rmt := w },
    aux := { t.aux with migReq := match req with | some c => some c | none => t.aux.migReq } }
  if req.isSome && !s.scheduled .hardwareMigration tid then s.later 1 .hardwareMigration tid 0 0 else s

/-- The same as an instruction's effect. -/
def rmtUpdate (pa : Nat) : M Unit := modify fun s => s.countRmt pa

/-- An access of the acting thread that may wait for a line counts once, when it issues (R31). -/
def State.countOnce (s : State) (pa : Nat) : State :=
  if s.me.aux.counted then s else (s.countRmt pa).updMe fun t => { t with aux := { t.aux with counted := true } }

/-- An access that is not executed again has not been counted. -/
def State.countAfresh (s : State) : State :=
  if s.ctl.retry || !s.me.aux.counted then s else s.updMe fun t => { t with aux := { t.aux with counted := false } }

/-- A body that may wait for a line, and with its access counted when it does or when it is done (R31). -/
def counting {α : Type} (pa : Nat) (body : M α) : M α := fun s =>
  match body.run s with
  | .error (.wait again .fill f) => .error (.wait again .fill fun s => f (s.countOnce pa))
  | .ok (a, s) => .ok (a, s.countAfresh.countOnce pa |>.updMe fun t => { t with aux := { t.aux with counted := false } })
  | r => r

/-- A watchpoint match of the acting thread raises 0xA1 after the effect; slot 0 is not checked (R412). -/
def watchAccess (va n dir : Nat) : M Unit := do
  let s ← get
  if !s.isSlot0 && s.watchpoint (s.servedTask s.ctl.acting) va n dir then raiseAfter 0xA1 va

/-- The same for each of several accesses of one word: the first that matches is raised. -/
def watchAll : List (Nat × Nat × Nat) → M Unit
  | [] => pure ()
  | (va, n, dir) :: rest => do
    watchAccess va n dir
    watchAll rest

/-- A load of the acting task thread is counted for sampling, and every SPER-th carries a tag (R419); a word that is
executed again has been counted. -/
def State.sampleLoad (s : State) (va : Nat) : State :=
  if s.ctl.retry || decide (s.ctl.acting < 32768) then s
  else
    let cl := s.myCluster
    let t := (s.cluster cl).trace
    if t.sper = 0 then s
    else if t.count + 1 < t.sper then s.updCluster cl fun c => { c with trace := { t with count := t.count + 1 } }
    else
      (s.updCluster cl fun c => { c with trace := { t with count := 0 } }).updMe fun t =>
        { t with aux := { t.aux with sample := some { since := s.ctl.cycle, va := va } } }

/-- A load's body with its sampling and its counting (R31), which a wait of the body keeps. -/
def sampling {α : Type} (va : Nat) (body : M α) : M α := fun s =>
  match body.run (s.sampleLoad va) with
  | .error (.wait again why f) => .error (.wait again why fun s => f (s.sampleLoad va).countAfresh)
  | r => r

/-- Cycles up to now spent at a level, `n` of them at another (R419). -/
def Sample.spend (x : Sample) (now lvl : Nat) : Sample :=
  { x with since := now, spent := x.spent.set lvl (x.spent.get 0 lvl + (now - x.since)) }

/-- The level at which a sampled load's data pass the networks: the cluster L1, the omega network, another die, another device. -/
def Sample.net (x : Sample) : Nat := if 6 ≤ x.level then x.level else if 4 ≤ x.level then 3 else 2

/-- What is noted of the sampled load of a thread. -/
def State.updSample (s : State) (tid : Nat) (f : Sample → Sample) : State :=
  match (s.thread tid).aux.sample with
  | some x => s.updThread tid fun t => { t with aux := { t.aux with sample := some (f x) } }
  | none => s

/-- A sampled load's request reaches its slice: the eft's cycles are the slice's, those before the network's (R419); log 23. -/
def State.sampleArrives (s : State) (who : Agent) (cl pa : Nat) : State :=
  match who with
  | .thread tid => s.updSample tid fun x =>
    let own := decide (field pa 36 3 = cl / 256)
    let eft := min s.ctl.lat.eft (s.ctl.cycle - x.since)
    { (x.spend (s.ctl.cycle - eft) (if own then 3 else 6)).spend s.ctl.cycle 4 with level := if own then 4 else 6 }
  | _ => s

/-- The line of a sampled load has come from HBM (R419). -/
def State.sampleHbm (s : State) (who : Agent) : State :=
  match who with
  | .thread tid => s.updSample tid fun x => { x.spend s.ctl.cycle 5 with level := if x.level = 4 then 5 else x.level }
  | _ => s

/-- The hop record of a sampled load that completes: the level that served it and the cycles spent at each (R418, R419);
log 23. A load that traps writes none. -/
def State.hopRecord (s : State) (tid : Nat) : State :=
  let t := s.thread tid
  match t.aux.sample with
  | some x =>
    if s.ctl.after.isSome || s.breakpoint (s.servedTask tid) t.ctx.pc.toNat then
      s.updThread tid fun t => { t with aux := { t.aux with sample := none } }
    else
    let y := x.spend s.ctl.cycle x.net
    let w (i : Nat) : Word :=
      BitVec.ofNat 64 ((List.range 4).map fun k => min (y.spent.get 0 (4 * i + k)) 65535 * 2 ^ (16 * k)).sum
    (s.traceRec (t.core / 8) 1
      [BitVec.ofNat 64 (t.ctx.gtid.toNat * 2 ^ 32 + t.ctx.pc.toNat), BitVec.ofNat 64 (x.level * 2 ^ 61 + x.va % 2 ^ 57), w 0, w 1]).updThread
      tid fun t => { t with aux := { t.aux with sample := none } }
  | none => s

/-- A sampled load is served by another device. -/
def State.servedBy (s : State) (tid pa : Nat) : State :=
  if s.isLocal pa then s else s.updSample tid fun x => { x with level := 7 }

/-! ## Requests to homes -/

/-- The acting thread leaves the rotation and awaits what `c` says. -/
def State.leaveWith (s : State) (c : Cont) : State :=
  let c := match c with
    | .reply t => .reply { t with late := s.ctl.after }
    | .send r t => .send r { t with late := s.ctl.after }
    | c => c
  (s.updMe fun t => { t with cont := c }).leaveAs s.ctl.acting .waiting

/-- The thread leaves the rotation and its reply with these results comes at once (R41). -/
def leaveReply (t : Take) (r : Reply) : M Unit := do
  chkTx t.rd
  let s ← get
  throw (.leave ((s.leaveWith (.reply t)).post 1 .replyArrival (.reply (.thread s.ctl.acting) r)))

/-- A release by the acting thread; when there is something to wait for, the word is executed again afterwards (R147). -/
def releaseM (sc : Scope) : M Unit := do
  let s ← get
  let cl := s.myCluster
  if s.me.cont = .second then pure ()
  else if s.mustWait cl sc then throw (.wait true .fill fun s => s.releaseAct cl sc (.thread s.ctl.acting))
  else pure ()

/-- An acquire by the acting thread (R147). -/
def acquireM (sc : Scope) : M Unit := modify fun s => s.acquireAct s.myCluster sc

/-! ## Global space through the cluster L1 (R145) -/

/-- The bytes of a line from `off`, with zero for each byte of a word that arrived poisoned and is not all dirty (R313). -/
def L1Line.bytes (l : L1Line) (off : Nat) : Nat → List Byte
  | 0 => []
  | n + 1 =>
    let w := off / 8
    (if bit l.psn.toNat w && field l.dirty.toNat (8 * w) 8 != 255 then 0 else BitVec.ofNat 8 (field l.data.toNat (8 * off) 8))
      :: L1Line.bytes l (off + 1) n

/-- The first byte of a range of a line that lies in a poisoned word some covered byte of which is not dirty (R313). -/
def L1Line.poisonAt (l : L1Line) (off n : Nat) : Option Nat :=
  firstBelow (fun i => let w := i / 8
    decide (off ≤ i) && decide (i < off + n) && bit l.psn.toNat w && field l.dirty.toNat (8 * w) 8 != 255) 128 0

/-- A line of the cluster's L1 is read: it is the most recently used, and its codes are checked (R310, R324). -/
def Cluster.l1Read (c : Cluster) (l : L1Line) : Cluster :=
  let (l, one, lost) := l.scan
  (c.l1Put l).countErrors one lost

/-- The cluster's bytes of one piece, or the thread leaves for a fill (R145). -/
def loadPiece (tag : Byte) (va n : Nat) : M (List Byte) := do
  let e ← translate va .load
  let s ← get
  let cl := s.myCluster
  let asid := s.asidOf cl
  let m := byteMask (va % 128) n
  match (s.cluster cl).l1Find asid (va / 128) with
  | some l =>
    if l.valid &&& m = m then
      set (s.updCluster cl fun c => c.l1Read l)
      let l := l.scan.1
      match l.poisonAt (va % 128) n with
      | some i => do countPsn cl; poisonSeen (va / 128 * 128 + i)
      | none => pure ()
      pure (l.bytes (va % 128) n)
    else throw (.wait false .fill (fill cl asid e))
  | none => throw (.wait false .fill (fill cl asid e))
where
  /-- the fill request -/
  fill (cl asid : Nat) (e : TlbEntry) (s : State) : State :=
    s.toSlice
    { who := .thread s.ctl.acting, fill := true, va := va / 128 * 128, pa := e.phys va / 128 * 128, n := 128,
      asid := asid, tenant := s.tenantOf cl, key := e.key, ac := e.ac, cluster := cl, tag := tag }

/-- A plain load from global space. The table access of SEG.LD goes through it too and counts in RMT: DESIGN CHOICE, unsafe, log 62
(R31 lists global loads and R160 makes the access one, but R31's list does not name the form). -/
def globalLoad (tag : Byte) (va n : Nat) : M (List Byte) := do
  chkRange va
  sampling va do
    let e ← translate va .load
    let parts ← counting (e.phys va) ((pieces va n).mapM fun p => loadPiece tag p.1 p.2)
    watchAccess va n 2
    modify fun s => s.hopRecord s.ctl.acting
    pure parts.flatten

/-- The line with stored bytes: valid and dirty, or clean for a write-through; the write tag set, the poison of fully dirty words
and of words that the store covers whole cleared (R143, R313). -/
def L1Line.store (l : L1Line) (off : Nat) (bs : List Byte) (tag : Byte) (dirty : Bool) : L1Line :=
  let m := byteMask off bs.length
  let d := if dirty then l.dirty ||| m else l.dirty &&& ~~~m
  { l with
    data := mergeBytes l.data (BitVec.ofNat 1024 (leNat bs * 2 ^ (8 * off))) m,
    valid := l.valid ||| m, dirty := d, tag := tag,
    psn := l.psn &&& ~~~(BitVec.ofNat 16 (fullWords d 16)) &&& ~~~(BitVec.ofNat 16 (fullWords m 16)) }

/-- A line of which no byte is held. -/
def freshLine (asid line : Nat) : L1Line :=
  { va := line, asid := asid, way := 0, tag := 0, sealedLine := false, valid := 0, dirty := 0, psn := 0, data := 0, used := 0 }

/-- The bytes put into the cluster L1 at an address of one line (R145). -/
def State.storeLine (s : State) (cl asid va : Nat) (bs : List Byte) (tag : Byte) (dirty : Bool) : State :=
  match (s.cluster cl).l1Find asid (va / 128) with
  | some l => s.updCluster cl fun c => c.l1Put (l.store (va % 128) bs tag dirty)
  | none => s.l1Install cl ((freshLine asid (va / 128)).store (va % 128) bs tag dirty)

/-- The store of one piece may be made: its translation is there and no sealed line is hit (R146). -/
def storeCheck (va n : Nat) : M TlbEntry := do
  let e ← translate va .store
  let s ← get
  let cl := s.myCluster
  match (s.cluster cl).l1Find (s.asidOf cl) (va / 128) with
  | some l => if l.sealedLine then throw (.trap 0x23 va) else pure e
  | none => if n = 0 then pure e else pure e

/-- A plain store to global space; the table access of SEG.NARROW is one, and counts in RMT as SEG.LD's does: log 62. -/
def globalStore (tag : Byte) (va : Nat) (bs : List Byte) : M Unit := do
  chkRange va
  let n := bs.length
  for p in pieces va n do
    let _ ← storeCheck p.1 p.2
  let e ← storeCheck va n
  modify fun s => (pieces va n).foldl (fun s p =>
    s.storeLine s.myCluster (s.asidOf s.myCluster) p.1 ((bs.drop (p.1 - va)).take p.2) tag true) s
  rmtUpdate (e.phys va)
  watchAccess va n 1

/-! ## Object space, performed at the home (R145, R295) -/

/-- Where the bytes of an access from the page boundary on lie, when it crosses one (R142); log 63. -/
def secondPage (e : TlbEntry) (va n : Nat) (k : AccKind) : M (Option (Nat × Nat × Nat)) := do
  let left := 2 ^ e.size - va % 2 ^ e.size
  if n ≤ left then pure none
  else do
    chkRange (va + left)
    let f ← translate (va + left) k
    pure (some (left, f.phys (va + left), f.key))

/-- The dirty bytes that a cluster holds of a range go home ahead of a request that acts on it there (R145, R292). -/
def State.flushRange (s : State) (cl asid va n : Nat) : State :=
  let hit (l : L1Line) : Bool := l.asid == asid && (pieces va n).any fun p =>
    l.va == p.1 / 128 && l.dirty &&& byteMask (p.1 % 128) p.2 != 0
  if (s.cluster cl).l1.any hit then s.writeBackLines cl hit .nobody [] else s

/-- A load at the home; the thread leaves, and `t` says what the reply does. -/
def homeLoad (va n : Nat) (obj : Bool) (t : Take) : M Unit := do
  chkRange va
  chkTx t.rd
  chkTx t.rd2
  sampling va do
    let e ← translate va .load
    let two ← secondPage e va n .load
    rmtUpdate (e.phys va)
    let s ← get
    let cl := s.myCluster
    let s := s.servedBy s.ctl.acting (e.phys va)
    let s := if obj then s.flushRange cl (s.asidOf cl) va n else s
    throw (.leave ((s.toSlice
      { who := .thread s.ctl.acting, fill := false, va := va, pa := e.phys va, n := n, asid := s.asidOf cl,
        tenant := s.tenantOf cl, key := e.key, ac := e.ac, cluster := cl, obj := obj, split := two }).leaveWith
        (.reply { t with addr := va, watch := [(va, n, 2)] })))

/-- A store at the home; the thread leaves until it is acknowledged. -/
def homeStore (va : Nat) (bs : List Byte) (obj : Bool) : M Unit := do
  chkRange va
  let e ← translate va (if obj then .object else .store)
  let two ← secondPage e va bs.length (if obj then .object else .store)
  rmtUpdate (e.phys va)
  let s ← get
  let cl := s.myCluster
  let s := if obj then s.flushRange cl (s.asidOf cl) va bs.length else s
  throw (.leave ((s.toSlice
    { who := .thread s.ctl.acting, fill := false, write := some bs, va := va, pa := e.phys va,
      n := bs.length, asid := s.asidOf cl, tenant := s.tenantOf cl, key := e.key, ac := e.ac, cluster := cl, obj := obj, split := two }).leaveWith
      (.reply { addr := va, watch := [(va, bs.length, 1)] })))

/-! ## Loads and stores of any space (R144) -/

/-- What a loaded value of `t.bytes` bytes becomes in a register (R144). -/
def Take.value (t : Take) (bs : List Byte) : Word :=
  if t.sext then sextWord (8 * t.bytes) (leNat bs) else BitVec.ofNat 64 (leNat bs)

/-- The registers of a load written. -/
def takeLoad (t : Take) (bs : List Byte) : M Unit := do
  match t.rd with
  | some rd => writeReg rd (t.value (bs.take t.bytes))
  | none => pure ()
  match t.rd2 with
  | some rd => writeReg rd (BitVec.ofNat 64 (leNat (bs.drop 8)))
  | none => pure ()

/-- A load of `n` bytes through a segment (R139, R144, R145). -/
def load (g : Seg) (o n : Nat) (t : Take) : M Unit := do
  let e ← chk g o n .r n
  match g.space with
  | .tcm => do
    let bs ← tcmLoad e n e
    takeLoad t bs
  | .scratch => do
    let bs ← spadLoad e n e
    takeLoad t bs
  | .global => do
    let bs ← globalLoad g.tag e n
    takeLoad t bs
  | .object => homeLoad e n true t

/-- A store of bytes through a segment (R139, R144, R145). -/
def store (g : Seg) (o : Nat) (bs : List Byte) : M Unit := do
  let e ← chk g o bs.length .w bs.length
  match g.space with
  | .tcm => tcmStore e bs
  | .scratch => spadStore e bs
  | .global => globalStore g.tag e bs
  | .object => homeStore e bs true

/-- The bytes of a size (R78). -/
def Size.bytes : Size → Nat
  | .b => 1
  | .h => 2
  | .w => 4
  | .d => 8

/-- The offset of an M-format operand (R139). -/
def offsetK (ra : Reg) (k : BitVec 8) : M Nat := do
  let a ← readRegK ra k
  let b ← readK k
  pure (a + b).toNat

/-- The offset of an MR-format operand (R139). -/
def offsetRR (ra rb : Reg) : M Nat := do
  let a ← readReg ra
  let b ← readReg rb
  pure (a + b).toNat

/-- The register above a pair's first (R144). -/
def pairSecond : Reg → Reg
  | .g n => if h : n.val + 1 < 10 then .g ⟨n.val + 1, h⟩ else .gz
  | r => r

/-- LD (R144). -/
def execLd (gd : Guard) (rd ra : Reg) (sg : Fin 8) (k : BitVec 8) (sz : Size) (s : State) :
    Host.Outcome State Fault Refusal :=
  perform gd s do
    let o ← offsetK ra k
    let g ← segReg sg.val
    load g o (Size.bytes sz) { rd := some rd, bytes := Size.bytes sz }

/-- ST (R144). -/
def execSt (gd : Guard) (rd ra : Reg) (sg : Fin 8) (k : BitVec 8) (sz : Size) (s : State) :
    Host.Outcome State Fault Refusal :=
  perform gd s do
    let v ← readRegK rd k
    let o ← offsetK ra k
    let g ← segReg sg.val
    store g o (leBytes (Size.bytes sz) v.toNat)

/-- LDS (R144). -/
def execLds (gd : Guard) (rd ra : Reg) (sg : Fin 8) (rb : Reg) (sz : Size) (s : State) :
    Host.Outcome State Fault Refusal :=
  perform gd s do
    let o ← offsetRR ra rb
    let g ← segReg sg.val
    load g o (Size.bytes sz) { rd := some rd, bytes := Size.bytes sz, sext := true }

/-- LD with a register index (R144). -/
def execLdRr (gd : Guard) (rd ra : Reg) (sg : Fin 8) (rb : Reg) (sz : Size) (s : State) :
    Host.Outcome State Fault Refusal :=
  perform gd s do
    let o ← offsetRR ra rb
    let g ← segReg sg.val
    load g o (Size.bytes sz) { rd := some rd, bytes := Size.bytes sz }

/-- ST with a register index (R144). -/
def execStRr (gd : Guard) (rd ra : Reg) (sg : Fin 8) (rb : Reg) (sz : Size) (s : State) :
    Host.Outcome State Fault Refusal :=
  perform gd s do
    let v ← readReg rd
    let o ← offsetRR ra rb
    let g ← segReg sg.val
    store g o (leBytes (Size.bytes sz) v.toNat)

/-- LDP (R144). -/
def execLdp (gd : Guard) (rd ra : Reg) (sg : Fin 8) (rb : Reg) (s : State) : Host.Outcome State Fault Refusal :=
  perform gd s do
    let o ← offsetRR ra rb
    let g ← segReg sg.val
    load g o 16 { rd := some rd, bytes := 8, rd2 := some (pairSecond rd) }

/-- STP (R144). -/
def execStp (gd : Guard) (rd ra : Reg) (sg : Fin 8) (rb : Reg) (s : State) : Host.Outcome State Fault Refusal :=
  perform gd s do
    let v ← readReg rd
    let w ← readReg (pairSecond rd)
    let o ← offsetRR ra rb
    let g ← segReg sg.val
    store g o (leBytes 8 v.toNat ++ leBytes 8 w.toNat)

/-! ## Fences and ordered accesses (R147, R148) -/

/-- FENCE.ACQ (R147). -/
def execFenceAcq (gd : Guard) (sc : Scope) (s : State) : Host.Outcome State Fault Refusal :=
  perform gd s (acquireM sc)

/-- FENCE.REL (R147). -/
def execFenceRel (gd : Guard) (sc : Scope) (s : State) : Host.Outcome State Fault Refusal :=
  perform gd s (releaseM sc)

/-- FENCE.FULL (R147): it takes the next place in the total fence order (R291). -/
def execFenceFull (gd : Guard) (sc : Scope) (s : State) : Host.Outcome State Fault Refusal :=
  perform gd s do
    releaseM sc
    acquireM sc
    modify fun s => s.updDev fun d => { d with fences := d.fences + 1 }

/-- LD.ACQ of `n` bytes (R148). -/
def ldAcq (n : Nat) (gd : Guard) (rd ra : Reg) (sc : Scope) (sg : Fin 8) (s : State) :
    Host.Outcome State Fault Refusal :=
  perform gd s do
    let a ← readReg ra
    let g ← segReg sg.val
    if g.space = .global ∧ scopeWide sc then do
      let e ← chk g a.toNat n .r n
      homeLoad e n false { rd := some rd, bytes := n, acq := some sc, merge := true }
    else do
      load g a.toNat n { rd := some rd, bytes := n, acq := some sc }
      acquireM sc

/-- ST.REL of `n` bytes (R148). -/
def stRel (n : Nat) (gd : Guard) (rd ra : Reg) (sc : Scope) (sg : Fin 8) (s : State) :
    Host.Outcome State Fault Refusal :=
  perform gd s do
    let v ← readReg rd
    let a ← readReg ra
    let g ← segReg sg.val
    let e ← chk g a.toNat n .w n
    releaseM sc
    if g.space = .global ∧ scopeWide sc then do
      chkRange e
      for p in pieces e n do
        let _ ← storeCheck p.1 p.2
      modify fun s => (pieces e n).foldl (fun s p => s.storeLine s.myCluster (s.asidOf s.myCluster) p.1
        (((leBytes n v.toNat).drop (p.1 - e)).take p.2) g.tag false) s
      homeStore e (leBytes n v.toNat) false
    else store g a.toNat (leBytes n v.toNat)

/-- LD.ACQ.W (R148). -/
def execLdAcqW (gd : Guard) (rd ra : Reg) (sc : Scope) (sg : Fin 8) (s : State) : Host.Outcome State Fault Refusal :=
  ldAcq 4 gd rd ra sc sg s

/-- LD.ACQ.D (R148). -/
def execLdAcqD (gd : Guard) (rd ra : Reg) (sc : Scope) (sg : Fin 8) (s : State) : Host.Outcome State Fault Refusal :=
  ldAcq 8 gd rd ra sc sg s

/-- ST.REL.W (R148). -/
def execStRelW (gd : Guard) (rd ra : Reg) (sc : Scope) (sg : Fin 8) (s : State) : Host.Outcome State Fault Refusal :=
  stRel 4 gd rd ra sc sg s

/-- ST.REL.D (R148). -/
def execStRelD (gd : Guard) (rd ra : Reg) (sc : Scope) (sg : Fin 8) (s : State) : Host.Outcome State Fault Refusal :=
  stRel 8 gd rd ra sc sg s

/-! ## Cache forms (R156) and SCB.WAIT (R159) -/

/-- PREF (R156): a failing check or translation drops the request. -/
def execPref (gd : Guard) (ra : Reg) (sg : Fin 8) (s : State) : Host.Outcome State Fault Refusal :=
  perform gd s do
    let a ← readReg ra
    let g ← segReg sg.val
    let s ← get
    let cl := s.myCluster
    let e := g.base.toNat + a.toNat
    if g.effLimit (s.spadSize cl) < a.toNat + 1 || g.space ≠ .global || decide (2 ^ 57 ≤ e) then pure ()
    else
      let asid := s.asidOf cl
      match (s.cluster cl).lookup asid e .prefetch with
      | (some t, c) =>
        if (match c.l1Find asid (e / 128) with | some l => l.valid == BitVec.allOnes 128 | none => false) then set (s.setCluster cl c)
        else set ((s.setCluster cl c).toSlice
          { who := .nobody, fill := true, va := e / 128 * 128, pa := t.phys e / 128 * 128, n := 128,
            asid := asid, tenant := s.tenantOf cl, key := t.key, ac := t.ac, cluster := cl, tag := g.tag })
      | (none, c) => set ((s.setCluster cl c).startWalk ⟨cl, asid, s.tenantOf cl, e, .prefetch, .nobody, g.tag⟩)

/-- CWB (R156): the line's dirty bytes go home and the thread waits for the acknowledgement. It is none of the forms that complete in the
pipe (R41), so that its reply comes also where it has nothing to write. -/
def execCwb (gd : Guard) (ra : Reg) (sg : Fin 8) (s : State) : Host.Outcome State Fault Refusal :=
  perform gd s do
    let a ← readReg ra
    let g ← segReg sg.val
    let e ← chk g a.toNat 1 .r 1
    if g.space = .global then do
      chkRange e
      let _ ← translate e .load
      let s ← get
      let cl := s.myCluster
      let asid := s.asidOf cl
      match (s.cluster cl).l1Find asid (e / 128) with
      | some l =>
        if l.dirty ≠ 0 && s.me.cont ≠ .second then
          throw (.wait true .fill fun s =>
            let a : Agent := .thread s.ctl.acting
            let s := s.writeBackLines cl (fun x => x.asid == asid && x.va == e / 128) a [a]
            if s.awaits a then s else s.wakeWaiter a)
      | none => pure ()
    let s ← get
    if s.me.cont = .second then pure () else leaveReply {} {}

/-- CDROP (R156). -/
def execCdrop (gd : Guard) (ra : Reg) (sg : Fin 8) (s : State) : Host.Outcome State Fault Refusal :=
  perform gd s do
    let a ← readReg ra
    let g ← segReg sg.val
    let e ← chk g a.toNat 1 .w 1
    if g.space = .global then do
      chkRange e
      let _ ← translate e .cacheDrop
      modify fun s => s.updCluster s.myCluster fun c => c.l1Drop (s.asidOf s.myCluster) (e / 128)
    else pure ()

/-- SCB.WAIT (R159). -/
def execScbWait (gd : Guard) (ra rb : Reg) (s : State) : Host.Outcome State Fault Refusal :=
  perform gd s do
    let a ← readReg ra
    let b ← readReg rb
    let s ← get
    let c := s.core s.me.core
    if (b = 0 && !c.scb.isEmpty) || (b ≠ 0 && c.storeWaits a.toNat b.toNat) then throw (.wait false .scb id)

end Sys2Proof.Machine
end

