-- ==== Sys2Proof/Machine/Atomics.lean ====
section
/-! DEFINITION. Reserve and release atomics, logged updates, seals, segment capabilities and remote accesses (R149 to
R167): what the issuing thread does. What the homes do is in Home. -/

namespace Sys2Proof.Machine

/-! ## Requests -/

/-- The names by which a reservation of the acting thread is identified (R149, R473): GTID, pond ID and TSN; a handler of a
core stands beside the tadpoles: log 9. -/
def State.myIdent (s : State) : BitVec 32 × Nat × BitVec 32 :=
  let t := s.me
  if s.ctl.acting < 32768 then (t.ctx.gtid, 2 ^ 32 * (1 + s.ctl.acting), t.ident.tsn)
  else (t.ctx.gtid, (match s.pond t.ident.pond with | some p => p.id.toNat | none => 0), t.ident.tsn)

/-- A request of the acting thread for the home of `va`. -/
def State.request (s : State) (e : TlbEntry) (va : Nat) (op : HomeOp) (sc : Scope) : HomeReq :=
  let cl := s.myCluster
  let g := s.me.segs[4]
  { who := .thread s.ctl.acting, op := op, va := va, pa := e.phys va, segBase := g.base.toNat, segLimit := g.limit.toNat,
    asid := s.asidOf cl, tenant := s.agentTenant (.thread s.ctl.acting), scope := sc, cluster := cl, key := e.key, ac := e.ac,
    ident := s.myIdent }

/-- The bytes that a watchpoint sees of a request (R412): the word of a reserve form, the granules of an object of the form's type. What
else its home meets, a queue's slot or the second granule of a freed object, its answer says. -/
def HomeOp.bytes : HomeOp → Nat
  | .rsv n | .rls n _ | .rlsx n => n
  | .init ty _ => if ty = 4 ∨ ty = 6 ∨ ty = 7 then 32 else 16
  | .qPut _ _ | .qTryput _ _ | .qGet _ | .qTryget _ | .giveCheck | .give _ | .take | .seal _ _ _ | .unseal => 32
  | _ => 16

/-- The thread sends a request and leaves; with `rel` a release at the scope comes first (R179, R182). -/
def sendAsked (e : TlbEntry) (va : Nat) (op : HomeOp) (sc : Scope) (rel : Bool) (t : Take) : M Unit := do
  chkTx t.rd
  let s ← get
  let cl := s.myCluster
  let r := s.request e va op sc
  if rel && s.mustWait cl sc then
    throw (.leave ((s.releaseAct cl sc (.thread s.ctl.acting)).leaveWith (.send r t)))
  else throw (.leave ((s.toHome r).leaveWith (.reply t)))

/-- The same for the forms that R31 counts and R412 checks. -/
def sendRequest (e : TlbEntry) (va : Nat) (op : HomeOp) (sc : Scope) (rel : Bool) (t : Take) : M Unit := do
  chkTx t.rd
  rmtUpdate (e.phys va)
  match op with
  | .rsv n | .rls n _ | .rlsx n => modify fun s => s.flushRange s.myCluster (s.asidOf s.myCluster) va n
  | _ => pure ()
  sendAsked e va op sc rel { t with watch := [(va, op.bytes, 3)] }

/-! ## Reserve and release (R149) -/

/-- The two checks of a reserve or logged form (R139, R140). -/
def chkBoth (g : Seg) (o n : Nat) : M Nat := do
  let _ ← chk g o n .r n
  let e ← chk g o n .w n
  if g.space ≠ .global ∧ g.space ≠ .object then throw (.trap 0x24 (e % 2 ^ 57))
  chkRange e
  pure e

/-- A reserve form: the checks, then the request. R140 checks the alignment of the offset; no reservation is made at an address that is
not aligned either, which a base that is not aligned gives (R149): DESIGN CHOICE, log 66. -/
def reserve (gd : Guard) (ra rb : Reg) (sg : Fin 8) (n : Nat) (op : M HomeOp) (t : Take) (s : State) :
    Host.Outcome State Fault Refusal :=
  perform gd s do
    let op ← op
    let o ← offsetRR ra rb
    let g ← segReg sg.val
    let e ← chkBoth g o n
    if e % n ≠ 0 then throw (.trap 0x22 (e % 2 ^ 57))
    let tr ← translate e .reserve
    sendRequest tr e op .device false { t with addr := e }

/-- RSV (R149). -/
def execRsv (gd : Guard) (rd ra : Reg) (sg : Fin 8) (rb : Reg) (sz : Size) (s : State) :
    Host.Outcome State Fault Refusal :=
  reserve gd ra rb sg (Size.bytes sz) (pure (.rsv (Size.bytes sz))) { rd := some rd } s

/-- RLS (R149). -/
def execRls (gd : Guard) (rd ra : Reg) (sg : Fin 8) (rb : Reg) (sz : Size) (s : State) :
    Host.Outcome State Fault Refusal :=
  reserve gd ra rb sg (Size.bytes sz) (do let v ← readReg rd; pure (.rls (Size.bytes sz) v)) {} s

/-- RLSX (R149). -/
def execRlsx (gd : Guard) (ra : Reg) (sg : Fin 8) (rb : Reg) (sz : Size) (s : State) :
    Host.Outcome State Fault Refusal :=
  reserve gd ra rb sg (Size.bytes sz) (pure (.rlsx (Size.bytes sz))) {} s

/-! ## Logged updates (R152) -/

/-- Entries that a slice's log area holds or is about to hold. -/
def State.logLoad (s : State) (sl : Nat) : Nat :=
  (s.slice sl).log.length + (s.slice sl).logWait.length +
    (s.msgs.filter fun m => match m.2 with | .append e _ => sliceOf e.pa == sl | _ => false).length

/-- The log area of a slice's die is full, 32 bytes an entry (R320). -/
def State.logFull (s : State) (sl n : Nat) : Bool := decide ((s.die (sl / 256)).cfg.log < 32 * (n + 1))

/-- The pond key and slice of a thread's appends (R152). -/
def State.logEntry (s : State) (t : Thread) (pa : Nat) (op : LogOp) (n : Nat) (v : Word) : LogEntry :=
  let p := s.pond t.ident.pond
  { pa := pa, op := op, n := n, val := BitVec.ofNat 64 (v.toNat % 2 ^ (8 * n)), keyDev := s.dev.id,
    keyCount := match p with | some x => x.key | none => 0,
    slice := (match p with | some x => x.id.toNat | none => 0) * 2 ^ 32 + t.ident.pondRank.toNat, seq := 0 }

/-- The OP 0x06 packet data of an append: operator, size and value. -/
def LogOp.code : LogOp → Nat
  | .add => 0
  | .fadd => 1
  | .min => 2
  | .max => 3
  | .or => 4

/-- An append on its way to its home; the pond's end and its phase ends ask a home on another device to merge it (R301; log 21). -/
def State.sendAppend (s : State) (e : LogEntry) (who : Agent) (cl tenant : Nat) : State :=
  if s.isLocal e.pa then s.toDie cl (field e.pa 36 3) tenant 0 (dataFlits 8) (.append e who)
  else
    let split := match e.split with | some (n, pa, key) => leBytes 8 n ++ leBytes 8 pa ++ leBytes 8 key | none => []
    let note (p : Nat × Pond) : Nat × Pond :=
      if p.2.key = e.keyCount && !p.2.logDevs.contains (devOf e.pa) then (p.1, { p.2 with logDevs := devOf e.pa :: p.2.logDevs }) else p
    (s.updDev fun d => { d with ponds := d.ponds.map note }).toFabric (cl / 256) (s.sagt who cl) (devOf e.pa) tenant 0 true 0x06 e.pa
      (BitVec.ofNat 64 (e.op.code * 16 + e.n)) (leBytes 8 e.val.toNat ++ leBytes 8 e.keyCount ++ leBytes 8 e.slice ++ split) (.append e who)

/-- A logged update (R152): posted, or the thread leaves until the home's log area has room. -/
def logged (op : LogOp) (gd : Guard) (rd ra : Reg) (sg : Fin 8) (rb : Reg) (n : Nat) (s : State) :
    Host.Outcome State Fault Refusal :=
  perform gd s do
    let v ← readReg rd
    let o ← offsetRR ra rb
    let g ← segReg sg.val
    let va ← chkBoth g o n
    let tr ← translate va .reserve
    let two ← secondPage tr va n .reserve
    rmtUpdate (tr.phys va)
    watchAccess va n 1
    modify fun s => s.updMe fun t => { t with aux := { t.aux with appends := t.aux.appends + 1 } }
    modify fun s => s.probeCount s.myCluster 1
    let s ← get
    let e := { s.logEntry s.me (tr.phys va) op n v with key := tr.key, split := two, cluster := s.myCluster, ac := tr.ac }
    let sl := sliceOf e.pa
    let who : Agent := .thread s.ctl.acting
    let wait := s.isLocal e.pa && s.logFull sl (s.logLoad sl)
    let s' := s.sendAppend { e with waits := wait } who s.myCluster (s.agentTenant who)
    if wait then throw (.leave (s'.leaveWith (.reply {}))) else set s'

/-- LOG.ADD (R152). -/
def execLogAdd (gd : Guard) (rd ra : Reg) (sg : Fin 8) (rb : Reg) (sz : Size) (s : State) :
    Host.Outcome State Fault Refusal :=
  logged .add gd rd ra sg rb (Size.bytes sz) s

/-- LOG.FADD (R152). -/
def execLogFadd (gd : Guard) (rd ra : Reg) (sg : Fin 8) (rb : Reg) (s : State) : Host.Outcome State Fault Refusal :=
  logged .fadd gd rd ra sg rb 4 s

/-- LOG.MIN (R152). -/
def execLogMin (gd : Guard) (rd ra : Reg) (sg : Fin 8) (rb : Reg) (sz : Size) (s : State) :
    Host.Outcome State Fault Refusal :=
  logged .min gd rd ra sg rb (Size.bytes sz) s

/-- LOG.MAX (R152). -/
def execLogMax (gd : Guard) (rd ra : Reg) (sg : Fin 8) (rb : Reg) (sz : Size) (s : State) :
    Host.Outcome State Fault Refusal :=
  logged .max gd rd ra sg rb (Size.bytes sz) s

/-- LOG.OR (R152). -/
def execLogOr (gd : Guard) (rd ra : Reg) (sg : Fin 8) (rb : Reg) (sz : Size) (s : State) :
    Host.Outcome State Fault Refusal :=
  logged .or gd rd ra sg rb (Size.bytes sz) s

/-! ## Seals (R154, R155) -/

/-- SEAL (R154). EADDR of the checks on `t` is the record's address: DESIGN CHOICE, log 67. -/
def execSeal (gd : Guard) (ra : Reg) (sc : Scope) (rb : Reg) (s : State) : Host.Outcome State Fault Refusal :=
  perform gd s do
    let a ← readReg ra
    let b ← readReg rb
    let r ← chkObj a.toNat 16
    let t ← segReg (b.toNat % 8)
    if t.limit = 0 then throw (.trap 0x20 r)
    if !t.s then throw (.trap 0x21 r)
    if t.space ≠ .global then throw (.trap 0x24 r)
    let tr ← translate r .object
    sendRequest tr r (.seal t.base.toNat t.limit.toNat sc) sc true {}

/-- UNSEAL (R155). -/
def execUnseal (gd : Guard) (rd ra : Reg) (sc : Scope) (s : State) : Host.Outcome State Fault Refusal :=
  perform gd s do
    let a ← readReg ra
    let r ← chkObj a.toNat 16
    let tr ← translate r .object
    sendRequest tr r .unseal sc false { rd := some rd, acq := some sc }

/-! ## Segment capabilities (R160 to R163) -/

/-- The address of an entry of the task's segment table (R328). -/
def State.segEntry (s : State) (gtid : BitVec 32) (sel : Nat) : Nat :=
  (match s.dev.tasks.find gtid.toNat with | some t => t.segtab | none => 0) + 32 * sel

/-- A segment register of the acting thread set. -/
def setSeg (i : Nat) (g : Seg) : M Unit :=
  modify fun s => s.updMe fun t => { t with segs := t.segs.setIfInBounds i g }

/-- SEG.LD (R160). -/
def execSegLd (gd : Guard) (rd : Fin 8) (ra : Reg) (s : State) : Host.Outcome State Fault Refusal :=
  perform gd s do
    let a ← readReg ra
    let sel := a.toNat % 256
    let s ← get
    let bs ← if sel = 0 then pure [] else globalLoad 0 (s.segEntry (s.servedTask s.ctl.acting) sel) 32
    modify fun s => s.updMe fun t => { t with ctx := { t.ctx with sel := t.ctx.sel.set rd (BitVec.ofNat 8 sel) } }
    setSeg rd.val (if sel = 0 then {} else segOf (wordsOf 4 bs))

/-- The selector of a segment register of the acting thread. -/
def selOf (i : Fin 8) : M Nat := do
  let s ← get
  pure (s.me.ctx.sel[i]).toNat

/-- SEG.NARROW (R160). EADDR of its checks is the new base: DESIGN CHOICE, log 67. -/
def execSegNarrow (gd : Guard) (rd : Fin 8) (ra rb : Reg) (s : State) : Host.Outcome State Fault Refusal :=
  perform gd s do
    let a ← readReg ra
    let b ← readReg rb
    let sel ← selOf rd
    let g ← segReg rd.val
    let ea := (g.base.toNat + a.toNat) % 2 ^ 57
    if sel = 0 then throw (.trap 0x21 ea)
    if g.limit.toNat < a.toNat + b.toNat then throw (.trap 0x20 ea)
    let h := { g with base := BitVec.ofNat 57 (g.base.toNat + a.toNat), limit := BitVec.ofNat 58 b.toNat }
    let s ← get
    globalStore 0 (s.segEntry (s.servedTask s.ctl.acting) sel) (bytesOf h.words)
    setSeg rd.val h

/-- SEG.GIVE (R161): the queue's type is asked of its home; its answer starts the release, then comes the put, and the write right goes
when the queue has taken the capability over (R163). EADDR of the checks on `sd` is the queue's address: DESIGN CHOICE, log 67. -/
def execSegGive (gd : Guard) (rd : Fin 8) (ra : Reg) (sc : Scope) (s : State) : Host.Outcome State Fault Refusal :=
  perform gd s do
    let a ← readReg ra
    let q ← chkObj a.toNat 16
    let sel ← selOf rd
    let g ← segReg rd.val
    if sel = 0 || !g.g || !g.w then throw (.trap 0x21 q)
    if g.space ≠ .global then throw (.trap 0x24 q)
    let tr ← translate q .object
    let s ← get
    let _ ← storeCheck (s.segEntry (s.servedTask s.ctl.acting) sel) 32
    let s ← get
    sendRequest tr q .giveCheck sc false { sd := some rd.val, next := some (s.request tr q (.give g) sc), give := true }

/-- SEG.TAKE (R162); EADDR of the check on `sd` is the queue's address: log 67. -/
def execSegTake (gd : Guard) (rd : Fin 8) (ra : Reg) (s : State) : Host.Outcome State Fault Refusal :=
  perform gd s do
    let a ← readReg ra
    let q ← chkObj a.toNat 16
    let sel ← selOf rd
    if sel = 0 then throw (.trap 0x21 q)
    let tr ← translate q .object
    let s ← get
    let _ ← storeCheck (s.segEntry (s.servedTask s.ctl.acting) sel) 32
    sendRequest tr q .take .device false { sd := some rd.val }

/-! ## Remote accesses (R164) -/

/-- A remote access on its way to slot 1 of the target core (R164, R364); another device's core is reached through the
fabric as a message (log 21). -/
def State.sendRemote (s : State) (a : Word) (r : Remote) : State :=
  let cl := s.myCluster
  let tenant := s.agentTenant (.thread s.ctl.acting)
  let dev := field a.toNat 16 12
  if dev = s.dev.id then
    let i := s.ctl.nextMsg
    (s.addMsg (.remote r)).inject cl (r.core / 8) 2 1 tenant i
  else
    let sp := match r.sp with | .tcm => 0 | .scratch => 1
    s.toFabric (cl / 256) (s.sagt r.who cl) dev tenant 2 true 0x07 0
      (BitVec.ofNat 64 (r.core + sp * 2 ^ 14 + r.n * 2 ^ 15 + b2n r.nibble * 2 ^ 19 + b2n r.val.isSome * 2 ^ 20))
      (leBytes 8 r.off ++ leBytes 8 (r.val.getD 0).toNat ++ leBytes 4 r.gtid.toNat) (.remote r)

/-- A remote access: the request goes and the thread leaves until the reply. -/
def remoteAccess (a b : Word) (sp : RSpace) (n : Nat) (nibble : Bool) (val : Option Word) (t : Take) : M Unit := do
  chkTx t.rd
  let s ← get
  let r : Remote := ⟨.thread s.ctl.acting, s.servedTask s.ctl.acting, a.toNat % 2 ^ 14, sp, b.toNat, n, nibble, val⟩
  throw (.leave ((s.sendRemote a r).leaveWith (.reply t)))

/-- LDX (R164). -/
def execLdx (gd : Guard) (rd ra rb : Reg) (sp : RSpace) (sz : Size) (s : State) : Host.Outcome State Fault Refusal :=
  perform gd s do
    let a ← readReg ra
    let b ← readReg rb
    remoteAccess a b sp (Size.bytes sz) false none { rd := some rd, bytes := Size.bytes sz, addr := b.toNat }

/-- STX (R164). A slot-0 word that names g8 more than once pops the port once for each, rd's word first, then ra's, then rb's: DESIGN
CHOICE, unsafe, log 68. -/
def execStx (gd : Guard) (rd ra rb : Reg) (sp : RSpace) (sz : Size) (s : State) : Host.Outcome State Fault Refusal :=
  perform gd s do
    let v ← readReg rd
    let a ← readReg ra
    let b ← readReg rb
    remoteAccess a b sp (Size.bytes sz) false (some v) {}

/-- STX.N4 (R164). -/
def execStxN4 (gd : Guard) (rd ra rb : Reg) (sp : RSpace) (s : State) : Host.Outcome State Fault Refusal :=
  perform gd s do
    let v ← readReg rd
    let a ← readReg ra
    let b ← readReg rb
    remoteAccess a b sp 1 true (some v) {}

end Sys2Proof.Machine
end

