-- ==== Sys2Proof/Machine/Numbers.lean ====
section
/-! DEFINITION. The float formats, Round(), Sto() and the exact sums and products (R46 to R58, R201, R204). Exact values are
integers times powers of two, or fractions of integers. -/

namespace Sys2Proof.Machine

/-! ## Formats (R48, R51, R59) -/

/-- A format: width, precision, emin, magnitude code of the largest finite value, whether it has infinities, code of its
NaN. -/
structure FFmt where
  w : Nat
  p : Nat
  emin : Int
  maxCode : Nat
  hasInf : Bool
  nanCode : Nat
  deriving DecidableEq, Repr

def fp32 : FFmt := ⟨32, 24, -126, 0x7F7FFFFF, true, 0x7FC00000⟩
def fp16 : FFmt := ⟨16, 11, -14, 0x7BFF, true, 0x7E00⟩
def bf16 : FFmt := ⟨16, 8, -126, 0x7F7F, true, 0x7FC0⟩
def fp4 : FFmt := ⟨4, 2, 0, 7, false, 0⟩
def e3m5 : FFmt := ⟨9, 6, -2, 0xFE, false, 0xFF⟩

/-- A float operand: a NaN, quiet or signalling, an infinity, or ± m × 2^e. -/
inductive Num where
  | nan (sig : Bool)
  | inf (neg : Bool)
  | fin (neg : Bool) (m : Nat) (e : Int)
  deriving DecidableEq, Repr

/-- Exponent of a format's smallest spacing. -/
def FFmt.emin0 (f : FFmt) : Int := f.emin - f.p + 1

/-- The value of a code (R48, R49, R57 to R59). -/
def FFmt.read (f : FFmt) (c : Nat) : Num :=
  let neg := bit c (f.w - 1)
  let mag := c % 2 ^ (f.w - 1)
  if f.hasInf && mag = f.maxCode + 1 then .inf neg
  else if f.hasInf && decide (f.maxCode + 1 < mag) then .nan (!bit mag (f.p - 2))
  else
    let ef := mag / 2 ^ (f.p - 1)
    let fr := mag % 2 ^ (f.p - 1)
    if ef = 0 then .fin (neg && (f.hasInf || fr != 0)) fr f.emin0
    else .fin neg (fr + 2 ^ (f.p - 1)) (f.emin0 + ef - 1)

/-- The code of a sign and a magnitude code; a format without infinities writes no negative zero (R58). -/
def FFmt.code (f : FFmt) (neg : Bool) (mag : Nat) : Nat :=
  if neg && (f.hasInf || mag != 0) then 2 ^ (f.w - 1) + mag else mag

/-! ## Round() (R52, R53) -/

/-- Rounding modes as FRM numbers them (R14). -/
def rne : Nat := 0
def rtz : Nat := 1
def rdn : Nat := 2
def rup : Nat := 3
def sto : Nat := 4

/-- Whether the truncated magnitude is raised: `odd` of the truncated one, the discarded fraction r/D. -/
def roundUp (m : Nat) (neg odd : Bool) (r D rnd16 : Nat) : Bool :=
  if r = 0 then false
  else if m = rne then decide (D < 2 * r) || (2 * r == D && odd)
  else if m = rtz then false
  else if m = rdn then neg
  else if m = rup then !neg
  else decide (2 ^ 16 ≤ r * 2 ^ 16 / D + rnd16)

/-- floor(log2(N/D)) for N, D > 0. -/
def ilog (N D : Nat) : Int :=
  let k : Int := (Nat.log2 N : Int) - Nat.log2 D
  if D * 2 ^ k.toNat ≤ N * 2 ^ (-k).toNat then k else k - 1

/-- What an overflow gives: infinity or the largest finite value (R53). -/
def overflowInf (m : Nat) (neg : Bool) : Bool :=
  if m = rtz then false else if m = rdn then neg else if m = rup then !neg else true

/-- Round() of ± N/D × 2^e with N, D > 0: the code and the flags. -/
def roundMag (f : FFmt) (m : Nat) (neg : Bool) (N D : Nat) (e : Int) (rnd16 : Nat) : Nat × Byte :=
  let N := N * 2 ^ e.toNat
  let D := D * 2 ^ (-e).toNat
  let q := max (ilog N D) f.emin - f.p + 1
  let N' := N * 2 ^ (-q).toNat
  let D' := D * 2 ^ q.toNat
  let lo := N' / D'
  let r := N' % D'
  let up := roundUp m neg (lo % 2 == 1) r D' rnd16
  let mag := (q - f.emin0).toNat * 2 ^ (f.p - 1) + (if up then lo + 1 else lo)
  let tiny := decide (N * 2 ^ (-f.emin).toNat < D * 2 ^ f.emin.toNat)
  let fl : Byte := if r = 0 then 0 else if tiny then flagNX ||| flagUF else flagNX
  if f.maxCode < mag then
    if f.hasInf then (f.code neg (if overflowInf m neg then f.maxCode + 1 else f.maxCode), flagOF ||| flagNX ||| fl)
    else (f.code neg f.maxCode, flagSAT ||| flagNX ||| fl)
  else (f.code neg mag, fl)

/-! ## The generator (R55) and the rounding context -/

/-- One step of the generator. -/
def srgStep (x : Word) : Word :=
  let x := if x = 0 then 1 else x
  let x := x ^^^ (x <<< 13)
  let x := x ^^^ (x >>> 7)
  x ^^^ (x <<< 17)

/-- Mode, generator and flags of a run of roundings. -/
structure Rnd where
  frm : Nat
  srg : Word
  flags : Byte := 0
  deriving DecidableEq, Repr

/-- A computation that rounds in FRM and sets flags. -/
abbrev R := StateM Rnd

/-- The random word of one result: Sto() in STO mode (R56). -/
def draw : R Nat := do
  let c ← get
  if c.frm = sto then
    let n := srgStep c.srg
    set { c with srg := n }
    pure (n.toNat / 2 ^ 48)
  else pure 0

/-- Flags set. -/
def setF (f : Byte) : R Unit := modify fun c => { c with flags := c.flags ||| f }

/-- A result that needs no rounding but counts as a rounded one (R56). -/
def decided (c : Nat) (f : Byte) : R Nat := do
  let _ ← draw
  setF f
  pure c

/-- Round() of ± N/D × 2^e in FRM. -/
def roundFrac (f : FFmt) (neg : Bool) (N D : Nat) (e : Int) : R Nat := do
  let x ← draw
  let c ← get
  let (v, fl) := roundMag f c.frm neg N D e x
  setF fl
  pure v

/-- Round() of an exact value in FRM; NaN and infinities as they are, or as R54 puts them into FP4. -/
def roundNum (f : FFmt) (x : Num) : R Nat :=
  match x with
  | .nan _ => decided f.nanCode (if f.hasInf then 0 else flagNV)
  | .inf neg => decided (f.code neg (if f.hasInf then f.maxCode + 1 else f.maxCode)) (if f.hasInf then 0 else flagSAT)
  | .fin neg m e => if m = 0 then decided (f.code neg 0) 0 else roundFrac f neg m 1 e

/-! ## Exact arithmetic with the special operands of R201 -/

/-- A signalling NaN. -/
def Num.isSig : Num → Bool
  | .nan s => s
  | _ => false

/-- A NaN. -/
def Num.isNan : Num → Bool
  | .nan _ => true
  | _ => false

/-- NV for a signalling operand (R50). -/
def sigFlag (x : Num) : Byte := if x.isSig then flagNV else 0

/-- ± m × 2^e as an integer multiple of 2^e0, e0 ≤ e. -/
def scaled (neg : Bool) (m : Nat) (e e0 : Int) : Int :=
  let v : Int := (m * 2 ^ (e - e0).toNat : Nat)
  if neg then -v else v

/-- The exact sum in mode `frm`, which decides the sign of an exact zero. -/
def addNum (frm : Nat) (x y : Num) : Num × Byte :=
  match x, y with
  | .nan _, _ | _, .nan _ => (.nan false, sigFlag x ||| sigFlag y)
  | .inf a, .inf b => if a = b then (.inf a, 0) else (.nan false, flagNV)
  | .inf a, .fin _ _ _ => (.inf a, 0)
  | .fin _ _ _, .inf b => (.inf b, 0)
  | .fin a m e, .fin b n d =>
    let e0 := min e d
    let v := scaled a m e e0 + scaled b n d e0
    if v = 0 then (if m = 0 ∧ n = 0 ∧ a = b then (.fin a 0 0, 0) else (.fin (frm == rdn) 0 0, 0))
    else (.fin (decide (v < 0)) v.natAbs e0, 0)

/-- The exact product. -/
def mulNum (x y : Num) : Num × Byte :=
  match x, y with
  | .nan _, _ | _, .nan _ => (.nan false, sigFlag x ||| sigFlag y)
  | .inf a, .inf b => (.inf (a != b), 0)
  | .inf a, .fin b m _ => if m = 0 then (.nan false, flagNV) else (.inf (a != b), 0)
  | .fin a m _, .inf b => if m = 0 then (.nan false, flagNV) else (.inf (a != b), 0)
  | .fin a m e, .fin b n d => (.fin (a != b) (m * n) (e + d), 0)

/-- The other sign; a NaN stays. -/
def Num.negate : Num → Num
  | .inf a => .inf (!a)
  | .fin a m e => .fin (!a) m e
  | x => x

/-- Rounded sum, difference, product and fused sum (R200, R208). -/
def fAdd (f : FFmt) (x y : Num) : R Nat := do
  let c ← get
  let (v, fl) := addNum c.frm x y
  setF fl
  roundNum f v

def fSub (f : FFmt) (x y : Num) : R Nat := fAdd f x y.negate

def fMul (f : FFmt) (x y : Num) : R Nat := do
  let (v, fl) := mulNum x y
  setF fl
  roundNum f v

def fFma (f : FFmt) (x y z : Num) : R Nat := do
  let (v, fl) := mulNum x y
  let c ← get
  let (t, fl') := addNum c.frm v z
  setF (fl ||| fl')
  roundNum f t

/-- x < y for values that are not NaN; zeros are equal. -/
def Num.lt (x y : Num) : Bool :=
  match x, y with
  | .inf a, .inf b => a && !b
  | .inf a, .fin _ _ _ => a
  | .fin _ _ _, .inf b => !b
  | .fin a m e, .fin b n d => decide (scaled a m e (min e d) < scaled b n d (min e d))
  | _, _ => false

/-- x = y for values that are not NaN. -/
def Num.eqv (x y : Num) : Bool := !x.isNan && !y.isNan && !x.lt y && !y.lt x

/-- The sign bit of a value. -/
def Num.neg : Num → Bool
  | .inf a => a
  | .fin a _ _ => a
  | .nan _ => false

/-- Minimum and maximum on codes (R201): −0 below +0, a NaN gives way to the other operand. -/
def fMinMax (f : FFmt) (mx : Bool) (a b : Nat) : Nat × Byte :=
  let x := f.read a
  let y := f.read b
  let fl := sigFlag x ||| sigFlag y
  let less := x.lt y || (x.eqv y && x.neg && !y.neg)
  if x.isNan && y.isNan then (f.nanCode, fl)
  else if x.isNan then (b % 2 ^ f.w, fl)
  else if y.isNan then (a % 2 ^ f.w, fl)
  else (if less = mx then b % 2 ^ f.w else a % 2 ^ f.w, fl)

/-- The compares of R201. -/
inductive FCmp where
  | eq | lt | le | un
  deriving DecidableEq, Repr

/-- A compare: its truth and NV. -/
def fCmp (k : FCmp) (x y : Num) : Bool × Byte :=
  let nan := x.isNan || y.isNan
  let sig := sigFlag x ||| sigFlag y
  match k with
  | .eq => (x.eqv y, sig)
  | .lt => (!nan && x.lt y, if nan then flagNV else 0)
  | .le => (!nan && (x.lt y || x.eqv y), if nan then flagNV else 0)
  | .un => (nan, sig)

/-- The exact widening (R203, R208). -/
def widen (f g : FFmt) (c : Nat) : Nat × Byte :=
  match f.read c with
  | .nan s => (g.nanCode, if s then flagNV else 0)
  | .inf n => (g.code n (g.maxCode + 1), 0)
  | .fin n m e => if m = 0 then (g.code n 0, 0) else roundMag g rtz n m 1 e 0

/-- A value conversion with Round(): a signalling NaN sets NV (R50). -/
def convert (f g : FFmt) (c : Nat) : R Nat := do
  let x := f.read c
  setF (sigFlag x)
  roundNum g x

/-- An integer rounded into a format. -/
def ofInt (g : FFmt) (v : Int) : R Nat := roundNum g (.fin (decide (v < 0)) v.natAbs 0)

/-- ToInt() of ± N/D (R204): the integer as an n-bit code. -/
def toIntFrac (neg : Bool) (N D : Nat) (n : Nat) (sg : Bool) : R Nat := do
  let x ← draw
  let c ← get
  let lo := N / D
  let r := N % D
  let mag : Int := if roundUp c.frm neg (lo % 2 == 1) r D x then lo + 1 else lo
  let v := if neg then -mag else mag
  let hi : Int := if sg then 2 ^ (n - 1) - 1 else 2 ^ n - 1
  let low : Int := if sg then -(2 ^ (n - 1)) else 0
  if hi < v then do setF flagNV; pure (wrapInt n hi)
  else if v < low then do setF flagNV; pure (wrapInt n low)
  else do
    setF (if r = 0 then 0 else flagNX)
    pure (wrapInt n v)

/-- ToInt() of a float (R204). -/
def toIntNum (x : Num) (n : Nat) (sg : Bool) : R Nat :=
  match x with
  | .nan _ => decided 0 flagNV
  | .inf neg => decided (wrapInt n (if neg then (if sg then -(2 ^ (n - 1)) else 0)
      else if sg then 2 ^ (n - 1) - 1 else 2 ^ n - 1)) flagNV
  | .fin neg m e => toIntFrac neg (m * 2 ^ e.toNat) (2 ^ (-e).toNat) n sg

/-- The exact sum of lanes, rounded once into FP32 (R206). -/
def sumLanes (xs : List Num) : R Nat := do
  let c ← get
  let infs := xs.filterMap fun x => match x with | .inf a => some a | _ => none
  let clash := infs.contains true && infs.contains false
  setF (if xs.any Num.isSig || clash then flagNV else 0)
  if xs.any Num.isNan || clash then decided fp32.nanCode 0
  else match xs with
    | [] => decided 0 0
    | x :: t => roundNum fp32 (t.foldl (fun a y => (addNum c.frm a y).1) x)

/-- The rounding context of a thread, and what a run of roundings leaves in it (R197). -/
def runR (c : R α) (psw srg : Word) : α × Rnd := (c.run { frm := pswFrm psw, srg := srg })

end Sys2Proof.Machine
end

