-- ==== Sys2Proof/Machine/Rational.lean ====
section
/-! DEFINITION. Rational words, their rounding and the rational operations with their service times (R62 to R67, R215 to
R226). -/

namespace Sys2Proof.Machine

/-! ## Rational words (R62 to R65) -/

/-- What a rational word reads as: a finite value with its fields as stored, an infinity, an indeterminate value and
whether reading it sets NV, a payload code. -/
inductive QV where
  | fin (neg : Bool) (p q : Nat)
  | inf (neg : Bool)
  | ind (nv : Bool)
  | pay (w : Word)
  deriving DecidableEq, Repr

/-- The reading of a word (R63, R65). -/
def readQ (w : Word) : QV :=
  let n := w.toNat
  let b := field n 57 6
  if b = 0 then .fin (bit n 63) (field n 0 57) 1
  else if b ≤ 56 then
    (if field n 0 b = 0 then .ind true else .fin (bit n 63) (field n b (57 - b)) (field n 0 b))
  else if b < 63 then .ind true
  else if field n 0 57 = 0 then .ind false
  else if field n 0 57 = 1 then .inf (bit n 63)
  else .pay w

/-- Significant bits. -/
def bitLen (n : Nat) : Nat := if n = 0 then 0 else Nat.log2 n + 1

/-- Width of the denominator field of a reduced value (R64). -/
def denWidth (q : Nat) : Nat := if q = 1 then 0 else bitLen q

/-- A reduced value can be written (R64, R218). -/
def reprQ (n d : Nat) : Bool := decide (denWidth d ≤ 56) && decide (n < 2 ^ (57 - denWidth d))

/-- The canonical word of a reduced value (R64). -/
def canonQ (neg : Bool) (p q : Nat) : Word :=
  if p = 0 then 0
  else BitVec.ofNat 64 (b2n neg * 2 ^ 63 + denWidth q * 2 ^ 57 + p * 2 ^ denWidth q + (if q = 1 then 0 else q))

/-- The codes of R65. -/
def infQ (neg : Bool) : Word := BitVec.ofNat 64 (b2n neg * 2 ^ 63 + 63 * 2 ^ 57 + 1)
def indQ : Word := BitVec.ofNat 64 (63 * 2 ^ 57)

/-! ## Rounding (R66, R67, R218, R219) -/

/-- Two neighbours, their mediant and the moves made. -/
structure Near where
  ln : Nat
  ld : Nat
  hn : Nat
  hd : Nat
  k : Nat
  deriving DecidableEq, Repr

/-- The largest t below 2^61 and at most `t1` for which a test that fails from some t on holds. -/
def largestT (t1 : Nat) (ok : Nat → Bool) : Nat → Nat → Nat
  | 0, t => t
  | i + 1, t => largestT t1 ok i (if t + 2 ^ i ≤ t1 && ok (t + 2 ^ i) then t + 2 ^ i else t)

/-- The walk of R219. -/
def walkQ (p q : Nat) (inS : Nat → Nat → Bool) : Nat → Near → Near
  | 0, s => s
  | fuel + 1, s =>
    let mn := s.ln + s.hn
    let md := s.ld + s.hd
    if !inS mn md then s
    else if mn * q < p * md then
      let t1 := (p * s.ld - s.ln * q - 1) / (s.hn * q - p * s.hd)
      let t := largestT t1 (fun t => inS (s.ln + t * s.hn) (s.ld + t * s.hd)) 61 0
      walkQ p q inS fuel { s with ln := s.ln + t * s.hn, ld := s.ld + t * s.hd, k := s.k + 1 }
    else
      let t1 := (s.hn * q - p * s.hd - 1) / (p * s.ld - s.ln * q)
      let t := largestT t1 (fun t => inS (s.hn + t * s.ln) (s.hd + t * s.ld)) 61 0
      walkQ p q inS fuel { s with hn := s.hn + t * s.ln, hd := s.hd + t * s.ld, k := s.k + 1 }

/-- Neighbours() (R219); the moves never exceed 83. -/
def neighbours (p q : Nat) (lim : Option Nat) : Near :=
  walkQ p q (fun n d => reprQ n d && (match lim with | some l => decide (d ≤ l) | none => true)) 100 ⟨0, 1, 1, 0, 0⟩

/-- The tie rule of R66: the smaller denominator, then the even numerator; true for hi. -/
def tieHi (s : Near) : Bool := if s.ld = s.hd then s.ln % 2 == 1 else decide (s.hd < s.ld)

/-- The choice between the neighbours of p/q (R66); true for hi. -/
def chooseHi (qrm p q : Nat) (s : Near) : Bool :=
  if qrm = 0 then
    let l := p * (s.ld + s.hd)
    let r := (s.ln + s.hn) * q
    if l < r then false else if r < l then true else tieHi s
  else if qrm = 1 then
    let l := (p * s.ld - s.ln * q) * s.hd
    let r := (s.hn * q - p * s.hd) * s.ld
    if l < r then false else if r < l then true else tieHi s
  else qrm == 3

/-- A result with its flags, and the service time of one that QRound(), Neighbours(), GCD or QCF forms; 8 for one that R216 decides. -/
structure QRes where
  word : Word
  flags : Byte := 0
  time : Nat := 8
  pred : Bool := false
  deriving DecidableEq, Repr

/-- ρ of R226 for a width. -/
def rho (w : Nat) : Nat := (min w 128 - 1) / 32

/-- QRound() (R218) with flags (R67) and time (R226). -/
def qround (qrm : Nat) (P Q : Int) : QRes :=
  let w := bitLen (max P.natAbs Q.natAbs)
  if Q = 0 then
    if P = 0 then { word := indQ, flags := flagNV ||| flagZD, time := 8 + rho w }
    else { word := infQ (decide (P < 0)), flags := flagZD, time := 8 + rho w }
  else
    let neg := decide (P < 0) != decide (Q < 0)
    let g := Nat.gcd P.natAbs Q.natAbs
    let p := P.natAbs / g
    let q := Q.natAbs / g
    if p = 0 then { word := 0, time := 8 + rho w }
    else if reprQ p q then { word := canonQ neg p q, time := 8 + rho w }
    else
      let s := neighbours p q none
      let hi := chooseHi qrm p q s
      let n := if hi then s.hn else s.ln
      let d := if hi then s.hd else s.ld
      { word := if d = 0 then infQ neg else canonQ neg n d,
        flags := flagNX ||| (if (2 ^ 57 - 1) * q < p then flagOF else 0) |||
          (if p * (2 ^ 56 - 1) < q then flagUF else 0) ||| (if d = 0 then flagZD else 0),
        time := 8 + rho w + 3 + 3 * ((s.k + 1) / 2) }

/-! ## Operands -/

/-- NV of an operand that R63 reads with NV. -/
def QV.nv : QV → Byte
  | .ind true => flagNV
  | _ => 0

/-- A signed numerator. -/
def signedQ (neg : Bool) (p : Nat) : Int := if neg then -(p : Int) else p

/-- The width that R226 takes from an operand's fields: a word whose DEN is zero has a NUM field, a code has neither: DEDUCED, log 78. -/
def fieldWidth (w : Word) : Nat :=
  let b := field w.toNat 57 6
  if 57 ≤ b then 0 else bitLen (max (field w.toNat b (57 - b)) (field w.toNat 0 b))

/-- The reduced form. -/
def reduceQ (p q : Nat) : Nat × Nat := (p / Nat.gcd p q, q / Nat.gcd p q)

/-- The canonical word of an operand's value (R64, R65, QCANON). -/
def QV.canon : QV → Word
  | .fin neg p q => canonQ neg (reduceQ p q).1 (reduceQ p q).2
  | .inf neg => infQ neg
  | .ind _ => indQ
  | .pay w => w

/-- A zero-denominator result (R65). -/
def zdFlag (w : Word) : Byte := if field w.toNat 57 6 = 63 then flagZD else 0

/-- Rows 1 to 3 of R216. -/
def rows123 (x y : QV) : Option QRes :=
  let nv := x.nv ||| y.nv
  match x, y with
  | .pay w, _ => some { word := w, flags := flagZD ||| nv }
  | _, .pay w => some { word := w, flags := flagZD ||| nv }
  | .ind _, _ | _, .ind _ => some { word := indQ, flags := flagZD ||| nv }
  | _, _ => none

/-- FADD and FSUB (R215, R216). -/
def qAdd (qrm : Nat) (sub : Bool) (x y : QV) : QRes :=
  match rows123 x y with
  | some r => r
  | none =>
    match x, y with
    | .inf a, .inf b =>
      if a = (b != sub) then { word := infQ a, flags := flagZD } else { word := indQ, flags := flagZD ||| flagNV }
    | .inf a, _ => { word := infQ a, flags := flagZD }
    | _, .inf b => { word := infQ (b != sub), flags := flagZD }
    | .fin a p q, .fin b r s => qround qrm (signedQ a p * s + signedQ (b != sub) r * q) (q * s : Nat)
    | _, _ => { word := indQ, flags := flagZD }

/-- FMUL (R215, R216). -/
def qMul (qrm : Nat) (x y : QV) : QRes :=
  match rows123 x y with
  | some r => r
  | none =>
    match x, y with
    | .inf a, .inf b => { word := infQ (a != b), flags := flagZD }
    | .inf a, .fin b p _ | .fin b p _, .inf a =>
      if p = 0 then { word := indQ, flags := flagZD ||| flagNV } else { word := infQ (a != b), flags := flagZD }
    | .fin a p q, .fin b r s => qround qrm (signedQ (a != b) (p * r)) (q * s : Nat)
    | _, _ => { word := indQ, flags := flagZD }

/-- FNEG and FABS (R215, R216): `f` makes the new sign of the old one. -/
def qSign (f : Bool → Bool) (x : QV) : QRes :=
  match x with
  | .pay w => { word := putField w 63 1 (b2n (f (bit w.toNat 63))), flags := flagZD }
  | .ind _ => { word := indQ, flags := flagZD ||| x.nv }
  | .inf a => { word := infQ (f a), flags := flagZD }
  | .fin a p q => { word := canonQ (f a) (reduceQ p q).1 (reduceQ p q).2 }

/-- An operand is unordered (R217). -/
def QV.unordered : QV → Bool
  | .ind _ | .pay _ => true
  | _ => false

/-- x < y for ordered operands (R217). -/
def QV.lt (x y : QV) : Bool :=
  match x, y with
  | .inf a, .inf b => a && !b
  | .inf a, _ => a
  | _, .inf b => !b
  | .fin a p q, .fin b r s => decide (signedQ a p * s < signedQ b r * q)
  | _, _ => false

/-- FMIN and FMAX (R217). -/
def qMinMax (mx : Bool) (x y : QV) : QRes :=
  let nv := x.nv ||| y.nv
  let pick (z : QV) : QRes := { word := z.canon, flags := zdFlag z.canon ||| nv }
  if x.unordered && y.unordered then (rows123 x y).getD { word := indQ, flags := flagZD ||| nv }
  else if x.unordered then pick y
  else if y.unordered then pick x
  else if mx then (if x.lt y then pick y else pick x)
  else (if y.lt x then pick y else pick x)

/-- FCMP (R217). -/
def qCmp (k : FCmp) (x y : QV) : QRes :=
  let nv := x.nv ||| y.nv
  let un := x.unordered || y.unordered
  match k with
  | .eq => { word := 0, pred := !un && !x.lt y && !y.lt x, flags := nv }
  | .lt => { word := 0, pred := !un && x.lt y, flags := nv ||| (if un then flagNV else 0) }
  | .le => { word := 0, pred := !un && !y.lt x, flags := nv ||| (if un then flagNV else 0) }
  | .un => { word := 0, pred := un, flags := nv }

/-! ## The forms of major 0x1E (R221 to R224) -/

/-- QMAKE (R221). -/
def qMake (qrm : Nat) (a b : Word) : QRes :=
  let r := qround qrm a.toInt b.toInt
  if b = 0 ∧ a ≠ 0 then { r with flags := r.flags ||| flagDZ } else r

/-- QNUM (R221). -/
def qNum (x : QV) : QRes :=
  match x with
  | .fin a p q => { word := BitVec.ofInt 64 (signedQ a (reduceQ p q).1) }
  | .inf a => { word := BitVec.ofInt 64 (signedQ a 1) }
  | .ind _ => { word := 0, flags := x.nv }
  | .pay w => { word := BitVec.ofInt 64 (signedQ (bit w.toNat 63) (field w.toNat 0 57)) }

/-- QDEN (R221). -/
def qDen (x : QV) : QRes :=
  match x with
  | .fin _ p q => { word := BitVec.ofNat 64 (reduceQ p q).2 }
  | _ => { word := 0, flags := x.nv }

/-- Reduced signed numerator and denominator, infinities as ±1/0. -/
def QV.frac : QV → Int × Nat
  | .fin a p q => (signedQ a (reduceQ p q).1, (reduceQ p q).2)
  | .inf a => (signedQ a 1, 0)
  | _ => (0, 0)

/-- QMED (R221). -/
def qMed (qrm : Nat) (x y : QV) : QRes :=
  match rows123 x y with
  | some r => r
  | none => qround qrm (x.frac.1 + y.frac.1) (x.frac.2 + y.frac.2 : Nat)

/-- QCANON (R221). -/
def qCanon (x : QV) : QRes :=
  { word := x.canon, flags := x.nv ||| zdFlag x.canon }

/-- A word is not canonical (R222). -/
def notCanon (w : Word) : Bool :=
  let n := w.toNat
  let b := field n 57 6
  let s := bit n 63
  let num := field n b (57 - b)
  let den := field n 0 b
  if b = 63 then field n 0 57 == 0 && s
  else if 57 ≤ b then true
  else if num = 0 then s || b != 0
  else if b = 0 then false
  else b == 1 || !bit den (b - 1) || Nat.gcd num den != 1

/-- QCLASS (R222). -/
def qClass (w : Word) : QRes :=
  let c : Nat := match readQ w with
    | .inf true => 0
    | .inf false => 6
    | .ind _ => 7
    | .pay _ => 8
    | .fin a p q =>
      if p = 0 then 3
      else
        let int := p % q == 0
        if a then (if int then 2 else 1) else (if int then 4 else 5)
  { word := BitVec.ofNat 64 (2 ^ c + (if notCanon w then 2 ^ 9 else 0)) }

/-- The continued fraction of p/q from its term number i on (R223): the term asked for, and the number of the last one. -/
def cfTerm (k : Nat) : Nat → Nat → Int → Int → Option Int → Option Int × Nat
  | 0, i, _, _, got => (got, i)
  | fuel + 1, i, p, q, got =>
    let a := p / q
    let got := if i = k then some a else got
    if p - a * q = 0 then (got, i) else cfTerm k fuel (i + 1) q (p - a * q) got

/-- QCF (R223). An operand whose denominator is zero has no terms, and so no n of R226: its service takes 8 cycles, the time of a decided
result: DEDUCED, unsafe, log 87. -/
def qCf (x : QV) (k : Nat) : QRes :=
  match x with
  | .fin a p q =>
    let (v, n) := cfTerm k 128 0 (signedQ a p) q none
    { word := BitVec.ofInt 64 (v.getD 0), time := 8 + 3 * ((min k n + 2) / 2) }
  | _ => { word := 0, flags := flagNV }

/-- QLIM (R224), for a source whose fields are `w` bits wide (R226). -/
def qLim (qrm : Nat) (x : QV) (w l : Nat) : QRes :=
  let t := 8 + rho w
  if l = 0 then { word := indQ, flags := flagNV ||| flagZD, time := t }
  else match rows123 x x, x with
    | some r, _ => r
    | none, .inf a => { word := infQ a, flags := flagZD }
    | none, .fin a p q =>
      let (p', q') := reduceQ p q
      if p' = 0 then { word := 0, time := t }
      else if q' ≤ l then { word := canonQ a p' q', time := t }
      else
        let s := neighbours p' q' (some l)
        let hi := chooseHi qrm p' q' s
        { word := if hi then canonQ a s.hn s.hd else canonQ a s.ln s.ld, flags := flagNX,
          time := t + 3 + 3 * ((s.k + 1) / 2) }
    | none, _ => { word := indQ, flags := flagZD }

/-- GCD (R221, R226). -/
def qGcd (a b : Word) : QRes :=
  { word := BitVec.ofNat 64 (Nat.gcd a.toNat b.toNat), time := 8 + (bitLen (max a.toNat b.toNat) - 1) / 32 }

/-! ## Conversions (R225) -/

/-- A float into a rational: QRound(P, Q) with the stored significand, trailing zeros and all, as P, and the power of two that its exponent
names as the other factor, so that R226's w counts their bits: DEDUCED, unsafe, log 88. -/
def floatToQ (qrm : Nat) (x : Num) : QRes :=
  match x with
  | .nan s => { word := indQ, flags := flagZD ||| (if s then flagNV else 0) }
  | .inf a => { word := infQ a, flags := flagZD }
  | .fin a m e => if m = 0 then { word := 0 } else qround qrm (signedQ a (m * 2 ^ e.toNat)) (2 ^ (-e).toNat : Nat)

/-- A rational into a float. -/
def qToFloat (f : FFmt) (x : QV) : R Nat :=
  match x with
  | .fin a p q => if p = 0 then decided 0 0 else roundFrac f a p q 0
  | .inf a => decided (f.code a (f.maxCode + 1)) 0
  | _ => decided f.nanCode flagNV

/-- A rational into an integer by ToInt(). -/
def qToInt (sg : Bool) (x : QV) : R Nat :=
  match x with
  | .fin a p q => toIntFrac a p q 64 sg
  | .inf a => toIntNum (.inf a) 64 sg
  | _ => decided 0 flagNV

/-- QCVT.I (R225). -/
def qFloor (x : QV) : QRes :=
  match x with
  | .fin a p q => { word := BitVec.ofInt 64 (signedQ a p / q) }
  | .inf true => { word := 0x8000000000000000, flags := flagNV }
  | .inf false => { word := 0x7FFFFFFFFFFFFFFF, flags := flagNV }
  | _ => { word := 0, flags := flagNV }

end Sys2Proof.Machine
end

