-- ==== Sys2Proof/Machine/Special.lean ====
section
/-! DEFINITION. The values of the special functions (R211 to R213). The transcendental ones are enclosed between two integers
over a power of two; when both round to one word with the same flags, that is the result, else the precision doubles. -/

namespace Sys2Proof.Machine

/-! ## Roots -/

/-- floor(√n), one bit after the other. -/
def isqrtFrom (n : Nat) : Nat → Nat → Nat
  | 0, r => r
  | i + 1, r => isqrtFrom n i (if (r + 2 ^ i) * (r + 2 ^ i) ≤ n then r + 2 ^ i else r)

/-- floor(√n). -/
def isqrt (n : Nat) : Nat := isqrtFrom n (Nat.log2 n / 2 + 1) 0

/-- √(m × 2^e) as N × 2^k with a sticky last bit: exact, or the last bit set and the value just below or above it in the
last place. -/
def sqrtSticky (m : Nat) (e : Int) : Nat × Int :=
  let (m, e) := if e % 2 = 0 then (m, e) else (2 * m, e - 1)
  let n := m * 2 ^ 160
  let s := isqrt n
  (2 * s + (if s * s = n then 0 else 1), e / 2 - 81)

/-- 1/√(m × 2^e), likewise. -/
def rsqrtSticky (m : Nat) (e : Int) : Nat × Int :=
  let (m, e) := if e % 2 = 0 then (m, e) else (2 * m, e - 1)
  let s := isqrt (2 ^ 240 / m)
  (2 * s + (if s * s * m = 2 ^ 240 then 0 else 1), -(e / 2) - 121)

/-! ## Enclosures: integers over 2^P -/

/-- Σ 1/((2k+1) n^(2k+1)) from term `k` down, in units of 2^-P, each term cut off; with alternating signs when `alt`. -/
def invSeries (n P : Nat) (alt : Bool) : Nat → Int
  | 0 => 0
  | k + 1 =>
    let t : Int := (2 ^ P / ((2 * k + 1) * n ^ (2 * k + 1)) : Nat)
    invSeries n P alt k + (if alt && k % 2 == 1 then -t else t)

/-- ln 2 = 2 atanh(1/3). -/
def ln2 (P : Nat) : Int × Int :=
  let v := 2 * invSeries 3 P false (P + 2)
  (v - 2, v + 2 * P + 8)

/-- π = 16 atan(1/5) − 4 atan(1/239). -/
def piI (P : Nat) : Int × Int :=
  let v := 16 * invSeries 5 P true (P + 2) - 4 * invSeries 239 P true (P + 2)
  (v - 64 * (P + 4), v + 64 * (P + 4))

/-- atanh of a non-negative x ≤ 1/3 over 2^P, by `n` terms: power, square, sum. -/
def atanhSum (P sq : Nat) : Nat → Nat → Nat → Nat → Nat
  | 0, _, _, acc => acc
  | n + 1, i, pw, acc => atanhSum P sq n (i + 1) (pw * sq / 2 ^ P) (acc + pw / (2 * i + 1))

/-- e^y for 0 ≤ y < 2 over 2^P, each term cut off. -/
def expSum (P y : Nat) : Nat → Nat → Nat → Nat → Nat
  | 0, _, _, acc => acc
  | n + 1, i, t, acc => expSum P y n (i + 1) (t * y / 2 ^ P / (i + 1)) (acc + t)

/-- An enclosure of e^y. -/
def expI (P : Nat) (y : Int × Int) : Int × Int :=
  let lo := expSum P y.1.toNat (P / 4 + 24) 0 (2 ^ P) 0
  let hi := expSum P y.2.toNat (P / 4 + 24) 0 (2 ^ P) 0
  (lo, hi + 4 * (P + 32))

/-- x − x³/3! + … or 1 − x²/2! + … over 2^P from a first term and its number. -/
def trigSum (P : Nat) (x2 : Int) : Nat → Nat → Int → Int → Int
  | 0, _, _, acc => acc
  | n + 1, i, t, acc => trigSum P x2 n (i + 2) (-(t * x2 / 2 ^ P) / ((i + 1) * (i + 2) : Nat)) (acc + t)

/-- An enclosure of sin on an enclosure in [0, π/2]. -/
def sinI (P : Nat) (r : Int × Int) : Int × Int :=
  let v (x : Int) := trigSum P (x * x / 2 ^ P) (P / 4 + 24) 1 x 0
  (v r.1 - 8 * (P + 32), v r.2 + 8 * (P + 32))

/-- An enclosure of cos. -/
def cosI (P : Nat) (r : Int × Int) : Int × Int :=
  let v (x : Int) := trigSum P (x * x / 2 ^ P) (P / 4 + 24) 0 (2 ^ P) 0
  (v r.2 - 8 * (P + 32), v r.1 + 8 * (P + 32))

/-- An enclosure of sin (or cos) of ± m × 2^e, at precision P + 200, with that precision. -/
def trigI (isCos neg : Bool) (m : Nat) (e : Int) (P : Nat) : Int × Int × Nat :=
  let Q := P + 200
  let A : Int := (m * 2 ^ (e + Q).toNat : Nat)
  let p := piI Q
  let k := 2 * A / p.2
  let r : Int × Int := (A - k * ((p.2 + 1) / 2), A - k * (p.1 / 2))
  let quad := ((if isCos then k + 1 else k) % 4).toNat
  let v := if quad % 2 = 0 then sinI Q r else cosI Q r
  let flip := (decide (2 ≤ quad)) != (neg && !isCos)
  if flip then (-v.2, -v.1, Q) else (v.1, v.2, Q)

/-- An enclosure of 2^f × 2^n for a = ± m × 2^e. -/
def exp2I (neg : Bool) (m : Nat) (e : Int) (P : Nat) : Int × Int × Nat × Int :=
  let A : Int := scaled neg m (e + P) 0
  let n := A / 2 ^ P
  let f := A % 2 ^ P
  let l := ln2 P
  let y : Int × Int := (f * l.1 / 2 ^ P, f * l.2 / 2 ^ P + 1)
  let v := expI P y
  (v.1, v.2, P, n)

/-- An enclosure of log2(m × 2^e). -/
def log2I (m : Nat) (e : Int) (P : Nat) : Int × Int × Nat :=
  let k := Nat.log2 m
  let t := (m - 2 ^ k) * 2 ^ P / (m + 2 ^ k)
  let at1 := 2 * atanhSum P (t * t / 2 ^ P) (P / 3 + 8) 0 t 0
  let at2 := 2 * atanhSum P ((t + 1) * (t + 1) / 2 ^ P + 1) (P / 3 + 8) 0 (t + 1) 0 + 8 * (P + 8)
  let l := ln2 P
  let E : Int := (e + k) * 2 ^ P
  (E + (at1 * 2 ^ P : Nat) / l.2, E + (at2 * 2 ^ P : Nat) / l.1 + 1, P)

/-- Repeated squaring over 2^P. -/
def squareI (P : Nat) : Nat → Int × Int → Int × Int
  | 0, v => v
  | n + 1, v => squareI P n (v.1 * v.1 / 2 ^ P, v.2 * v.2 / 2 ^ P + 1)

/-- An enclosure of tanh(m × 2^e), m × 2^e < 64. -/
def tanhI (m : Nat) (e : Int) (P : Nat) : Int × Int × Nat :=
  let A : Int := (m * 2 ^ (e + 1 + P).toNat : Nat)
  let v := squareI P 8 (expI P (A / 256, A / 256 + 1))
  let one : Int := 2 ^ P
  ((v.1 - one) * 2 ^ P / (v.1 + one), (v.2 - one) * 2 ^ P / (v.2 + one) + 1, P)

/-! ## Rounding an enclosure -/

/-- Round(v / 2^P × 2^n, FP32, RNE) with NX, and OF and UF by R52; none for a value of zero. -/
def roundReal (v : Int) (P : Nat) (n : Int) : Option (Nat × Byte) :=
  if v = 0 then none
  else
    let r := roundMag fp32 rne (decide (v < 0)) v.natAbs 1 (n - P) 0
    let tiny := decide (v.natAbs * 2 ^ (n - P + 126).toNat < 2 ^ (-(n - P + 126)).toNat)
    some (r.1, flagNX ||| (r.2 &&& flagOF) ||| (if tiny then flagUF else 0))

/-- The result when both ends of an enclosure give the same. -/
def settle (f : Nat → Int × Int × Nat × Int) : List Nat → Nat × Byte
  | [] => (fp32.nanCode, flagNX)
  | P :: rest =>
    let v := f P
    match roundReal v.1 v.2.2.1 v.2.2.2, roundReal v.2.1 v.2.2.1 v.2.2.2 with
    | some a, some b => if a = b then a else settle f rest
    | _, _ => settle f rest

/-- The precisions tried; R212's functions at FP32 operands are settled by the last (log 22). -/
def precisions : List Nat := [200, 400, 800, 1600]

/-- An enclosure without a power of two beside it. -/
def noExp (v : Int × Int × Nat) : Int × Int × Nat × Int := (v.1, v.2.1, v.2.2, 0)

/-! ## The functions (R211 to R213) -/

/-- FDIV. -/
def fDiv (x y : Num) : R Nat :=
  match x, y with
  | .nan _, _ | _, .nan _ => decided fp32.nanCode (sigFlag x ||| sigFlag y)
  | .inf _, .inf _ => decided fp32.nanCode flagNV
  | .inf a, .fin b _ _ => decided (fp32.code (a != b) (fp32.maxCode + 1)) 0
  | .fin a _ _, .inf b => decided (fp32.code (a != b) 0) 0
  | .fin a m e, .fin b n d =>
    if n = 0 then
      if m = 0 then decided fp32.nanCode flagNV else decided (fp32.code (a != b) (fp32.maxCode + 1)) flagDZ
    else if m = 0 then decided (fp32.code (a != b) 0) 0
    else roundFrac fp32 (a != b) m n (e - d)

/-- FSQRT. -/
def fSqrt (x : Num) : R Nat :=
  match x with
  | .nan s => decided fp32.nanCode (if s then flagNV else 0)
  | .inf a => if a then decided fp32.nanCode flagNV else decided (fp32.maxCode + 1) 0
  | .fin a m e =>
    if m = 0 then decided (fp32.code a 0) 0
    else if a then decided fp32.nanCode flagNV
    else
      let r := sqrtSticky m e
      roundFrac fp32 false r.1 1 r.2

/-- FRCP. -/
def fRcp (x : Num) : R Nat :=
  match x with
  | .fin a m e =>
    if m = 0 then decided (fp32.code a (fp32.maxCode + 1)) flagDZ else roundFrac fp32 a 1 m (-e)
  | x => fDiv (.fin false 1 0) x

/-- A result that never draws: the word and its flags. -/
def nanOr (x : Num) (f : Nat × Byte) : Nat × Byte :=
  match x with
  | .nan s => (fp32.nanCode, if s then flagNV else 0)
  | _ => f

/-- FRSQ. -/
def fRsq (x : Num) : Nat × Byte :=
  nanOr x (match x with
    | .inf a => if a then (fp32.nanCode, flagNV) else (0, 0)
    | .fin a m e =>
      if m = 0 then (fp32.code a (fp32.maxCode + 1), flagDZ)
      else if a then (fp32.nanCode, flagNV)
      else
        let r := rsqrtSticky m e
        roundMag fp32 rne false r.1 1 r.2 0
    | _ => (0, 0))

/-- FEXP2. -/
def fExp2 (x : Num) : Nat × Byte :=
  nanOr x (match x with
    | .inf a => if a then (0, 0) else (fp32.maxCode + 1, 0)
    | .fin a m e =>
      let big := decide (160 * 2 ^ (-e).toNat ≤ m * 2 ^ e.toNat)
      if big then roundMag fp32 rne false 1 1 (if a then -200 else 200) 0
      else if (m * 2 ^ e.toNat) % 2 ^ (-e).toNat = 0 then
        roundMag fp32 rne false 1 1 (signedQ a (m * 2 ^ e.toNat / 2 ^ (-e).toNat)) 0
      else settle (exp2I a m e) precisions
    | _ => (0, 0))

/-- FLOG2. -/
def fLog2 (x : Num) : Nat × Byte :=
  nanOr x (match x with
    | .inf a => if a then (fp32.nanCode, flagNV) else (fp32.maxCode + 1, 0)
    | .fin a m e =>
      if m = 0 then (fp32.code true (fp32.maxCode + 1), flagDZ)
      else if a then (fp32.nanCode, flagNV)
      else
        let k := Nat.log2 m
        if m = 2 ^ k then
          let n := e + k
          if n = 0 then (0, 0) else roundMag fp32 rne (decide (n < 0)) n.natAbs 1 0 0
        else settle (fun P => noExp (log2I m e P)) precisions
    | _ => (0, 0))

/-- FSIN and FCOS. -/
def fTrig (isCos : Bool) (x : Num) : Nat × Byte :=
  nanOr x (match x with
    | .inf _ => (fp32.nanCode, flagNV)
    | .fin a m e =>
      if m = 0 then (if isCos then (0x3F800000, 0) else (fp32.code a 0, 0))
      else settle (fun P => noExp (trigI isCos a m e P)) precisions
    | _ => (0, 0))

/-- FTANH. -/
def fTanh (x : Num) : Nat × Byte :=
  nanOr x (match x with
    | .inf a => (fp32.code a 0x3F800000, 0)
    | .fin a m e =>
      if m = 0 then (fp32.code a 0, 0)
      else if 64 * 2 ^ (-e).toNat ≤ m * 2 ^ e.toNat then (fp32.code a 0x3F800000, flagNX)
      else
        let r := settle (fun P => noExp (tanhI m e P)) precisions
        (fp32.code a r.1, r.2)
    | _ => (0, 0))

end Sys2Proof.Machine
end

