-- ==== Sys2Proof/Machine/Vector.lean ====
section
/-! DEFINITION. Majors 0x18 to 0x1B (R196 to R206): packed integers, packed floats, permutes and conversions. -/

namespace Sys2Proof.Machine

/-! ## Lanes (R46) -/

/-- Lane `i` of width `w`. -/
def lane (w : Nat) (a : Word) (i : Nat) : Nat := field a.toNat (w * i) w

/-- The lanes of a word, lane 0 first. -/
def lanes (w : Nat) (a : Word) : List Nat := (List.range (64 / w)).map (lane w a)

/-- A word from lanes of width `w`, lane 0 first; absent lanes are zero. -/
def pack (w : Nat) : List Nat → Nat
  | [] => 0
  | x :: t => x % 2 ^ w + 2 ^ w * pack w t

/-- The same as a word. -/
def packW (w : Nat) (xs : List Nat) : Word := BitVec.ofNat 64 (pack w xs)

/-- Lane widths. -/
def laneW : LaneI → Nat
  | .b => 8
  | .h => 16
  | .w => 32

/-- Lane formats (R200). -/
def laneFmt : LaneF → FFmt
  | .hf => fp16
  | .bh => bf16
  | .s => fp32

/-- The register and flags that a computation leaves (R197). -/
def writeFlagged (rd : Reg) (v : Word) (fl : Byte) : M Unit := do
  writeReg rd v
  orFlags fl

/-- The register, the flags and the generator that roundings leave (R56, R197). -/
def writeRounded (rd : Reg) (v : Word) (c : Rnd) : M Unit := do
  writeReg rd v
  modify fun s => s.updMe fun t => { t with
    ctx := { t.ctx with psw := pswOrFlags t.ctx.psw c.flags, srg := c.srg } }

/-- A form whose value needs roundings. -/
def rounded (rd : Reg) (c : R Word) : M Unit := do
  let s ← get
  let r := runR c s.me.ctx.psw s.me.ctx.srg
  writeRounded rd r.1 r.2

/-- Lane by lane with flags: lanes of a and b, and of the old rd. -/
def mapLanes (w : Nat) (f : Nat → Nat → Nat → Nat × Byte) (a b r : Word) : Word × Byte :=
  let xs := (List.range (64 / w)).map fun i => f (lane w a i) (lane w b i) (lane w r i)
  (packW w (xs.map (·.1)), xs.foldl (fun fl x => fl ||| x.2) 0)

/-- A packed integer form with two operands (R198). -/
def vec2 (gd : Guard) (rd ra rb : Reg) (l : LaneI) (f : Nat → Nat → Nat → Nat × Byte) (s : State) :
    Host.Outcome State Fault Refusal :=
  perform gd s do
    let a ← readReg ra
    let b ← readReg rb
    let r := mapLanes (laneW l) (fun x y _ => f (laneW l) x y) a b 0
    writeFlagged rd r.1 r.2

/-- A packed integer form that reads rd too (R198). -/
def vec3 (gd : Guard) (rd ra rb : Reg) (l : LaneI) (f : Nat → Nat → Nat → Nat → Nat × Byte) (s : State) :
    Host.Outcome State Fault Refusal :=
  perform gd s do
    let z ← readReg rd
    let a ← readReg ra
    let b ← readReg rb
    let r := mapLanes (laneW l) (f (laneW l)) a b z
    writeFlagged rd r.1 r.2

/-- The lane functions of R198: width, lane of a, lane of b. -/
def vAdd (w x y : Nat) : Nat × Byte := ((x + y) % 2 ^ w, 0)
def vSub (w x y : Nat) : Nat × Byte := ((x + 2 ^ w - y) % 2 ^ w, 0)
def vAddS (w x y : Nat) : Nat × Byte := satS w (signed w x + signed w y)
def vSubS (w x y : Nat) : Nat × Byte := satS w (signed w x - signed w y)
def vMul (w x y : Nat) : Nat × Byte := (x * y % 2 ^ w, 0)
def vMulH (w x y : Nat) : Nat × Byte := (wrapInt (2 * w) (signed w x * signed w y) / 2 ^ w, 0)
def vMac (w x y z : Nat) : Nat × Byte := ((z + x * y) % 2 ^ w, 0)
def vMin (w x y : Nat) : Nat × Byte := (if signed w x ≤ signed w y then x else y, 0)
def vMax (w x y : Nat) : Nat × Byte := (if signed w x ≤ signed w y then y else x, 0)
def vAvg (_w x y : Nat) : Nat × Byte := ((x + y + 1) / 2, 0)
def vShl (w x y : Nat) : Nat × Byte := (x * 2 ^ (y % w) % 2 ^ w, 0)
def vShr (w x y : Nat) : Nat × Byte := (x / 2 ^ (y % w), 0)
def vSra (w x y : Nat) : Nat × Byte := (wrapInt w (signed w x / (2 ^ (y % w) : Nat)), 0)
def vSelL (_w x y z : Nat) : Nat × Byte := (if z = 0 then y else x, 0)

/-- All ones where a compare holds. -/
def vMask (c : Nat → Nat → Nat → Bool) (w x y : Nat) : Nat × Byte := (if c w x y then 2 ^ w - 1 else 0, 0)

def vEq (_w x y : Nat) : Bool := x == y
def vNe (_w x y : Nat) : Bool := x != y
def vLt (w x y : Nat) : Bool := decide (signed w x < signed w y)
def vGe (w x y : Nat) : Bool := decide (signed w y ≤ signed w x)
def vLtu (_w x y : Nat) : Bool := decide (x < y)
def vGeu (_w x y : Nat) : Bool := decide (y ≤ x)

/-- VDOT4 (R199). -/
def dot4 (a b r : Word) : Word :=
  packW 32 ((List.range 2).map fun j => wrapInt 32 (signed 32 (lane 32 r j) +
    ((List.range 4).map fun i => signed 8 (lane 8 a (4 * j + i)) * signed 8 (lane 8 b (4 * j + i))).sum))

/-- VADD (R198). -/
def execVadd (gd : Guard) (rd ra rb : Reg) (l : LaneI) (s : State) : Host.Outcome State Fault Refusal :=
  vec2 gd rd ra rb l (fun w x y => vAdd w x y) s

/-- VSUB (R198). -/
def execVsub (gd : Guard) (rd ra rb : Reg) (l : LaneI) (s : State) : Host.Outcome State Fault Refusal :=
  vec2 gd rd ra rb l (fun w x y => vSub w x y) s

/-- VADDS (R198). -/
def execVadds (gd : Guard) (rd ra rb : Reg) (l : LaneI) (s : State) : Host.Outcome State Fault Refusal :=
  vec2 gd rd ra rb l (fun w x y => vAddS w x y) s

/-- VSUBS (R198). -/
def execVsubs (gd : Guard) (rd ra rb : Reg) (l : LaneI) (s : State) : Host.Outcome State Fault Refusal :=
  vec2 gd rd ra rb l (fun w x y => vSubS w x y) s

/-- VMUL (R198). -/
def execVmul (gd : Guard) (rd ra rb : Reg) (l : LaneI) (s : State) : Host.Outcome State Fault Refusal :=
  vec2 gd rd ra rb l (fun w x y => vMul w x y) s

/-- VMULH (R198). -/
def execVmulh (gd : Guard) (rd ra rb : Reg) (l : LaneI) (s : State) : Host.Outcome State Fault Refusal :=
  vec2 gd rd ra rb l (fun w x y => vMulH w x y) s

/-- VMAC (R198). -/
def execVmac (gd : Guard) (rd ra rb : Reg) (l : LaneI) (s : State) : Host.Outcome State Fault Refusal :=
  vec3 gd rd ra rb l vMac s

/-- VDOT4 (R199). -/
def execVdot4 (gd : Guard) (rd ra rb : Reg) (s : State) : Host.Outcome State Fault Refusal :=
  perform gd s do
    let r ← readReg rd
    let a ← readReg ra
    let b ← readReg rb
    writeReg rd (dot4 a b r)

/-- VMIN (R198). -/
def execVmin (gd : Guard) (rd ra rb : Reg) (l : LaneI) (s : State) : Host.Outcome State Fault Refusal :=
  vec2 gd rd ra rb l (fun w x y => vMin w x y) s

/-- VMAX (R198). -/
def execVmax (gd : Guard) (rd ra rb : Reg) (l : LaneI) (s : State) : Host.Outcome State Fault Refusal :=
  vec2 gd rd ra rb l (fun w x y => vMax w x y) s

/-- VABS (R198). -/
def execVabs (gd : Guard) (rd ra : Reg) (l : LaneI) (s : State) : Host.Outcome State Fault Refusal :=
  perform gd s do
    let a ← readReg ra
    let r := mapLanes (laneW l) (fun x _ _ => satS (laneW l) (signed (laneW l) x).natAbs) a 0 0
    writeFlagged rd r.1 r.2

/-- VAVG (R198). -/
def execVavg (gd : Guard) (rd ra rb : Reg) (l : LaneI) (s : State) : Host.Outcome State Fault Refusal :=
  vec2 gd rd ra rb l (fun w x y => vAvg w x y) s

/-- VSHL (R198). -/
def execVshl (gd : Guard) (rd ra rb : Reg) (l : LaneI) (s : State) : Host.Outcome State Fault Refusal :=
  vec2 gd rd ra rb l (fun w x y => vShl w x y) s

/-- VSHR (R198). -/
def execVshr (gd : Guard) (rd ra rb : Reg) (l : LaneI) (s : State) : Host.Outcome State Fault Refusal :=
  vec2 gd rd ra rb l (fun w x y => vShr w x y) s

/-- VSRA (R198). -/
def execVsra (gd : Guard) (rd ra rb : Reg) (l : LaneI) (s : State) : Host.Outcome State Fault Refusal :=
  vec2 gd rd ra rb l (fun w x y => vSra w x y) s

/-- VCMP.EQ (R198). -/
def execVcmpEq (gd : Guard) (rd ra rb : Reg) (l : LaneI) (s : State) : Host.Outcome State Fault Refusal :=
  vec2 gd rd ra rb l (vMask vEq) s

/-- VCMP.NE (R198). -/
def execVcmpNe (gd : Guard) (rd ra rb : Reg) (l : LaneI) (s : State) : Host.Outcome State Fault Refusal :=
  vec2 gd rd ra rb l (vMask vNe) s

/-- VCMP.LT (R198). -/
def execVcmpLt (gd : Guard) (rd ra rb : Reg) (l : LaneI) (s : State) : Host.Outcome State Fault Refusal :=
  vec2 gd rd ra rb l (vMask vLt) s

/-- VCMP.GE (R198). -/
def execVcmpGe (gd : Guard) (rd ra rb : Reg) (l : LaneI) (s : State) : Host.Outcome State Fault Refusal :=
  vec2 gd rd ra rb l (vMask vGe) s

/-- VCMP.LTU (R198). -/
def execVcmpLtu (gd : Guard) (rd ra rb : Reg) (l : LaneI) (s : State) : Host.Outcome State Fault Refusal :=
  vec2 gd rd ra rb l (vMask vLtu) s

/-- VCMP.GEU (R198). -/
def execVcmpGeu (gd : Guard) (rd ra rb : Reg) (l : LaneI) (s : State) : Host.Outcome State Fault Refusal :=
  vec2 gd rd ra rb l (vMask vGeu) s

/-- VSEL (R198). -/
def execVsel (gd : Guard) (rd ra rb : Reg) (l : LaneI) (s : State) : Host.Outcome State Fault Refusal :=
  vec3 gd rd ra rb l vSelL s

/-! ## Packed float (R200, R201) -/

/-- The roundings of each lane in ascending order. -/
def roundLanes (f : FFmt) (op : Num → Num → Num → R Nat) (a b r : Word) : R Word := do
  let xs ← (List.range (64 / f.w)).mapM fun i =>
    op (f.read (lane f.w a i)) (f.read (lane f.w b i)) (f.read (lane f.w r i))
  pure (packW f.w xs)

/-- A packed float form with two operands. -/
def vecF2 (gd : Guard) (rd ra rb : Reg) (l : LaneF) (op : FFmt → Num → Num → R Nat) (s : State) :
    Host.Outcome State Fault Refusal :=
  perform gd s do
    let a ← readReg ra
    let b ← readReg rb
    rounded rd (roundLanes (laneFmt l) (fun x y _ => op (laneFmt l) x y) a b 0)

/-- A packed float form whose lanes are not rounded. -/
def vecFlag (gd : Guard) (rd ra rb : Reg) (l : LaneF) (op : FFmt → Nat → Nat → Nat × Byte) (s : State) :
    Host.Outcome State Fault Refusal :=
  perform gd s do
    let a ← readReg ra
    let b ← readReg rb
    let r := mapLanes (laneFmt l).w (fun x y _ => op (laneFmt l) x y) a b 0
    writeFlagged rd r.1 r.2

/-- The lane mask of a compare. -/
def vfMask (k : FCmp) (f : FFmt) (x y : Nat) : Nat × Byte :=
  let r := fCmp k (f.read x) (f.read y)
  (if r.1 then 2 ^ f.w - 1 else 0, r.2)

/-- VFADD (R200). -/
def execVfadd (gd : Guard) (rd ra rb : Reg) (l : LaneF) (s : State) : Host.Outcome State Fault Refusal :=
  vecF2 gd rd ra rb l fAdd s

/-- VFMUL (R200). -/
def execVfmul (gd : Guard) (rd ra rb : Reg) (l : LaneF) (s : State) : Host.Outcome State Fault Refusal :=
  vecF2 gd rd ra rb l fMul s

/-- VFMA (R200). -/
def execVfma (gd : Guard) (rd ra rb : Reg) (l : LaneF) (s : State) : Host.Outcome State Fault Refusal :=
  perform gd s do
    let r ← readReg rd
    let a ← readReg ra
    let b ← readReg rb
    rounded rd (roundLanes (laneFmt l) (fFma (laneFmt l)) a b r)

/-- VFMIN (R201). -/
def execVfmin (gd : Guard) (rd ra rb : Reg) (l : LaneF) (s : State) : Host.Outcome State Fault Refusal :=
  vecFlag gd rd ra rb l (fun f => fMinMax f false) s

/-- VFMAX (R201). -/
def execVfmax (gd : Guard) (rd ra rb : Reg) (l : LaneF) (s : State) : Host.Outcome State Fault Refusal :=
  vecFlag gd rd ra rb l (fun f => fMinMax f true) s

/-- VFCMP.EQ (R201). -/
def execVfcmpEq (gd : Guard) (rd ra rb : Reg) (l : LaneF) (s : State) : Host.Outcome State Fault Refusal :=
  vecFlag gd rd ra rb l (vfMask .eq) s

/-- VFCMP.LT (R201). -/
def execVfcmpLt (gd : Guard) (rd ra rb : Reg) (l : LaneF) (s : State) : Host.Outcome State Fault Refusal :=
  vecFlag gd rd ra rb l (vfMask .lt) s

/-- VFCMP.LE (R201). -/
def execVfcmpLe (gd : Guard) (rd ra rb : Reg) (l : LaneF) (s : State) : Host.Outcome State Fault Refusal :=
  vecFlag gd rd ra rb l (vfMask .le) s

/-- VFCMP.UN (R201). -/
def execVfcmpUn (gd : Guard) (rd ra rb : Reg) (l : LaneF) (s : State) : Host.Outcome State Fault Refusal :=
  vecFlag gd rd ra rb l (vfMask .un) s

/-! ## Permutes (R202) -/

/-- VSHUF (R202). -/
def execVshuf (gd : Guard) (rd ra rb : Reg) (l : LaneI) (s : State) : Host.Outcome State Fault Refusal :=
  perform gd s do
    let a ← readReg ra
    let b ← readReg rb
    let w := (laneW l)
    writeReg rd (packW w ((lanes w b).map fun y => if bit y (w - 1) then 0 else lane w a (y % (64 / w))))

/-- VBCAST (R202). -/
def execVbcast (gd : Guard) (rd ra rb : Reg) (l : LaneI) (s : State) : Host.Outcome State Fault Refusal :=
  perform gd s do
    let a ← readReg ra
    let b ← readReg rb
    let w := (laneW l)
    writeReg rd (packW w (List.replicate (64 / w) (lane w a (b.toNat % (64 / w)))))

/-- VREV (R202). -/
def execVrev (gd : Guard) (rd ra : Reg) (l : LaneI) (s : State) : Host.Outcome State Fault Refusal :=
  perform gd s do
    let a ← readReg ra
    writeReg rd (packW (laneW l) (lanes (laneW l) a).reverse)

/-- VPACK (R202). -/
def execVpack (gd : Guard) (rd ra rb : Reg) (l : LaneI) (s : State) : Host.Outcome State Fault Refusal :=
  perform gd s do
    let a ← readReg ra
    let b ← readReg rb
    writeReg rd (packW (laneW l) (lanes (2 * (laneW l)) a ++ lanes (2 * (laneW l)) b))

/-- VUNPK (R202). -/
def execVunpk (gd : Guard) (rd ra : Reg) (l : LaneI) (s : State) : Host.Outcome State Fault Refusal :=
  perform gd s do
    let a ← readReg ra
    let w := (laneW l)
    writeReg rd (packW (2 * w) ((List.range (32 / w)).map fun i => wrapInt (2 * w) (signed w (lane w a i))))

/-! ## Conversions (R203 to R206) -/

/-- Width of a format code (R203). -/
def fmtWidth : Fmt → Nat
  | .b => 8
  | .h | .hf | .bh => 16
  | .w | .s => 32
  | .n4 => 4

/-- The float format of a code, none for an integer. -/
def fmtFloat : Fmt → Option FFmt
  | .hf => some fp16
  | .bh => some bf16
  | .s => some fp32
  | .n4 => some fp4
  | .b | .h | .w => none

/-- A pair of floats is an exact widening (R203). -/
def widens (dst src : Fmt) : Bool :=
  match dst, src with
  | .s, .hf | .s, .bh | .s, .n4 | .hf, .n4 | .bh, .n4 => true
  | _, _ => false

/-- One element of VCVT (R203). -/
def vcvtElem (dst src : Fmt) (x : Nat) : R Nat :=
  match fmtFloat dst, fmtFloat src with
  | some g, some f =>
    if widens dst src then do
      let r := widen f g x
      setF r.2
      pure r.1
    else convert f g x
  | some g, none => ofInt g (signed (fmtWidth src) x)
  | none, some f => toIntNum (f.read x) (fmtWidth dst) true
  | none, none => do
    let r := satS (fmtWidth dst) (signed (fmtWidth src) x)
    setF r.2
    pure r.1

/-- VCVT (R203). -/
def execVcvt (gd : Guard) (rd ra : Reg) (x y : Fmt) (s : State) : Host.Outcome State Fault Refusal :=
  perform gd s do
    let a ← readReg ra
    rounded rd do
      let e := 64 / max (fmtWidth x) (fmtWidth y)
      let xs ← (List.range e).mapM fun i => vcvtElem x y (lane (fmtWidth y) a i)
      pure (packW (fmtWidth x) xs)

/-- The magnitude of a finite value as a fraction. -/
def Num.frac : Num → Nat × Nat
  | .fin _ m e => (m * 2 ^ e.toNat, 2 ^ (-e).toNat)
  | _ => (0, 1)

/-- The larger magnitude of two finite values. -/
def maxFrac (x y : Nat × Nat) : Nat × Nat := if x.1 * y.2 < y.1 * x.2 then y else x

/-- VF4BLK on eight values (R205). -/
def f4blk (xs : List Num) : R Word := do
  if xs.any Num.isNan then
    let _ ← xs.mapM fun _ => draw
    setF flagNV
    pure 0x000000FF00000000
  else
    let inf := xs.any fun x => match x with | .inf _ => true | _ => false
    let mx := xs.foldl (fun m x => maxFrac m x.frac) (0, 1)
    if !inf && mx.1 = 0 then do
      let _ ← xs.mapM fun _ => draw
      pure 0
    else
      let sc := if inf then (0xFE, flagSAT) else roundMag e3m5 rup false mx.1 (6 * mx.2) 0 0
      setF sc.2
      let v := (e3m5.read sc.1).frac
      let cs ← xs.mapM fun x => match x with
        | .fin neg _ _ => if x.frac.1 = 0 then decided 0 0 else roundFrac fp4 neg (x.frac.1 * v.2) (x.frac.2 * v.1) 0
        | x => roundNum fp4 x
      pure (BitVec.ofNat 64 (pack 4 cs + sc.1 * 2 ^ 32))

/-- VF4BLK (R205). -/
def execVf4blk (gd : Guard) (rd ra rb : Reg) (y : Fmt) (s : State) : Host.Outcome State Fault Refusal :=
  perform gd s do
    let a ← readReg ra
    let b ← readReg rb
    let f := (fmtFloat y).getD fp16
    rounded rd (f4blk ((lanes 16 a ++ lanes 16 b).map f.read))

/-- VSUM (R206). -/
def execVsum (gd : Guard) (rd ra : Reg) (y : Fmt) (s : State) : Host.Outcome State Fault Refusal :=
  perform gd s do
    let a ← readReg ra
    let w := fmtWidth y
    match fmtFloat y with
    | none => writeReg rd (BitVec.ofInt 64 ((lanes w a).map (signed w)).sum)
    | some f => rounded rd do
      let v ← sumLanes ((lanes w a).map f.read)
      pure (BitVec.ofNat 64 v)

end Sys2Proof.Machine
end

