-- ==== Sys2Proof/Machine/Floats.lean ====
section
/-! DEFINITION. Majors 0x1C to 0x1E (R207 to R227): scalar floats, the special functions and the rational forms, with the
queue of a core's special-function unit and the row at which its operation finishes. -/

namespace Sys2Proof.Machine

/-! ## The special-function unit (R210) -/

/-- FP32 operand in the low half of a word (R207). -/
def f32 (w : Word) : Num := fp32.read (w.toNat % 2 ^ 32)

/-- Service cycles of a special function (R211); 8 for what is no special function. -/
def SfuOp.cycles : SfuOp → Nat
  | .fdiv | .fsqrt | .ftanh => 24
  | .frcp | .frsq => 16
  | .fexp2 | .flog2 => 20
  | .fsin | .fcos => 28
  | _ => 8

/-- A rational operation that neither rounds into a float nor into an integer; none for the others. -/
def SfuEntry.rat (e : SfuEntry) : Option QRes :=
  let x := readQ e.a
  let y := readQ e.b
  let m := pswQrm e.psw
  match e.op with
  | .qadd => some (qAdd m false x y)
  | .qsub => some (qAdd m true x y)
  | .qmul => some (qMul m x y)
  | .qmin => some (qMinMax false x y)
  | .qmax => some (qMinMax true x y)
  | .qneg => some (qSign (!·) x)
  | .qabs => some (qSign (fun _ => false) x)
  | .qeq => some (qCmp .eq x y)
  | .qlt => some (qCmp .lt x y)
  | .qle => some (qCmp .le x y)
  | .qun => some (qCmp .un x y)
  | .fromL => some (qround m e.a.toInt 1)
  | .fromLu => some (qround m e.a.toNat 1)
  | .fromHf => some (floatToQ m (fp16.read (e.a.toNat % 2 ^ 16)))
  | .fromBh => some (floatToQ m (bf16.read (e.a.toNat % 2 ^ 16)))
  | .qmake => some (qMake m e.a e.b)
  | .qnum => some (qNum x)
  | .qden => some (qDen x)
  | .qmed => some (qMed m x y)
  | .qcf => some (qCf x e.b.toNat)
  | .qlim => some (qLim m x (fieldWidth e.a) e.b.toNat)
  | .qcanon => some (qCanon x)
  | .qcvtF => if pswRq e.psw then some (floatToQ m (f32 e.a)) else none
  | .qcvtI => some (qFloor x)
  | .qclass => some (qClass e.a)
  | .gcd => some (qGcd e.a e.b)
  | .toL | .toLu | .toHf | .toBh | .fdiv | .fsqrt | .frcp | .frsq | .fexp2 | .flog2 | .fsin | .fcos | .ftanh => none

/-- A word that never draws, with its flags. -/
def fixedRes (r : Nat × Byte) : R Nat := do
  setF r.2
  pure r.1

/-- The operations that round in FRM, and the special functions. -/
def SfuEntry.float (e : SfuEntry) : R Nat :=
  let x := f32 e.a
  match e.op with
  | .fdiv => fDiv x (f32 e.b)
  | .fsqrt => fSqrt x
  | .frcp => fRcp x
  | .frsq => fixedRes (fRsq x)
  | .fexp2 => fixedRes (fExp2 x)
  | .flog2 => fixedRes (fLog2 x)
  | .fsin => fixedRes (fTrig false x)
  | .fcos => fixedRes (fTrig true x)
  | .ftanh => fixedRes (fTanh x)
  | .toL => qToInt true (readQ e.a)
  | .toLu => qToInt false (readQ e.a)
  | .toHf => qToFloat fp16 (readQ e.a)
  | .toBh => qToFloat bf16 (readQ e.a)
  | _ => qToFloat fp32 (readQ e.a)

/-- Service cycles (R211, R226). -/
def SfuEntry.time (e : SfuEntry) : Nat :=
  let ta := 8 + rho (fieldWidth e.a)
  let tab := 8 + rho (max (fieldWidth e.a) (fieldWidth e.b))
  match e.op with
  | .qnum | .qden | .qcanon | .qcvtI | .toL | .toLu | .toHf | .toBh => ta
  | .qeq | .qlt | .qle | .qun => tab
  | .qmin | .qmax => if (readQ e.a).unordered && (readQ e.b).unordered then 8 else tab
  | .qneg | .qabs => match readQ e.a with | .fin _ _ _ => ta | _ => 8
  | .qcvtF => match e.rat with | some r => r.time | none => ta
  | op => match e.rat with | some r => r.time | none => op.cycles

/-- The result: word, predicate, and what the roundings leave. -/
def SfuEntry.result (e : SfuEntry) (srg : Word) : Word × Bool × Rnd :=
  match e.rat with
  | some r => (r.word, r.pred, { frm := 0, srg := srg, flags := r.flags })
  | none =>
    let r := runR e.float e.psw srg
    (BitVec.ofNat 64 r.1, false, r.2)

/-- The head entry of a core's queue starts service at cycle `c` (R210). -/
def State.sfuService (s : State) (core c : Nat) : State :=
  match (s.core core).sfu with
  | [] => s
  | e :: _ =>
    (s.updCore core fun k => { k with sfuStart := c }).at (c + e.time) (.ev ⟨.sfuOperationFinish, core, e.tid, 0, .none⟩)

/-- An operation issued into the core's queue; its thread leaves (R210). -/
def sfuIssue (op : SfuOp) (rd : Option Reg) (pd : Option Pred) (a b : Word) : M Unit := do
  chkTx rd
  let s ← get
  let core := s.me.core
  let tid := s.ctl.acting
  let free := (s.core core).sfu.isEmpty
  let e : SfuEntry := ⟨tid, op, rd, pd, a, b, s.me.ctx.psw, s.ctl.cycle + 1⟩
  let s := s.updCore core fun k => { k with sfu := k.sfu ++ [e] }
  let s := if free then s.sfuService core (s.ctl.cycle + 1) else s
  throw (.leave ((s.updMe fun t => { t with cont := .reply {} }).leaveAs tid .sfu))

/-- SFU_OPERATION_FINISH (R210): the head operation's result, flags and generator step are written, its thread goes on,
and the next entry starts. -/
def execSfuOperationFinish (s : State) : Host.Outcome State Fault Refusal :=
  let core := s.ctl.ev.a
  match (s.core core).sfu with
  | [] => .fault .noSuchHappening
  | e :: rest =>
    let s := (s.updCore core fun k => { k with sfu := rest }).sfuService core s.ctl.cycle
    .next (s.completeBy e.tid none do
      let s ← get
      let r := e.result s.me.ctx.srg
      match e.rd with
      | some rd => writeReg rd r.1
      | none => pure ()
      match e.pd with
      | some pd => writePred pd r.2.1
      | none => pure ()
      modify fun s => s.updMe fun t => { t with
        ctx := { t.ctx with psw := pswOrFlags t.ctx.psw r.2.2.flags, srg := r.2.2.srg } })

/-! ## Shapes -/

/-- A form of two operands that is a float form in float mode and a rational operation in rational mode (R207, R215). -/
def float2 (gd : Guard) (rd ra rb : Reg) (q : SfuOp) (f : Word → Word → M Unit) (s : State) :
    Host.Outcome State Fault Refusal :=
  perform gd s do
    let a ← readReg ra
    let b ← readReg rb
    if pswRq s.me.ctx.psw then sfuIssue q (some rd) none a b else f a b

/-- The same with one operand. -/
def float1 (gd : Guard) (rd ra : Reg) (q : SfuOp) (f : Word → M Unit) (s : State) : Host.Outcome State Fault Refusal :=
  perform gd s do
    let a ← readReg ra
    if pswRq s.me.ctx.psw then sfuIssue q (some rd) none a 0 else f a

/-- A compare. -/
def floatCmp (gd : Guard) (pd : Pred) (ra rb : Reg) (q : SfuOp) (k : FCmp) (s : State) :
    Host.Outcome State Fault Refusal :=
  perform gd s do
    let a ← readReg ra
    let b ← readReg rb
    if pswRq s.me.ctx.psw then sfuIssue q none (some pd) a b
    else do
      let r := fCmp k (f32 a) (f32 b)
      writePred pd r.1
      orFlags r.2

/-- A rounded result in the low bits of rd. -/
def roundTo (rd : Reg) (c : R Nat) : M Unit := rounded rd (do let v ← c; pure (BitVec.ofNat 64 v))

/-- A result with flags in the low bits of rd. -/
def flagTo (rd : Reg) (r : Nat × Byte) : M Unit := writeFlagged rd (BitVec.ofNat 64 r.1) r.2

/-- FNEG and FABS in float mode (R208). -/
def fSign (f : Bool → Bool) (a : Word) : Nat × Byte :=
  let c := a.toNat % 2 ^ 32
  match fp32.read c with
  | .nan s => (fp32.nanCode, if s then flagNV else 0)
  | _ => (b2n (f (bit c 31)) * 2 ^ 31 + c % 2 ^ 31, 0)

/-- An operation of the unit whatever the mode (R211, R220), with one or two operands. -/
def unit1 (gd : Guard) (rd ra : Reg) (op : SfuOp) (s : State) : Host.Outcome State Fault Refusal :=
  perform gd s do
    let a ← readReg ra
    sfuIssue op (some rd) none a 0

def unit2 (gd : Guard) (rd ra rb : Reg) (op : SfuOp) (s : State) : Host.Outcome State Fault Refusal :=
  perform gd s do
    let a ← readReg ra
    let b ← readReg rb
    sfuIssue op (some rd) none a b

/-! ## The forms -/

/-- FDIV (R211). -/
def execFdiv (gd : Guard) (rd ra rb : Reg) (s : State) : Host.Outcome State Fault Refusal :=
  unit2 gd rd ra rb .fdiv s

/-- FSQRT (R211). -/
def execFsqrt (gd : Guard) (rd ra : Reg) (s : State) : Host.Outcome State Fault Refusal :=
  unit1 gd rd ra .fsqrt s

/-- FRCP (R211). -/
def execFrcp (gd : Guard) (rd ra : Reg) (s : State) : Host.Outcome State Fault Refusal :=
  unit1 gd rd ra .frcp s

/-- FRSQ (R212). -/
def execFrsq (gd : Guard) (rd ra : Reg) (s : State) : Host.Outcome State Fault Refusal :=
  unit1 gd rd ra .frsq s

/-- FEXP2 (R212). -/
def execFexp2 (gd : Guard) (rd ra : Reg) (s : State) : Host.Outcome State Fault Refusal :=
  unit1 gd rd ra .fexp2 s

/-- FLOG2 (R212). -/
def execFlog2 (gd : Guard) (rd ra : Reg) (s : State) : Host.Outcome State Fault Refusal :=
  unit1 gd rd ra .flog2 s

/-- FSIN (R212). -/
def execFsin (gd : Guard) (rd ra : Reg) (s : State) : Host.Outcome State Fault Refusal :=
  unit1 gd rd ra .fsin s

/-- FCOS (R212). -/
def execFcos (gd : Guard) (rd ra : Reg) (s : State) : Host.Outcome State Fault Refusal :=
  unit1 gd rd ra .fcos s

/-- FTANH (R212). -/
def execFtanh (gd : Guard) (rd ra : Reg) (s : State) : Host.Outcome State Fault Refusal :=
  unit1 gd rd ra .ftanh s

/-- FADD (R208, R215). -/
def execFadd (gd : Guard) (rd ra rb : Reg) (s : State) : Host.Outcome State Fault Refusal :=
  float2 gd rd ra rb .qadd (fun a b => roundTo rd (fAdd fp32 (f32 a) (f32 b))) s

/-- FSUB (R208, R215). -/
def execFsub (gd : Guard) (rd ra rb : Reg) (s : State) : Host.Outcome State Fault Refusal :=
  float2 gd rd ra rb .qsub (fun a b => roundTo rd (fSub fp32 (f32 a) (f32 b))) s

/-- FMUL (R208, R215). -/
def execFmul (gd : Guard) (rd ra rb : Reg) (s : State) : Host.Outcome State Fault Refusal :=
  float2 gd rd ra rb .qmul (fun a b => roundTo rd (fMul fp32 (f32 a) (f32 b))) s

/-- FMA (R208); in rational mode the word is illegal, whatever its guard (R81, R215). -/
def execFma (gd : Guard) (rd ra rb : Reg) (s : State) : Host.Outcome State Fault Refusal :=
  if pswRq s.me.ctx.psw then .next (s.finish (.error (.trap 0x02 0)))
  else perform gd s do
    let r ← readReg rd
    let a ← readReg ra
    let b ← readReg rb
    roundTo rd (fFma fp32 (f32 a) (f32 b) (f32 r))

/-- FMIN (R208, R217). -/
def execFmin (gd : Guard) (rd ra rb : Reg) (s : State) : Host.Outcome State Fault Refusal :=
  float2 gd rd ra rb .qmin (fun a b => flagTo rd (fMinMax fp32 false a.toNat b.toNat)) s

/-- FMAX (R208, R217). -/
def execFmax (gd : Guard) (rd ra rb : Reg) (s : State) : Host.Outcome State Fault Refusal :=
  float2 gd rd ra rb .qmax (fun a b => flagTo rd (fMinMax fp32 true a.toNat b.toNat)) s

/-- FNEG (R208, R215). -/
def execFneg (gd : Guard) (rd ra : Reg) (s : State) : Host.Outcome State Fault Refusal :=
  float1 gd rd ra .qneg (fun a => flagTo rd (fSign (!·) a)) s

/-- FABS (R208, R215). -/
def execFabs (gd : Guard) (rd ra : Reg) (s : State) : Host.Outcome State Fault Refusal :=
  float1 gd rd ra .qabs (fun a => flagTo rd (fSign (fun _ => false) a)) s

/-- FCMP.EQ (R208, R217). -/
def execFcmpEq (gd : Guard) (rd : Pred) (ra rb : Reg) (s : State) : Host.Outcome State Fault Refusal :=
  floatCmp gd rd ra rb .qeq .eq s

/-- FCMP.LT (R208, R217). -/
def execFcmpLt (gd : Guard) (rd : Pred) (ra rb : Reg) (s : State) : Host.Outcome State Fault Refusal :=
  floatCmp gd rd ra rb .qlt .lt s

/-- FCMP.LE (R208, R217). -/
def execFcmpLe (gd : Guard) (rd : Pred) (ra rb : Reg) (s : State) : Host.Outcome State Fault Refusal :=
  floatCmp gd rd ra rb .qle .le s

/-- FCMP.UN (R208, R217). -/
def execFcmpUn (gd : Guard) (rd : Pred) (ra rb : Reg) (s : State) : Host.Outcome State Fault Refusal :=
  floatCmp gd rd ra rb .qun .un s

/-- FCVT.S.L (R208, R225). -/
def execFcvtSL (gd : Guard) (rd ra : Reg) (s : State) : Host.Outcome State Fault Refusal :=
  float1 gd rd ra .fromL (fun a => roundTo rd (ofInt fp32 a.toInt)) s

/-- FCVT.L.S (R208, R225). -/
def execFcvtLS (gd : Guard) (rd ra : Reg) (s : State) : Host.Outcome State Fault Refusal :=
  float1 gd rd ra .toL (fun a => roundTo rd (toIntNum (f32 a) 64 true)) s

/-- FCVT.S.LU (R208, R225). -/
def execFcvtSLu (gd : Guard) (rd ra : Reg) (s : State) : Host.Outcome State Fault Refusal :=
  float1 gd rd ra .fromLu (fun a => roundTo rd (ofInt fp32 a.toNat)) s

/-- FCVT.LU.S (R208, R225). -/
def execFcvtLuS (gd : Guard) (rd ra : Reg) (s : State) : Host.Outcome State Fault Refusal :=
  float1 gd rd ra .toLu (fun a => roundTo rd (toIntNum (f32 a) 64 false)) s

/-- FCVT.S.HF (R208, R225). -/
def execFcvtSHf (gd : Guard) (rd ra : Reg) (s : State) : Host.Outcome State Fault Refusal :=
  float1 gd rd ra .fromHf (fun a => flagTo rd (widen fp16 fp32 (a.toNat % 2 ^ 16))) s

/-- FCVT.HF.S (R208, R225). -/
def execFcvtHfS (gd : Guard) (rd ra : Reg) (s : State) : Host.Outcome State Fault Refusal :=
  float1 gd rd ra .toHf (fun a => roundTo rd (convert fp32 fp16 (a.toNat % 2 ^ 32))) s

/-- FCVT.S.BH (R208, R225). -/
def execFcvtSBh (gd : Guard) (rd ra : Reg) (s : State) : Host.Outcome State Fault Refusal :=
  float1 gd rd ra .fromBh (fun a => flagTo rd (widen bf16 fp32 (a.toNat % 2 ^ 16))) s

/-- FCVT.BH.S (R208, R225). -/
def execFcvtBhS (gd : Guard) (rd ra : Reg) (s : State) : Host.Outcome State Fault Refusal :=
  float1 gd rd ra .toBh (fun a => roundTo rd (convert fp32 bf16 (a.toNat % 2 ^ 32))) s

/-- QMAKE (R221). -/
def execQmake (gd : Guard) (rd ra rb : Reg) (s : State) : Host.Outcome State Fault Refusal :=
  unit2 gd rd ra rb .qmake s

/-- QMED (R221). -/
def execQmed (gd : Guard) (rd ra rb : Reg) (s : State) : Host.Outcome State Fault Refusal :=
  unit2 gd rd ra rb .qmed s

/-- QCF (R223). -/
def execQcf (gd : Guard) (rd ra rb : Reg) (s : State) : Host.Outcome State Fault Refusal :=
  unit2 gd rd ra rb .qcf s

/-- QLIM (R224). -/
def execQlim (gd : Guard) (rd ra rb : Reg) (s : State) : Host.Outcome State Fault Refusal :=
  unit2 gd rd ra rb .qlim s

/-- GCD (R221). -/
def execGcd (gd : Guard) (rd ra rb : Reg) (s : State) : Host.Outcome State Fault Refusal :=
  unit2 gd rd ra rb .gcd s

/-- QNUM (R221). -/
def execQnum (gd : Guard) (rd ra : Reg) (s : State) : Host.Outcome State Fault Refusal :=
  unit1 gd rd ra .qnum s

/-- QDEN (R221). -/
def execQden (gd : Guard) (rd ra : Reg) (s : State) : Host.Outcome State Fault Refusal :=
  unit1 gd rd ra .qden s

/-- QCANON (R221). -/
def execQcanon (gd : Guard) (rd ra : Reg) (s : State) : Host.Outcome State Fault Refusal :=
  unit1 gd rd ra .qcanon s

/-- QCVT.F (R225). -/
def execQcvtF (gd : Guard) (rd ra : Reg) (s : State) : Host.Outcome State Fault Refusal :=
  unit1 gd rd ra .qcvtF s

/-- QCVT.I (R225). -/
def execQcvtI (gd : Guard) (rd ra : Reg) (s : State) : Host.Outcome State Fault Refusal :=
  unit1 gd rd ra .qcvtI s

/-- QCLASS (R222). -/
def execQclass (gd : Guard) (rd ra : Reg) (s : State) : Host.Outcome State Fault Refusal :=
  unit1 gd rd ra .qclass s

/-- QSETM (R221). -/
def execQsetm (gd : Guard) (ra : Reg) (s : State) : Host.Outcome State Fault Refusal :=
  perform gd s do
    let a ← readReg ra
    modify fun s => s.updMe fun t => { t with ctx := { t.ctx with psw := putField t.ctx.psw 19 3 (a.toNat % 8) } }

end Sys2Proof.Machine
end

