-- ==== Sys2Proof/Machine/Issue.lean ====
section
/-! DEFINITION. What the next step is: the head of the agenda when it is due, else the turn of the next core in its slot of
this cycle (R38, R43), else the next cycle; and the fetch of an instruction word (R17, R136). -/

namespace Sys2Proof.Machine

/-- A step's work: nothing but a change of state, a happening's row, or one word on each of some threads. -/
inductive Plan where
  | idle (s : State)
  | happen (k : EvKind) (s : State)
  | run (f : Form) (tids : List Nat) (s : State)

/-- The fetch of a word. -/
inductive Fetched where
  /-- the checks of R17 fail -/
  | trap (c : Nat)
  /-- the line or the translation is not there -/
  | miss (s : State)
  | word (w : BitVec 32) (s : State)

/-- The 32-bit word at a byte offset of a line. -/
def ILine.word (l : ILine) (off : Nat) : BitVec 32 := BitVec.ofNat 32 (field l.data.toNat (8 * off) 32)

/-- The instruction line that the cluster's cache holds (R136). -/
def Cluster.iFind (c : Cluster) (asid line : Nat) : Option ILine :=
  c.icache.find? fun l => l.asid == asid && l.va == line

/-- The word at an address in the cluster's instruction cache; one that crosses a line takes its upper bytes from the next line. Else the
number of a line that is not there. -/
def Cluster.iWord (c : Cluster) (asid va : Nat) : Except Nat (BitVec 32) :=
  match c.iFind asid (va / 128) with
  | none => .error (va / 128)
  | some l =>
    if va % 128 ≤ 124 then .ok (l.word (va % 128))
    else match c.iFind asid (va / 128 + 1) with
      | none => .error (va / 128 + 1)
      | some m => .ok (l.word (va % 128) ||| BitVec.ofNat 32 (field m.data.toNat 0 32 * 2 ^ (8 * (128 - va % 128))))

/-- The fetch of a thread's next word (R17, R136, R392); log 7. -/
def State.fetch (s : State) (tid : Nat) : Fetched :=
  let t := s.thread tid
  let g := t.segs[1]
  let pc := t.ctx.pc.toNat
  let va := g.base.toNat + pc
  let cl := t.core / 8
  let asid := s.asidOf cl
  if g.effLimit (s.spadSize cl) < pc + 4 then .trap 0x20
  else if !g.x then .trap 0x21
  else if g.space ≠ .global then .trap 0x24
  else if 2 ^ 57 ≤ va then .trap 0x2C
  else
    let walk (c : Cluster) (va : Nat) : Fetched := .miss ((s.setCluster cl c).startWalk ⟨cl, asid, s.tenantOf cl, va, .fetch, .thread tid, 0⟩)
    match (s.cluster cl).lookup asid va .fetch with
    | (none, c) => walk c va
    | (some e, c) =>
      -- a word that crosses a page has a second translation
      if va / 2 ^ e.size ≠ (va + 3) / 2 ^ e.size && decide (2 ^ 57 ≤ va + 3) then .trap 0x2C
      else if va / 2 ^ e.size ≠ (va + 3) / 2 ^ e.size && (c.lookup asid (va + 3) .fetch).1.isNone then walk c (va + 3)
      else match c.iWord asid va with
        | .ok w => .word w (s.setCluster cl c)
        | .error line =>
          let e := if line = va / 128 then e else ((c.lookup asid (128 * line) .fetch).1).getD e
          .miss ((s.setCluster cl c).toSlice
            { who := .thread tid, fill := true, code := true, va := 128 * line, pa := e.phys (128 * line), n := 128, asid := asid,
              tenant := s.tenantOf cl, key := e.key, ac := e.ac, cluster := cl })

/-- The state in which a thread's word runs. -/
def State.acting (s : State) (tid : Nat) (w : BitVec 32) (retry : Bool) : State :=
  let s := s.updThread tid fun t => { t with word := w }
  s.updCtl fun c => { c with
    acting := tid, retry := retry, after := none, lock := if (s.thread tid).inGang then s.gangOf tid else [] }

/-- The event latch set. -/
def State.latch (s : State) (e : Event) : State := s.updCtl fun c => { c with ev := e }

/-- An instruction that acts for its whole gang through the leader (R137, R262). -/
def leaderOnly : Form → Bool
  | .base (.br _ _) | .base (.call _ _) | .base (.jmp _ _) | .base (.ret _) | .base (.loop _ _ _)
  | .extra (.ungang _) => true
  | _ => false

/-- The check of R11 that depends on the slot: gq in a slot other than 0 raises 0x04. -/
def formCheck (slot0 : Bool) (f : Form) : Option Nat := if !slot0 && f.regs.contains .gq then some 0x04 else none

/-- What a thread does with its word: the word runs on it, or on every member of its gang, or it is illegal (R80). -/
def State.planWord (s : State) (tid : Nat) (w : BitVec 32) (retry : Bool) : Plan :=
  let s := s.acting tid w retry
  match decodeForm w.toNat with
  | .error e =>
    .happen .illegalWord (s.latch ⟨.illegalWord, e.cause, 0, 0, .word w⟩)
  | .ok f =>
    match formCheck s.isSlot0 f with
    | some c => .happen .illegalWord (s.latch ⟨.illegalWord, c, 0, 0, .word w⟩)
    | none => if retry || leaderOnly f then .run f [tid] s else .run f (s.gangOf tid) s

/-- The cycle of a core's clock (R440). -/
def State.coreCycle (s : State) (core : Nat) : Nat := s.ctl.cycle - (s.die (core / 2048)).lostCycles

/-- A thread is due to be unbound by the quantum (R43), which counts cycles of the core. -/
def State.quantumDue (s : State) (tid : Nat) : Bool :=
  let t := s.thread tid
  decide (32768 ≤ tid) && !t.inGang && decide (t.aux.boundAt + 8192 ≤ s.coreCycle t.core) && !(s.core t.core).fifo.isEmpty

/-- A thread can issue: it is active and its binding is complete (R43). -/
def State.seated (s : State) (tid : Nat) : Bool :=
  let t := s.thread tid
  t.run == .active && t.slot.any fun k => (s.core t.core).slots.toList.getD k .empty == .held tid

/-- The turn of a core in its slot of this cycle (R38, R43). A slot whose tadpole awaits lines of its segment table tries again. -/
def State.planTurn (s : State) (core : Nat) : Plan :=
  let k := s.coreCycle core % 8
  let c := s.core core
  match c.slots.toList.getD k .empty with
  | .empty =>
    if 2 ≤ k && !c.fifo.isEmpty && !c.noBind && (s.cluster (core / 8)).powered then
      .happen .tadpoleBinding (s.latch ⟨.tadpoleBinding, core, k, 0, .none⟩)
    else .idle s
  | .loading tid n =>
    if n = 1 then .idle (s.setCore core { c with slots := c.slots.setIfInBounds k (.held tid) })
    else if c.noBind || !(s.cluster (core / 8)).isOn then .idle s
    else .happen .tadpoleBinding (s.latch ⟨.tadpoleBinding, core, k, 0, .none⟩)
  | .held tid =>
    let t := s.thread tid
    let mine := (s.gangOf tid).head? == some tid
    match t.run with
    | .active =>
      if !mine || (decide (32768 ≤ tid) && (s.gangOf tid).any fun u => (s.core (s.thread u).core).noBind) ||
          !(s.cluster (core / 8)).isOn || !(s.gangOf tid).all s.seated then .idle s
      else if s.quantumDue tid then
        .happen .quantumExpiry ((s.latch ⟨.quantumExpiry, core, k, 0, .none⟩).updCtl
          fun x => { x with turns := core :: x.turns })
      else
        match s.fetch tid with
        | .trap e => .happen .fetchTrap ((s.acting tid 0 false).latch ⟨.fetchTrap, e, 0, 0, .none⟩)
        | .miss s' => .idle ((s'.updThread tid fun t => { t with cont := .none }).leaveAs tid .waiting)
        | .word w s' => s'.planWord tid w false
    | _ => .idle s

/-- A core has something to do in its slot of a cycle. -/
def State.coreLive (s : State) (core : Nat) : Bool :=
  let c := s.core core
  !(s.die (core / 2048)).paused && (s.cluster (core / 8)).isOn &&
    ((!c.fifo.isEmpty && !c.noBind && c.slots.toList.any (· == .empty)) || c.slots.toList.any fun x =>
      match x with
      | .loading _ n => n == 1 || !c.noBind
      | .held t => (s.thread t).run == .active
      | .empty => false)

/-- The next cycle in which something is to be done, with the cores' turns in it. -/
def State.nextCycle (s : State) : State :=
  let live := s.cores.keys.filter s.coreLive
  if live.isEmpty then
    match s.ctl.agenda with
    | (d, _) :: _ => s.updCtl fun c => { c with cycle := max d (c.cycle + 1) }
    | [] => s.updCtl fun c => { c with cycle := c.cycle + 1 }
  else s.updCtl fun c => { c with cycle := c.cycle + 1, turns := live }

/-- The turns of this cycle, then the next cycle. -/
def State.planTurns (s : State) : Plan :=
  match s.ctl.turns with
  | core :: rest => (s.updCtl fun c => { c with turns := rest }).planTurn core
  | [] => .idle s.nextCycle

/-! ## The die of what is due (R440) -/

/-- The compute die at which an agent of this device stands. -/
def State.agentDie (s : State) (a : Agent) : Option Nat :=
  match a with
  | .thread tid => some ((s.thread tid).core / 2048)
  | .job j => (s.job j).map (·.core / 2048)
  | .shoot _ c => some (c / 256)
  | .home k => some (field k 36 3)
  | _ => none

/-- The die of the home of a local physical address (R315). -/
def dieOfPa (pa : Nat) : Nat := field pa 36 3

/-- The die at which a message in flight is taken up. -/
def State.msgDie (s : State) (m : Msg) : Option Nat :=
  match m with
  | .reply a _ | .wake a _ => s.agentDie a
  | .appended e _ => some (e.cluster / 256)
  | .waitEnd a => s.agentDie a
  | .refusal i => match s.msgs.find i with | some (.net m _) => some (m.srcCore / 2048) | _ => none
  | .home r | .pairCheck _ _ r _ => some (dieOfPa r.pa)
  | .combined rs => rs.head?.map fun r => dieOfPa r.pa
  | .slice r => some (dieOfPa r.pa)
  | .fill r _ _ _ _ => some (r.cluster / 256)
  | .wb w => some (dieOfPa w.pa)
  | .walk w => some (w.cluster / 256)
  | .append e _ => some (dieOfPa e.pa)
  | .tadpole _ c | .net _ c => some (c / 2048)
  | .remote r => some (r.core / 2048)
  | .contribution c => if c.router < 8 then some c.router else none
  | .delivery d => if d.router < 8 then some d.router else none
  | _ => none

/-- The die whose clusters and slices take up a happening that is due; none for those of the device. -/
def State.dieOf (s : State) (h : Happen) : Option Nat :=
  match h with
  | .resume tid => s.agentDie (.thread tid)
  | .ev e =>
    match e.kind with
    | .migrationDeparture | .migrRetry | .hardwareMigration | .gangFormationTimeout => s.agentDie (.thread e.a)
    | .tadpoleBinding | .sfuOperationFinish | .handlerStart | .remoteAccessService | .streamMessageMove | .clChunk => some (e.a / 2048)
    | .engineSelection | .quadSignal | .packetGrant | .packetArrival | .packetPromotion | .copyUnit | .traceDrain
    | .traceDrainTimeout | .reservationRevocation | .logAreaFullTimeout => some (e.a / 256)
    | .shootdownCluster => some (e.b / 256)
    | .overflowChainRead => some (dieOfPa e.a)
    | .faultRecordDeferred | .accessCounterHalving => some e.a
    -- what acts on clusters or homes of every die waits while one pauses
    | .pondPlacement | .pondEnd | .phaseEnd | .preempt | .resume => (s.dies.find? fun d => d.2.paused).map (·.1)
    | .mmaF4 | .mmaBf | .mmaH | .accZero | .accDrain | .fmtSet | .qmma | .cp1d | .cp2d | .cpGather | .cpScatter | .cpFill
    | .cpSignal | .jobCompletion | .clReduce | .clBcast | .clAllreduce => s.agentDie (.job e.a)
    | .replyArrival | .wake | .icacheLineArrival | .tlbWalkCompletion | .l1Fill | .writeBackAtHome | .sliceRequest
    | .hbmAccessCompletion | .eftOperation | .omegaCombine | .logAppendArrival | .pairCheck | .tadpoleArrival
    | .messageArrival | .messageRetry | .groupContribution | .groupDelivery =>
      match s.msgs.find e.a with
      | some m => s.msgDie m
      | none => none
    | .movePass | .finalPassTimeout => (s.dev.moves.find e.a).map fun m => dieOfPa (localOf m.old)
    | _ => none

/-- When the pause of a die ends, if it pauses. -/
def State.pauseEnd (s : State) (d : Nat) : Option Nat :=
  s.ctl.agenda.findSome? fun x =>
    match x.2 with
    | .ev e => if e.kind == .operatingPointPauseEnd && e.a == d then some x.1 else none
    | .resume _ => none

/-- The cycle to which a happening that is due must wait because its die pauses (R440). -/
def State.heldTo (s : State) (h : Happen) : Option Nat :=
  if s.dies.any fun x => x.2.paused then (s.dieOf h).bind s.pauseEnd else none

/-- What can happen before the ROM has released X-die 1 and the C-dies from reset (R434): the ROM's own work, accesses to BAR0, resets. -/
def beforeBoot : EvKind → Bool
  | .boot | .hstat | .mrq | .meq | .mcq | .ideEnable | .thermalTrip | .functionLevelReset => true
  | _ => false

/-- What the next step is. A part that has not booted takes up nothing else. -/
def State.plan (s : State) : Plan :=
  match s.ctl.agenda with
  | (d, h) :: rest =>
    if d ≤ s.ctl.cycle then
      let held := s.heldTo h
      let s := s.updCtl fun c => { c with agenda := rest }
      match held with
      | some t => .idle (s.at t h)
      | none => match h with
      | .ev e => if s.dev.boot.bootok || beforeBoot e.kind then .happen e.kind (s.latch e) else .idle s
      | .resume tid =>
        match s.threads.find tid with
        | some t => match t.cont with
          | .retry | .second => s.planWord tid t.word true
          | _ => .idle s
        | none => .idle s
    else s.planTurns
  | [] => s.planTurns

/-- The thread as the one that acts: a gang's members run a word one after the other (R37). -/
def State.actAs (s : State) (tid : Nat) : State :=
  let s := s.updThread tid fun t => { t with word := s.me.word }
  s.updCtl fun c => { c with acting := tid, after := none }

/-- A segment of `n` bytes from address `base`, with the rights of a task's segment of this space. -/
def plainSeg (base n : Nat) (sp : Space) (x o : Bool) : Seg :=
  { base := BitVec.ofNat 57 base, limit := BitVec.ofNat 58 n, space := sp,
    r := true, w := !x, x := x, o := o, s := !x && !o, g := !x && !o }

/-- A machine on which a worker thread of slot 2 of core 0 is about to issue this word: pond 1 on cluster 0, code at
virtual address 0, data at 2^30, scratchpad and TCM as a launch gives them, objects at 2^31, and all of it translated by
three 1 GiB pages. A launched program's first word stands so (R33, R335); log 10. -/
def State.placeWord (s : State) (w : BitVec 32) : State :=
  let page (i : Nat) (x : Bool) : TlbEntry := ⟨1, i * 2 ^ 30, 30, i * 2 ^ 30, !x, !x, x, false, 0⟩
  let cl := s.cluster 0
  let launch : LaunchRec := ⟨0, 0, 0, 0, 0, 0, 0, 0⟩
  let crew : Crew := ⟨1, 0, 16384, 1, 0, 0, launch⟩
  let pond : Pond := ⟨0, 0, 0, 0, 0, 1, launch, 0, 0, 0, 1, 1, .running, 1, {}, [], [], [], false⟩
  let t : Thread :=
    { run := .active, core := 0, slot := some 2, ident := ⟨1, 0, 0, 0⟩,
      ctx := { psw := BitVec.ofNat 64 (1 + 2 * 2 ^ 41), srg := 1 },
      segs := #v[plainSeg (2 ^ 30) (2 ^ 30) .global false false, plainSeg 0 (2 ^ 20) .global true false,
        plainSeg 0 16384 .scratch false false, plainSeg 0 0x7000 .tcm false false,
        plainSeg (2 ^ 31) (2 ^ 30) .object false true, {}, {}, {}] }
  let line : ILine := ⟨1, 0, BitVec.ofNat 1024 w.toNat, 0⟩
  let s := s.setThread 32768 t
  let s := s.updCore 0 fun c => { c with slots := c.slots.set 2 (.held 32768), entries := [32768], fifo := [] }
  let s := s.setCluster 0 { cl with
    crew := some crew, icache := line :: cl.icache,
    tlb := [page 0 true, page 1 false, page 2 false] }
  let s := s.updDev fun d => { d with ponds := d.ponds.set 1 pond, asids := d.asids.set 1 0x8000000000000000, boot.bootok := true }
  s.updCtl fun c => { c with
    cycle := 8 * c.cycle + 2, turns := [0], nextTid := max c.nextTid 32769, nextPond := max c.nextPond 2, agenda := c.agenda.filter fun a => decide (8 * c.cycle + 2 < a.1) }

end Sys2Proof.Machine
end

