-- ==== Sys2Proof/Machine/Control.lean ====
section
/-! DEFINITION. Majors 0x08 to 0x0A: branches, calls and loops (R132 to R137). In a gang the leader decides and every
member follows. -/

namespace Sys2Proof.Machine

/-- The members of the acting thread's gang besides itself (R137). -/
def State.followers (s : State) : List Nat := (s.gangOf s.ctl.acting).filter (· != s.ctl.acting)

/-- Every follower goes on at this offset, with `f` done to it (R137). -/
def followAt (npc : BitVec 32) (f : Thread → Thread) : M Unit :=
  modify fun s => s.followers.foldl
    (fun s u => s.updThread u fun t => { f t with ctx := { (f t).ctx with pc := npc } }) s

/-- A trap of the leader alone: the followers go on at the next word (R37), and the trap is taken. -/
def leaderTrap (s : State) : State :=
  s.followers.foldl (fun s u => s.updThread u fun t => { t with ctx := { t.ctx with pc := t.ctx.pc + 4 } }) s

/-- A breakpoint at a control-flow word is raised in every follower too (R413). -/
def followBreak (pc : BitVec 32) (s : State) (t : State) : State :=
  if s.breakpoint (s.servedTask s.ctl.acting) pc.toNat then
    s.followers.foldl (fun t u => (t.countHit (t.servedTask u) true).takeTrap u 0xA0 pc.toNat (t.thread u).ctx.pc.toNat 0 s.me.word) t
  else t

/-- A control-flow form: under the leader's guard the body gives the next offset; without it every member goes on at the
next word (R81, R137). -/
def performJump (gd : Guard) (s : State) (body : M (BitVec 32)) : Host.Outcome State Fault Refusal :=
  if guardHolds s gd then
    match body.run s with
    | .error (.trap c a) => .next ((leaderTrap s).finish (.error (.trap c a)))
    | .ok r => .next (followBreak s.me.ctx.pc s (s.finish (.ok r)))
    | r => .next (s.finish r)
  else .next ((leaderTrap s).complete (s.me.ctx.pc + 4) false)

/-- The offset of the acting instruction plus 4 times a signed displacement (R133). -/
def branchTarget (n : Nat) (pc : BitVec 32) (disp : BitVec n) : BitVec 32 := pc + 4 * BitVec.ofInt 32 disp.toInt

/-- A thread with a register written (the link register or a loop counter of a follower). -/
def Thread.setG (t : Thread) (n : Fin 10) (v : Word) : Thread := { t with ctx := { t.ctx with g := t.ctx.g.set n v } }

/-- The target of JMP and RET: cause 0x22 when it is not a multiple of 4 (R133). -/
def jumpTarget (a : Word) : M (BitVec 32) := do
  let t := a.toNat % 2 ^ 32
  if t % 4 ≠ 0 then throw (.trap 0x22 t)
  pure (BitVec.ofNat 32 t)

/-- BR (R133). -/
def execBr (gd : Guard) (rd : BitVec 21) (s : State) : Host.Outcome State Fault Refusal :=
  performJump gd s do
    let npc := branchTarget 21 s.me.ctx.pc rd
    followAt npc id
    pure npc

/-- CALL (R133). -/
def execCall (gd : Guard) (rd : BitVec 21) (s : State) : Host.Outcome State Fault Refusal :=
  performJump gd s do
    let npc := branchTarget 21 s.me.ctx.pc rd
    let link : Word := (s.me.ctx.pc + 4).setWidth 64
    writeReg (.g 7) link
    followAt npc fun t => t.setG 7 link
    pure npc

/-- JMP (R133). -/
def execJmp (gd : Guard) (ra : Reg) (s : State) : Host.Outcome State Fault Refusal :=
  performJump gd s do
    let a ← readReg ra
    let npc ← jumpTarget a
    followAt npc id
    pure npc

/-- RET (R133). -/
def execRet (gd : Guard) (s : State) : Host.Outcome State Fault Refusal :=
  performJump gd s do
    let a ← readReg (.g 7)
    let npc ← jumpTarget a
    followAt npc id
    pure npc

/-- LOOP (R133): every member decrements its own counter, and the leader's decides (R137). -/
def execLoop (gd : Guard) (ra : Reg) (rd : BitVec 13) (s : State) : Host.Outcome State Fault Refusal :=
  performJump gd s do
    let a ← readReg ra
    writeReg ra (a - 1)
    let npc := if a - 1 = 0 then s.me.ctx.pc + 4 else branchTarget 13 s.me.ctx.pc rd
    followAt npc fun t => match ra with
      | .g n => t.setG n (t.ctx.g[n] - 1)
      | _ => t
    pure npc

end Sys2Proof.Machine
end

