-- ==== Sys2Proof/Machine/Objects.lean ====
section
/-! DEFINITION. Majors 0x14 and 0x15 (R178 to R195): what the issuing thread checks and sends, and which acquire follows. -/

namespace Sys2Proof.Machine

/-- An object form (R179): the object's address, what `op` makes of the operands, the request. -/
def objectForm (gd : Guard) (ra : Reg) (sc : Scope) (rel : Bool) (t : Take) (op : M HomeOp) (s : State) :
    Host.Outcome State Fault Refusal :=
  perform gd s do
    let a ← readReg ra
    let o ← chkObj a.toNat 16
    let op ← op
    let tr ← translate o .object
    sendRequest tr o op sc rel t

/-- Granules of a type (R168). -/
def granules (ty : Nat) : Nat := if ty = 4 ∨ ty = 6 ∨ ty = 7 then 2 else 1

/-- OBJ.INIT (R185). -/
def execObjInit (gd : Guard) (ra : Reg) (sc : Scope) (rb : Reg) (s : State) : Host.Outcome State Fault Refusal :=
  perform gd s do
    let a ← readReg ra
    let d ← readReg rb
    let ty := d.toNat % 8
    let n := 16 * granules ty
    let o ← chkObj a.toNat n
    if ty = 0 || bit d.toNat 3 || d.toNat / 2 ^ 15 != 0 then throw (.trap 0x46 (o % 2 ^ 57))
    if granules ty = 2 && o % 32 != 0 then throw (.trap 0x46 (o % 2 ^ 57))
    let off ← tcmOperand (16 * field d.toNat 4 11) n .r 16
    let bs ← tcmLoad off n off
    let tr ← translate o .object
    sendRequest tr o (.init ty (wordsOf (n / 8) bs)) sc true {}

/-- OBJ.FREE (R186). -/
def execObjFree (gd : Guard) (ra : Reg) (sc : Scope) (s : State) : Host.Outcome State Fault Refusal :=
  objectForm gd ra sc true {} (pure .free) s

/-- OBJ.READ (R187). -/
def execObjRead (gd : Guard) (rd ra : Reg) (sc : Scope) (s : State) : Host.Outcome State Fault Refusal :=
  objectForm gd ra sc false { rd := some rd, acq := some sc } (pure .read) s

/-- CNT.ADD (R188). -/
def execCntAdd (gd : Guard) (rd ra : Reg) (sc : Scope) (rb : Reg) (s : State) : Host.Outcome State Fault Refusal :=
  objectForm gd ra sc true { rd := some rd, acq := some sc } (do let b ← readReg rb; pure (.cntAdd b)) s

/-- CNT.SWAP (R188). -/
def execCntSwap (gd : Guard) (rd ra : Reg) (sc : Scope) (rb : Reg) (s : State) : Host.Outcome State Fault Refusal :=
  objectForm gd ra sc true { rd := some rd, acq := some sc } (do let b ← readReg rb; pure (.cntSwap b)) s

/-- CNT.CAS (R188): the compared value is the register's at issue. -/
def execCntCas (gd : Guard) (rd ra : Reg) (sc : Scope) (rb : Reg) (s : State) : Host.Outcome State Fault Refusal :=
  objectForm gd ra sc true { rd := some rd, acq := some sc }
    (do let r ← readReg rd; let b ← readReg rb; pure (.cntCas r b)) s

/-- CNT.WAITGE (R188). -/
def execCntWaitge (gd : Guard) (rd ra : Reg) (sc : Scope) (rb : Reg) (s : State) : Host.Outcome State Fault Refusal :=
  objectForm gd ra sc false { rd := some rd, acq := some sc } (do let b ← readReg rb; pure (.waitGe b)) s

/-- CNT.WAITEQ (R188). -/
def execCntWaiteq (gd : Guard) (rd ra : Reg) (sc : Scope) (rb : Reg) (s : State) : Host.Outcome State Fault Refusal :=
  objectForm gd ra sc false { rd := some rd, acq := some sc } (do let b ← readReg rb; pure (.waitEq b)) s

/-- BAR.ARRIVE (R190). -/
def execBarArrive (gd : Guard) (rd ra : Reg) (sc : Scope) (s : State) : Host.Outcome State Fault Refusal :=
  objectForm gd ra sc true { rd := some rd, ote := true } (pure .barArrive) s

/-- BAR.WAIT (R190). -/
def execBarWait (gd : Guard) (ra : Reg) (sc : Scope) (rb : Reg) (s : State) : Host.Outcome State Fault Refusal :=
  objectForm gd ra sc false { acq := some sc } (do let b ← readReg rb; pure (.barWait (b.toNat % 2 ^ 16))) s

/-- BAR.SYNC (R190). -/
def execBarSync (gd : Guard) (rd ra : Reg) (sc : Scope) (s : State) : Host.Outcome State Fault Refusal :=
  objectForm gd ra sc true { rd := some rd, acq := some sc, ote := true } (pure .barSync) s

/-- TKT.ACQ (R191). -/
def execTktAcq (gd : Guard) (rd ra : Reg) (sc : Scope) (s : State) : Host.Outcome State Fault Refusal :=
  objectForm gd ra sc false { rd := some rd, acq := some sc } (pure .tktAcq) s

/-- TKT.TRY (R191); its release actions come before every request (R182). -/
def execTktTry (gd : Guard) (rd : Pred) (ra : Reg) (sc : Scope) (s : State) : Host.Outcome State Fault Refusal :=
  objectForm gd ra sc true { pd := some rd, acq := some sc } (pure .tktTry) s

/-- TKT.REL (R191). -/
def execTktRel (gd : Guard) (ra : Reg) (sc : Scope) (s : State) : Host.Outcome State Fault Refusal :=
  objectForm gd ra sc true {} (pure .tktRel) s

/-- CND.WAIT (R194). -/
def execCndWait (gd : Guard) (ra : Reg) (sc : Scope) (rb : Reg) (s : State) : Host.Outcome State Fault Refusal :=
  objectForm gd ra sc true { acq := some sc }
    (do let b ← readReg rb; let l ← chkObj b.toNat 16; pure (.cndWait l)) s

/-- CND.SIG (R194). -/
def execCndSig (gd : Guard) (ra : Reg) (sc : Scope) (s : State) : Host.Outcome State Fault Refusal :=
  objectForm gd ra sc true {} (pure .cndSig) s

/-- CND.BCAST (R194). -/
def execCndBcast (gd : Guard) (ra : Reg) (sc : Scope) (s : State) : Host.Outcome State Fault Refusal :=
  objectForm gd ra sc true {} (pure .cndBcast) s

/-- Slot size of a code (R175). -/
def slotBytes (code : Nat) : Nat := 8 * 2 ^ (code % 4)

/-- A put's payload, read at issue (R192): the descriptor's low three bits and the bytes. -/
def putPayload (rb : Reg) : M (Nat × List Byte) := do
  let b ← readReg rb
  let z := slotBytes b.toNat
  let off ← tcmOperand (8 * field b.toNat 3 12) z .r 8
  let bs ← tcmLoad off z off
  pure (b.toNat % 8, bs)

/-- A get's descriptor (R192): its low three bits and the TCM offset. -/
def getPlace (b : Word) : M (Nat × Nat) := do
  let off ← tcmOperand (8 * field b.toNat 3 12) (slotBytes b.toNat) .w 8
  pure (b.toNat % 8, off)

/-- A put form (R193). -/
def putForm (gd : Guard) (ra : Reg) (sc : Scope) (rb : Reg) (op : Nat → List Byte → HomeOp) (t : Take) (s : State) :
    Host.Outcome State Fault Refusal :=
  objectForm gd ra sc true t (do let p ← putPayload rb; pure (op p.1 p.2)) s

/-- A get form (R193). -/
def getForm (gd : Guard) (ra : Reg) (sc : Scope) (rb : Reg) (rel : Bool) (op : Nat → HomeOp) (t : Take) (s : State) :
    Host.Outcome State Fault Refusal :=
  perform gd s do
    let a ← readReg ra
    let b ← readReg rb
    let o ← chkObj a.toNat 16
    let p ← getPlace b
    let tr ← translate o .object
    sendRequest tr o (op p.1) sc rel { t with tcm := some p.2, acq := some sc }

/-- Q.PUT (R193). -/
def execQPut (gd : Guard) (ra : Reg) (sc : Scope) (rb : Reg) (s : State) : Host.Outcome State Fault Refusal :=
  putForm gd ra sc rb .qPut {} s

/-- Q.GET (R193). -/
def execQGet (gd : Guard) (rd ra : Reg) (sc : Scope) (rb : Reg) (s : State) : Host.Outcome State Fault Refusal :=
  getForm gd ra sc rb false .qGet { rd := some rd } s

/-- Q.TRYPUT (R193). -/
def execQTryput (gd : Guard) (rd : Pred) (ra : Reg) (sc : Scope) (rb : Reg) (s : State) :
    Host.Outcome State Fault Refusal :=
  putForm gd ra sc rb .qTryput { pd := some rd, acq := some sc } s

/-- Q.TRYGET (R193). -/
def execQTryget (gd : Guard) (rd : Pred) (ra : Reg) (sc : Scope) (rb : Reg) (s : State) :
    Host.Outcome State Fault Refusal :=
  getForm gd ra sc rb true .qTryget { pd := some rd } s

end Sys2Proof.Machine
end

