-- ==== Sys2Proof/Machine/Engines.lean ====
section
/-! DEFINITION. Majors 0x20 and 0x21 (R228 to R241): issuing a tile command, observing and dropping a job, loading a format
context; the command word's checks and the completion of a job. -/

namespace Sys2Proof.Machine

/-! ## The command word (R106 to R108, R239, R242, R247, R252) -/

/-- Bits `lo` up, `n` of them, of a word. -/
def wf (w : Word) (lo n : Nat) : Nat := field w.toNat lo n

/-- TYPE. -/
def Job.ty (j : Job) : Nat := wf j.cmd[0] 0 8
/-- CSC. -/
def Job.csc (j : Job) : Nat := wf j.cmd[0] 28 3
/-- REC as a TCM offset. -/
def Job.record (j : Job) : Nat := 16 * wf j.cmd[0] 16 11
/-- BANK. -/
def Job.bank (j : Job) : Nat := wf j.cmd[0] 32 2
/-- MODE or ZR. -/
def Job.mode (j : Job) : Bool := bit j.cmd[0].toNat 34
/-- SGM or OP. -/
def Job.sgm (j : Job) : Nat := wf j.cmd[0] 38 2
/-- LEN. -/
def Job.len (j : Job) : Nat := wf j.cmd[3] 0 32
/-- WIDTH, ROWS and the strides of CP.2D. -/
def Job.width (j : Job) : Nat := wf j.cmd[0] 38 16
def Job.rows (j : Job) : Nat := wf j.cmd[3] 0 12
def Job.sstr (j : Job) : Nat := wf j.cmd[3] 12 26
def Job.dstr (j : Job) : Nat := wf j.cmd[3] 38 26
/-- ESZ, COUNT and IDX of CP.GATHER and CP.SCATTER. -/
def Job.esz (j : Job) : Nat := wf j.cmd[3] 32 20
def Job.cnt (j : Job) : Nat := wf j.cmd[3] 16 12
def Job.idx (j : Job) : Nat := wf j.cmd[3] 0 16
/-- GROUP, CHUNK and COUNT of the collectives. -/
def Job.group (j : Job) : Nat := wf j.cmd[0] 38 12
def Job.chunk (j : Job) : Nat := if wf j.cmd[3] 32 16 = 0 then 256 else wf j.cmd[3] 32 16
def Job.elems (j : Job) : Nat := wf j.cmd[3] 0 32

/-- A type is accepted by the engine's ISSUE form (R107). -/
def typeOk (eng : Engine) (ty : Nat) : Bool :=
  match eng with
  | .mx => decide (1 ≤ ty) && decide (ty ≤ 6)
  | .qd => ty == 8
  | .cp => decide (0x10 ≤ ty) && decide (ty ≤ 0x15)
  | .cl => decide (0x20 ≤ ty) && decide (ty ≤ 0x22)

/-- A reserved bit of the command is set or a field holds a reserved code (R108, R239, R242, R247, R252). -/
def badCommand (w : Vector Word 4) : Bool :=
  let z (i lo n : Nat) : Bool := wf (w.toList.getD i 0) lo n != 0
  let ty := wf w[0] 0 8
  z 0 8 8 || z 0 27 1 || z 0 31 1 || decide (5 < wf w[0] 28 3) ||
  (if ty ≤ 8 then
    let mma := ty == 1 || ty == 2 || ty == 3 || ty == 8
    z 0 35 29 || z 1 32 32 || z 2 48 16 || z 3 0 64 ||
      (!(ty == 4 || ty == 5) && z 0 34 1) || (ty == 6 && z 0 32 2) ||
      (!(ty == 1 || ty == 8) && (z 1 16 16 || z 2 24 24)) ||
      ((ty == 4 || ty == 5) && z 1 0 16) || ((ty == 4 || ty == 6) && z 2 0 24) || (!mma && z 2 24 24)
  else if ty = 0x10 then wf w[0] 38 2 == 3 || (wf w[0] 38 2 == 0 && z 0 44 20)
  else if ty = 0x11 then z 0 54 10
  else if ty = 0x12 || ty = 0x13 then z 0 38 26 || z 3 52 12 || z 3 28 4
  else if ty = 0x14 then z 0 38 26 || z 0 32 3 || z 3 32 32
  else if ty = 0x15 then wf w[0] 38 2 == 3 || z 0 40 4 || z 3 32 32
  else z 0 50 14 || z 3 48 16)

/-- The command gives error 0x04 (R233). -/
def Job.illegal (j : Job) : Bool := !typeOk j.eng j.ty || badCommand j.cmd

/-! ## Operands (R246) -/

/-- Bytes of the span from the source's offset to the last byte that the command touches, as checked at issue. -/
def Job.srcExtent (j : Job) : Nat :=
  match j.ty with
  | 0x10 | 0x15 => j.len
  | 0x11 => if j.rows = 0 || j.width = 0 then 0 else (j.rows - 1) * j.sstr + j.width
  | 0x12 => 1
  | 0x13 => j.cnt * j.esz
  | _ => 0

/-- The same for the destination. -/
def Job.dstExtent (j : Job) : Nat :=
  match j.ty with
  | 0x10 | 0x14 | 0x15 => j.len
  | 0x11 => if j.rows = 0 || j.width = 0 then 0 else (j.rows - 1) * j.dstr + j.width
  | 0x12 => j.cnt * j.esz
  | 0x13 => 1
  | _ => 0

/-- A data operand's cause, if its checks fail. -/
def operandCause (spad : Nat) (g : Seg) (off n : Nat) (right : Right) : Option Nat :=
  match g.check spad off n right 1 with
  | some c => some c
  | none => if g.space = .object then some 0x24 else none

/-- The bytes of a memory that an operand may touch from its offset, as the scoreboard and the full/empty bits see it. -/
def Operand.range (o : Operand) (spad n : Nat) (indexed : Bool) : Nat × Nat :=
  let start := o.seg.base.toNat + o.off
  (start, if indexed then o.seg.effLimit spad - o.off else n)

/-- Element size of a group entry's format (R356). -/
def fmtBytes (fmt : Nat) : Nat := match fmt with | 1 => 2 | 3 => 8 | _ => 4

/-- A group entry of a router. -/
def GroupRouter.entry (g : GroupRouter) (n : Nat) : Vector Word 4 := g.entries.get resetGroupEntry n

/-- The group entry of a router of this device. -/
def State.groupEntry (s : State) (r g : Nat) : Vector Word 4 :=
  if r < 8 then (s.die r).groups.entry g else (s.xdie (r - 8)).groups.entry g

/-- The checks at issue: the first cause that fails, 0 for none. -/
def State.resolve (s : State) (j : Job) (segs : Vector Seg 8) : Job :=
  let spad := s.spadSize (j.core / 8)
  let seg (i : Nat) : Seg := segs.toList.getD i {}
  let src : Operand := ⟨seg (wf j.cmd[0] 32 3), j.cmd[1].toNat⟩
  let dst : Operand := ⟨seg (wf j.cmd[0] 35 3), j.cmd[2].toNat⟩
  let size := fmtBytes (wf (s.groupEntry (j.core / 2048) j.group)[0] 56 3)
  let cl := decide (j.eng = .cl)
  let sn := if cl then j.elems * size else j.srcExtent
  let dn := if cl then j.elems * size else j.dstExtent
  let skip := cl && j.elems == 0
  let objOff : Option Nat :=
    if j.ty = 0x15 then some (16 * wf j.cmd[0] 44 20)
    else if j.ty = 0x10 && j.sgm != 0 then some (32 * wf j.cmd[0] 44 20) else none
  let g4 := segs[4]
  let c1 := if j.ty = 0x14 || skip then none else operandCause spad src.seg src.off sn .r
  let c2 := if skip then none else operandCause spad dst.seg dst.off dn .w
  let c3 := match objOff with
    | some o => match g4.check spad o 16 .o 1 with
      | some c => some c
      | none => if g4.space = .object then none else some 0x24
    | none => none
  { j with src := src, dst := dst, obj := g4.base.toNat + objOff.getD 0, preErr := ((c1.or c2).or c3).getD 0 }

/-- The scoreboard entry that a resolved job needs (R157, R246). -/
def Job.scbEntry (j : Job) (id spad size : Nat) : Option ScbEntry :=
  let isTcm (o : Operand) : Bool := decide (o.seg.space = .tcm)
  let cl := decide (j.eng = .cl)
  let sn := if cl then j.elems * size else j.srcExtent
  let dn := if cl then j.elems * size else j.dstExtent
  let s := if j.ty != 0x14 && isTcm j.src then j.src.range spad sn (j.ty == 0x12) else (0, 0)
  let d := if isTcm j.dst then j.dst.range spad dn (j.ty == 0x13) else (0, 0)
  if (j.ty != 0x14 && isTcm j.src) || isTcm j.dst then some ⟨id, d.1, d.2, s.1, s.2⟩ else none

/-- Scratchpad lines of a range. -/
def linesOf (start n : Nat) : List Nat :=
  if n = 0 then [] else (List.range ((start + n - 1) / 128 - start / 128 + 1)).map (start / 128 + ·)

/-- The scratchpad lines that a resolved copy marks empty (R158, R246). -/
def Job.emptyLines (j : Job) (spad : Nat) : List Nat :=
  if j.eng = .cp && decide (j.dst.seg.space = .scratch) then
    let r := j.dst.range spad j.dstExtent (j.ty == 0x13)
    linesOf r.1 r.2
  else []

/-! ## Kick queues (R228) -/

/-- Jobs in the kick queue that a command would join. -/
def State.kickLoad (s : State) (eng : Engine) (core : Nat) : Nat :=
  let c := s.cluster (core / 8)
  match eng with
  | .mx | .qd => (c.mx.queues.toList.getD (core % 8) []).length
  | .cp => c.copy.queue.length
  | .cl => (s.core core).clq.length

/-- Room of a kick queue. -/
def Engine.room : Engine → Nat
  | .mx | .qd => 4
  | .cp => 32
  | .cl => 8

/-- The row that accepts a copy or collective command. -/
def rowOfType (ty : Nat) : EvKind :=
  match ty with
  | 1 => .mmaF4
  | 2 => .mmaBf
  | 3 => .mmaH
  | 4 => .accZero
  | 5 => .accDrain
  | 6 => .fmtSet
  | 8 => .qmma
  | 0x10 => .cp1d
  | 0x11 => .cp2d
  | 0x12 => .cpGather
  | 0x13 => .cpScatter
  | 0x14 => .cpFill
  | 0x15 => .cpSignal
  | 0x20 => .clReduce
  | 0x21 => .clBcast
  | _ => .clAllreduce

/-- The copy hart accepts its next job when fewer than four are active (R229, R353). -/
def State.copyAccept (s : State) (cl : Nat) : State :=
  let h := (s.cluster cl).copy
  match h.queue with
  | j :: rest =>
    if !h.stopped.isEmpty || decide (4 ≤ h.active.length) then s
    else
      let s := s.updCluster cl fun c => { c with copy := { h with queue := rest, active := h.active ++ [j] } }
      let ty := match s.job j with | some x => if x.illegal then 0x10 else x.ty | none => 0x10
      (s.updJob j fun x => { x with accepted := true }).later 1 (rowOfType ty) j 0 0
  | [] => s

/-- The communication thread of a core accepts its next job (R354). -/
def State.clAccept (s : State) (core : Nat) : State :=
  let c := s.core core
  match c.clCur, c.clq with
  | none, j :: rest =>
    let s := s.setCore core { c with clq := rest, clCur := some j }
    let ty := match s.job j with | some x => if x.illegal then 0x22 else x.ty | none => 0x22
    (s.updJob j fun x => { x with accepted := true }).later 1 (rowOfType ty) j 0 0
  | _, _ => s

/-- Threads of a core that wait for this reason execute their words again. -/
def State.wakeWhy (s : State) (core : Nat) (p : Why → Bool) : State :=
  (s.threads.filter fun x => x.2.core == core && x.2.run == .waiting && p x.2.aux.why &&
    (match x.2.cont with | .retry | .second => true | _ => false)).foldl (fun s x => s.resumeNow x.1) s

/-- The same for every core of a cluster. -/
def State.wakeCluster (s : State) (cl : Nat) (p : Why → Bool) : State :=
  (List.range 8).foldl (fun s i => s.wakeWhy (8 * cl + i) p) s

/-- Threads by the cycle in which their wait began. -/
def insertWait (x : Nat × Thread) : List (Nat × Thread) → List (Nat × Thread)
  | [] => [x]
  | y :: t => if x.2.aux.waitAt < y.2.aux.waitAt then x :: y :: t else y :: insertWait x t

/-- The threads of a cluster whose N.ALLOC or SWR of NFL waits, in issue order (R271). -/
def State.poolWaiters (s : State) (cl : Nat) : List Nat :=
  ((s.threads.filter fun x => x.2.core / 8 == cl && x.2.run == .waiting && x.2.aux.why == .pool && x.2.cont == .retry).foldl
    (fun l x => insertWait x l) []).map (·.1)

/-- They look again, in that order. -/
def State.wakePool (s : State) (cl : Nat) : State := (s.poolWaiters cl).foldl (fun s t => s.resumeNow t) s

/-- Room in a kick queue: its issuers go on (R228). -/
def State.kickFreed (s : State) (core : Nat) : State := s.wakeCluster (core / 8) (· == .kick)

/-! ## Quads (R245) -/

/-- Column and row of a cluster within its pond. -/
def State.inPondAt (s : State) (p cl : Nat) : Nat × Nat :=
  match s.pond p with
  | some x => (clusterCol cl - x.col, clusterRow cl - x.row)
  | none => (0, 0)

/-- The members of a cluster's quad in token order, when it is complete. -/
def State.quad (s : State) (p cl : Nat) : Option (List Nat) :=
  match s.pond p with
  | some x =>
    let c := (clusterCol cl - x.col) / 2 * 2
    let r := (clusterRow cl - x.row) / 2 * 2
    if c + 2 ≤ x.w && r + 2 ≤ x.h then
      some ([(0, 0), (0, 1), (1, 0), (1, 1)].map fun d => clusterAt (x.col + c + d.2) (x.row + r + d.1))
    else none
  | none => none

/-! ## ISSUE (R230) -/

/-- The job's record as ISSUE writes it (R230, R232). -/
def Job.firstRecord (j : Job) : List Byte :=
  leBytes 8 (j.id * 2 ^ 48 + j.csc * 2 ^ 16 + (if j.ty = 0x10 then wf j.cmd[0] 40 4 else 0) * 2 ^ 12) ++ leBytes 8 0

/-- The engine selects again (R348). -/
def State.reselect (s : State) (cl : Nat) : State :=
  if s.scheduled .engineSelection cl then s else s.later 0 .engineSelection cl 0 0

/-- The job pushed into its kick queue. -/
def State.pushJob (s : State) (j : Nat) (x : Job) : State :=
  let s := { s with jobs := s.jobs.set j x }
  let cl := x.core / 8
  match x.eng with
  | .mx | .qd =>
    let s := s.updCluster cl fun c => { c with mx := { c.mx with
      queues := c.mx.queues.setIfInBounds (x.core % 8) (c.mx.queues.toList.getD (x.core % 8) [] ++ [j]) } }
    s.reselect cl
  | .cp => (s.updCluster cl fun c => { c with copy := { c.copy with queue := c.copy.queue ++ [j] } }).copyAccept cl
  | .cl => (s.updCore x.core fun c => { c with clq := c.clq ++ [j] }).clAccept x.core

/-- ISSUE (R230): the command is read, the record written, the job pushed. -/
def issueJob (eng : Engine) (sync : Bool) (gd : Guard) (rd ra : Reg) (s : State) : Host.Outcome State Fault Refusal :=
  perform gd s do
    let a ← readReg ra
    let off ← tcmOperand a.toNat 32 .r 32
    let s ← get
    -- a command that waits was read before the wait
    let bs ← match (if s.ctl.retry then s.me.aux.snap else none) with
      | some bs => pure bs
      | none => tcmLoad off 32 off
    let keep (s : State) : State := s.updMe fun t => { t with aux := { t.aux with snap := some bs } }
    let ws := wordsOf 4 bs
    let cmd : Vector Word 4 := #v[wordAt ws 0, wordAt ws 1, wordAt ws 2, wordAt ws 3]
    let r := 16 * wf cmd[0] 16 11
    let s ← get
    let me := s.me
    if r < 0x800 || 0x6FF0 < r then throw (.trap 0x62 ((me.segs[3].base.toNat + r) % 2 ^ 57))
    let core := me.core
    let cl := core / 8
    let c := s.core core
    if eng.room ≤ s.kickLoad eng core then throw (.wait false .kick keep)
    let at' := s.inPondAt me.ident.pond cl
    let qd := decide (eng = .qd)
    let tag := if qd then (4 * (s.cluster cl).mx.qdCount + 2 * (at'.2 % 2) + at'.1 % 2) % 32 else c.tags.toNat
    let j0 : Job := { eng := eng, core := core, tid := s.ctl.acting, entry := s.entryOf s.ctl.acting, id := r / 16 * 32 + tag, pond := me.ident.pond,
                      gtid := me.ctx.gtid, tenant := s.agentTenant (.thread s.ctl.acting), asid := s.asidOf cl, cmd := cmd }
    let resolved := decide (eng = .cp ∨ eng = .cl) && !j0.illegal
    let j := if resolved then s.resolve j0 me.segs else j0
    let live := resolved && j.preErr == 0
    let size := fmtBytes (wf (s.groupEntry (core / 2048) j.group)[0] 56 3)
    let n := s.ctl.nextJob
    let ent := if live then j.scbEntry n (s.spadSize cl) size else none
    if ent.isSome && decide (16 ≤ c.scb.length) then throw (.wait false .scb keep)
    if c.storeWaits r 16 then throw (.wait false .scb keep)
    let empt := if live then j.emptyLines (s.spadSize cl) else []
    tcmStore r j.firstRecord
    modify fun s =>
      let s := s.updCtl fun x => { x with nextJob := x.nextJob + 1 }
      let s := s.updCore core fun k => { k with
        tags := k.tags + 1, scb := match ent with | some e => k.scb ++ [e] | none => k.scb }
      let s := s.updCluster cl fun k => { k with
        empties := k.empties ++ empt.filter (!k.empties.contains ·),
        mx := if qd then { k.mx with qdCount := k.mx.qdCount + 1 } else k.mx }
      let s := s.updMe fun t => { t with aux := { t.aux with snap := none } }
      s.pushJob n { j with empties := empt }
    writeReg rd (BitVec.ofNat 64 j.id)
    if sync then do
      let s ← get
      throw (.leave (s.leaveWith (.observe r)))

/-! ## Observing (R234 to R236) -/

/-- Word 0 of the record at a TCM offset of a core. -/
def State.recordWord (s : State) (core r : Nat) : Nat := leNat (s.mem.read (tcmKey core r) 8)

/-- Find() (R234). -/
def findJob (a : Word) : M Nat := do
  let s ← get
  let id := a.toNat % 2 ^ 16
  let r := 16 * (id / 32)
  let ea := (s.me.segs[3].base.toNat + r) % 2 ^ 57
  if r < 0x800 || 0x6FF0 < r then throw (.trap 0x62 ea)
  if field (s.recordWord s.me.core r) 48 16 ≠ id then throw (.trap 0x63 ea)
  pure r

/-- The scope of a code (R6). -/
def scopeOf (c : Nat) : Scope :=
  match c with
  | 0 => .thread
  | 1 => .core
  | 2 => .cluster
  | 3 => .die
  | 4 => .device
  | _ => .pod

/-- Observe() (R234). -/
def observe (r : Nat) : M Unit := do
  let s ← get
  let w := s.recordWord s.me.core r
  acquireM (scopeOf (field w 16 3))
  let prd := field w 12 4
  if prd ≠ 0 then writePred (BitVec.ofNat 4 prd) (bit w 3)
  let e := field w 40 8
  if e ≠ 0 ∧ e ≠ 1 ∧ !bit w 2 then
    raiseAfter (if e = 2 then 0x61 else 0x60) ((s.me.segs[3].base.toNat + r) % 2 ^ 57)

/-- WAITJ (R234): the thread leaves the rotation (R41), for one cycle when DONE is 1 already. -/
def execWaitj (gd : Guard) (ra : Reg) (s : State) : Host.Outcome State Fault Refusal :=
  perform gd s do
    let a ← readReg ra
    let r ← findJob a
    let s ← get
    let s' := s.leaveWith (.observe r)
    throw (.leave (if bit (s.recordWord s.me.core r) 0 then s'.wakeWaiter (.thread s.ctl.acting) else s'))

/-- POLLJ (R235). -/
def execPollj (gd : Guard) (rd : Pred) (ra : Reg) (s : State) : Host.Outcome State Fault Refusal :=
  perform gd s do
    let a ← readReg ra
    let r ← findJob a
    let s ← get
    let done := bit (s.recordWord s.me.core r) 0
    writePred rd done
    if done then observe r

/-! ## Completion (R232, R237, R253) -/

/-- Threads that wait for the record at an offset of a core observe it (R234). -/
def State.observers (s : State) (core r : Nat) : State :=
  (s.threads.filter fun x => x.2.core == core && (match x.2.cont with | .observe q => q == r | _ => false)).foldl
    (fun s x => s.completeBy x.1 none (observe r)) s

/-- The stride of a crew block of a save area (R341, R406). -/
def blockSize (size : Nat) : Nat := (0x62400 + size + 0x4000 + 4095) / 4096 * 4096

/-- The crew block of a job's cluster in the save area of its pond, while the pond is saved (R341). -/
def State.jobBlock (s : State) (x : Job) : Option Nat :=
  match s.pond x.pond with
  | some p =>
    let at' (area : Nat) : Nat :=
      let n := (clusterRow (x.tcmCore / 8) - p.row) * p.w + (clusterCol (x.tcmCore / 8) - p.col)
      area + n * blockSize ((wf p.launch.w5 0 19 + 16383) / 16384 * 16384)
    match p.state with
    | .saved area | .resuming _ _ area => some (at' area)
    | _ => none
  | none => none

/-- A byte of the TCM that a job reaches: that of its core, or the saved image while its pond is saved (R253, R342). -/
def State.jobKey (s : State) (x : Job) (off : Nat) : Nat :=
  match s.jobBlock x with
  | some b => s.key (b + 0x8400 + 0x7000 * (x.tcmCore % 8) + off)
  | none => tcmKey x.tcmCore off

/-- A byte of the scratchpad that a job reaches, likewise. -/
def State.jobSpad (s : State) (x : Job) (off : Nat) : Nat :=
  match s.jobBlock x with
  | some b => s.key (b + 0x62400 + off)
  | none => spadKey (x.tcmCore / 8) off

/-- A job's pond has its state in a save area. -/
def State.jobSaved (s : State) (x : Job) : Bool := match s.pond x.pond with | some p => p.isSaved | none => false

/-- The engine's fields of the record at a key: ERR, FLG, MATCH, DONE and RES (R232). -/
def State.writeRecord (s : State) (key err flg : Nat) (mt : Bool) (res : Word) : State :=
  let w := leNat (s.mem.read key 8)
  let w0 : Word := putField (putField (putField (putField (BitVec.ofNat 64 w) 40 8 err) 32 8 flg) 3 1 (b2n mt)) 0 1 1
  let m := s.mem.write key (leBytes 8 w0.toNat ++ leBytes 8 res.toNat)
  { s with mem := m.clearPoison key 16 }

/-- A thread that holds a migration request, or waits to depart, looks again (R253, R337). -/
def State.migrationLook (s : State) (tid : Nat) : State :=
  match s.threads.find tid with
  | some t =>
    match t.cont with
    | .depart _ => if s.scheduled .migrationDeparture tid then s else s.later 0 .migrationDeparture tid 0 0
    | _ => if t.aux.migReq.isSome && !s.scheduled .hardwareMigration tid then s.later 0 .hardwareMigration tid 0 0 else s
  | none => s

/-- The job is over: its scoreboard entry retires, its empty lines are full (R314), the issuer's count falls. -/
def State.retireJob (s : State) (j : Nat) : State :=
  match s.job j with
  | some x =>
    let cl := x.tcmCore / 8
    let s := s.updJob j fun x => { x with finished := true }
    let s := s.updCore x.tcmCore fun c => { c with scb := c.scb.filter (·.job != j) }
    let s := if s.jobSaved x then s
      else s.updCluster cl fun c => { c with empties := c.empties.filter (!x.empties.contains ·) }
    let s := (s.threads.filter fun t => t.2.core == x.tcmCore && t.2.aux.entry == x.entry).foldl (fun s t => s.migrationLook t.1) s
    let s := s.wakeWhy x.tcmCore (· == .scb)
    s.wakeCluster cl (· == .line)
  | none => s

/-- Matrix jobs of a core that have not completed. -/
def State.matrixJobs (s : State) (core : Nat) : List Nat :=
  (s.jobs.filter fun j => j.2.core == core && (j.2.eng == .mx || j.2.eng == .qd) && !j.2.finished).map (·.1)

/-- A job of a core is over: an FMT.LD that waited for it last loads its image (R241, R350). -/
def State.fmtGone (s : State) (core j : Nat) : State :=
  let mx := (s.cluster (core / 8)).mx
  let ws := mx.fmtWait.map fun w => (w.1, w.2.1, w.2.2.1, w.2.2.2.filter (· != j))
  if ws.isEmpty then s
  else
    let go := ws.filter (·.2.2.2.isEmpty)
    let ctxs := go.foldl (fun x w => x.setIfInBounds w.1 w.2.2.1) mx.ctxs
    let s := s.updCluster (core / 8) fun c => { c with mx := { c.mx with
      fmtWait := ws.filter (!·.2.2.2.isEmpty), ctxs := ctxs } }
    go.foldl (fun s w => s.post 1 .replyArrival (.reply (.thread w.2.1) {})) s

/-- A job is no engine's selected or announced command any more (R236). -/
def State.unselect (s : State) (j : Nat) : State :=
  let hit (m : MxEngine) : Bool := m.selected == some j || m.quadNext == some j
  let cls := (s.clusters.filter fun c => hit c.2.mx).map (·.1)
  let clean (m : MxEngine) : MxEngine :=
    { m with selected := if m.selected = some j then none else m.selected,
             filled := m.filled && m.selected != some j,
             quadNext := if m.quadNext = some j then none else m.quadNext }
  let each (c : Nat × Cluster) : Nat × Cluster := if hit c.2.mx then (c.1, { c.2 with mx := clean c.2.mx }) else c
  let s : State := { s with clusters := s.clusters.map each }
  cls.foldl (fun s c => s.reselect c) s

/-- The completion write of a job with its results (R232, R237). -/
def State.completeJob (s : State) (j : Nat) : State :=
  match s.job j with
  | some x =>
    let s := s.writeRecord (s.jobKey x x.record) x.err x.flg.toNat x.isMatch x.res
    let s := s.retireJob j
    let s := { s with jobs := s.jobs.erase j }
    let s := s.fmtGone x.core j
    (if s.jobSaved x then s else s.observers x.tcmCore x.record).checkPondEnd x.pond
  | none => s

/-- JDROP (R236): the job is one of the thread's pond, on this core or, for a CL job of a resumed pond, where it was issued. -/
def execJdrop (gd : Guard) (ra : Reg) (s : State) : Host.Outcome State Fault Refusal :=
  perform gd s do
    let a ← readReg ra
    let r ← findJob a
    let s ← get
    let core := s.me.core
    let cl := core / 8
    let w := BitVec.ofNat 64 (s.recordWord core r)
    modify fun s => { s with mem := s.mem.write (tcmKey core r) (leBytes 8 (putField w 2 1 1).toNat) }
    match s.jobs.find? fun j => j.2.tcmCore == core && j.2.pond == s.me.ident.pond && j.2.id == a.toNat % 2 ^ 16 && !j.2.finished with
    | some (j, x) =>
      modify fun s => s.updJob j fun x => { x with dropped := true }
      if !x.accepted then
        modify fun s =>
          let s := s.updCluster cl fun c => { c with
            mx := { c.mx with queues := c.mx.queues.map (·.filter (· != j)) },
            copy := { c.copy with queue := c.copy.queue.filter (· != j) } }
          let s := s.updCore x.core fun c => { c with clq := c.clq.filter (· != j) }
          ((s.unselect j).updJob j fun x => { x with err := 1, accepted := true }).later 1 .jobCompletion j 0 0
    | none => pure ()
    leaveReply {} {}

/-! ## FMT.LD (R240, R241, R350) -/

/-- A context image has a reserved bit or a reserved code. -/
def badContext (ws : List Word) : Bool :=
  let w := (wordAt ws 0).toNat
  w / 2 ^ 7 != 0 || decide (2 ≤ field w 4 2) || decide (3 ≤ field w 0 3)

/-- FMT.LD (R241): the thread leaves the rotation (R41) until the context is loaded. -/
def execFmtLd (gd : Guard) (ra : Reg) (s : State) : Host.Outcome State Fault Refusal :=
  perform gd s do
    let a ← readReg ra
    let off ← tcmOperand a.toNat 32 .r 32
    let bs ← tcmLoad off 32 off
    let ws := wordsOf 4 bs
    if badContext ws then throw (.trap 0x61 (off % 2 ^ 57))
    let s ← get
    let core := s.me.core
    let cl := core / 8
    let img : Vector Word 4 := #v[wordAt ws 0, wordAt ws 1, wordAt ws 2, wordAt ws 3]
    let mine := s.matrixJobs core
    if mine.isEmpty then
      set (s.updCluster cl fun c => { c with mx := { c.mx with ctxs := c.mx.ctxs.setIfInBounds (core % 8) img } })
      leaveReply {} {}
    else
      throw (.leave ((s.updCluster cl fun c => { c with mx := { c.mx with
        fmtWait := c.mx.fmtWait ++ [(core % 8, s.ctl.acting, img, mine)] } }).leaveWith (.reply {})))

/-! ## The eight forms (R103) -/

/-- ISSUE.MX (R230). -/
def execIssueMx (gd : Guard) (rd ra : Reg) (s : State) : Host.Outcome State Fault Refusal := issueJob .mx false gd rd ra s
/-- ISSUE.MX.SYNC (R230). -/
def execIssueMxSync (gd : Guard) (rd ra : Reg) (s : State) : Host.Outcome State Fault Refusal := issueJob .mx true gd rd ra s
/-- ISSUE.QD (R230). -/
def execIssueQd (gd : Guard) (rd ra : Reg) (s : State) : Host.Outcome State Fault Refusal := issueJob .qd false gd rd ra s
/-- ISSUE.QD.SYNC (R230). -/
def execIssueQdSync (gd : Guard) (rd ra : Reg) (s : State) : Host.Outcome State Fault Refusal := issueJob .qd true gd rd ra s
/-- ISSUE.CP (R230). -/
def execIssueCp (gd : Guard) (rd ra : Reg) (s : State) : Host.Outcome State Fault Refusal := issueJob .cp false gd rd ra s
/-- ISSUE.CP.SYNC (R230). -/
def execIssueCpSync (gd : Guard) (rd ra : Reg) (s : State) : Host.Outcome State Fault Refusal := issueJob .cp true gd rd ra s
/-- ISSUE.CL (R230). -/
def execIssueCl (gd : Guard) (rd ra : Reg) (s : State) : Host.Outcome State Fault Refusal := issueJob .cl false gd rd ra s
/-- ISSUE.CL.SYNC (R230). -/
def execIssueClSync (gd : Guard) (rd ra : Reg) (s : State) : Host.Outcome State Fault Refusal := issueJob .cl true gd rd ra s

end Sys2Proof.Machine
end

