-- ==== Sys2Proof/Machine/Slices.lean ====
section
/-! DEFINITION. What a home slice does with lines: encryption keys, seals, fills, write-backs, walks that end, page faults,
access counters, deferred fault records (R142 to R146, R154, R313 to R326, R391 to R399). -/

namespace Sys2Proof.Machine

/-! ## Lines as the homes hold them -/

/-- The key of an index. -/
def State.keyAt (s : State) (k : Nat) : Key := s.dev.keys.get ⟨0, 0⟩ k

/-- The codes of a range of a slice's memory are checked as it is read (R324, R326). -/
def State.homeScan (s : State) (a n : Nat) : State :=
  let (m, one, lost) := s.mem.scan a n
  if one = 0 && lost = 0 then s
  else { s with mem := m }.updSlice (sliceOf a) fun x =>
    { x with ctr := { x.ctr with corr := satAdd x.ctr.corr one, uncorr := satAdd x.ctr.uncorr lost } }

/-- The set of a slice that a line falls into, by its line number: local address bits [20:16] and [7]. DESIGN CHOICE, unsafe:
log 64. -/
def sliceSet (line : Nat) : Nat := line % 2 + 2 * (line / 2 ^ 9 % 32)

/-- The slice with a line in its set of 16, the most recently used first (R316); log 64. -/
def Slice.hold (x : Slice) (line : Nat) : Slice :=
  let out := (x.lines.filter fun l => sliceSet l == sliceSet line && l != line).drop 15
  { x with lines := line :: x.lines.filter fun l => l != line && !out.contains l }

/-- The key index and the key under which a line's bytes were last enciphered: as the slice last filled it, or as its page was
zeroed. -/
def State.filledUnder (s : State) (sl line : Nat) : Option (Nat × Key) :=
  match (s.slice sl).enc.find line with
  | some k => some (k, s.keyAt k)
  | none => (s.dev.zeroed.find? fun z => decide (z.1 ≤ 128 * line) && decide (128 * line < z.1 + z.2.1)).map (·.2.2)

/-- The key index of a line that a request without one names: a request of another device, a merge, a walk. -/
def State.lineKey (s : State) (a : Nat) : Nat := ((s.filledUnder (sliceOf a) (a / 128)).map (·.1)).getD 0

/-- A line's bytes as they read when they were enciphered one way and are deciphered another (R323). -/
def State.recipher (s : State) (line : Nat) (out back : BitVec 1024 ≃ BitVec 1024) : State :=
  let d := BitVec.ofNat 1024 (leNat (s.mem.read (128 * line) 128))
  { s with mem := s.mem.write (128 * line) (leBytes 128 (back.symm (out d)).toNat) }

/-- The cipher of a line under a key. -/
def State.cipher (s : State) (k : Key) (line : Nat) : BitVec 1024 ≃ BitVec 1024 := Config.cipher k.data k.tweak s.dev.id line

/-- A line met by a request under a key index (R323): a line filled under another is written back under that and filled again, so
that what was plaintext is read through both ciphers; a line that the slice did not hold is read from HBM (R324). -/
def State.useKey (s : State) (sl line k : Nat) : State :=
  let s := if (s.slice sl).lines.contains line then s else s.homeScan (128 * line) 128
  let hold (s : State) : State := s.updSlice sl fun x => { x.hold line with enc := x.enc.set line k }
  match s.filledUnder sl line with
  | none => hold s
  | some (_, a) =>
    let b := s.keyAt k
    if a = b then hold s
    else hold (s.recipher line (s.cipher a line) (s.cipher b line))

/-- The same for a request that brings no key index. -/
def State.ownKey (s : State) (a : Nat) : State := s.useKey (sliceOf a) (a / 128) (s.lineKey a)

/-- The bytes of a range of a home: zero for poisoned words (R143) and marked granules (R170). -/
def Memory.readHome (m : Memory) (a : Nat) : Nat → List Byte
  | 0 => []
  | n + 1 => (if (m.tag a).mark || m.poisoned a then 0 else m.readByte a) :: Memory.readHome m (a + 1) n

/-- The bytes of a line with zero for marked granules; poison travels beside them (R324). -/
def Memory.readLine (m : Memory) (a : Nat) : Nat → List Byte
  | 0 => []
  | n + 1 => (if (m.tag a).mark then 0 else m.readByte a) :: Memory.readLine m (a + 1) n

/-- The poison bits of a line's words. -/
def Memory.linePsn (m : Memory) (a : Nat) : Nat → Nat
  | 0 => 0
  | n + 1 => Memory.linePsn m a n + (if m.poisoned (a + 8 * n) then 2 ^ n else 0)

/-- A scope's instance covers a cluster (R6, R7): the agent's cluster and scope, the other cluster. -/
def covers (cl : Nat) (sc : Scope) (other : Nat) : Bool :=
  match sc with
  | .thread | .core => false
  | .cluster => cl == other
  | .die => cl / 256 == other / 256
  | .device | .pod => true

/-- The seal records of this device that are sealed or draining: memory key, address space, tenant, cluster. -/
def State.seals (s : State) : List (Nat × Nat × Nat × Nat) :=
  s.slices.flatMap fun x => x.2.objs.filterMap fun o => o.2.sealedBy.map fun b => (o.1, b)

/-- A seal's range covers a byte of an address space; some answer is the seal's scope and cluster. -/
def State.sealAt (s : State) (asid va : Nat) : Option (Scope × Nat) :=
  (s.seals.find? fun x => x.2.1 == asid &&
    (let base := leNat (s.mem.read (x.1 + 16) 8) % 2 ^ 57
     let len := leNat (s.mem.read (x.1 + 24) 8) % 2 ^ 58
     decide (base ≤ va) && decide (va < base + len))).map fun x =>
    (scopeOf (field (leNat (s.mem.read (x.1 + 8) 8)) 43 3), x.2.2.2)

/-- The first seal of this device whose range holds the physical address `pa`, with the virtual address there (R146, R153): for a write
that names no virtual address. The range is walked page by page in the sealing space. -/
def State.sealedPa (s : State) (pa : Nat) : Option (Nat × Scope) :=
  s.seals.findSome? fun x =>
    let base := leNat (s.mem.read (x.1 + 16) 8) % 2 ^ 57
    let len := leNat (s.mem.read (x.1 + 24) 8) % 2 ^ 58
    let sc := scopeOf (field (leNat (s.mem.read (x.1 + 8) 8)) 43 3)
    (walkRange s x.2.1 x.2.2.1 pa base len (len / 2 ^ 16 + 2) base).map fun va => (va, sc)
where
  /-- the virtual address of `pa` from `va` on, page by page -/
  walkRange (s : State) (asid tenant pa base len : Nat) : Nat → Nat → Option Nat
    | 0, _ => none
    | n + 1, va =>
      if base + len ≤ va then none
      else
        let next := (va / 2 ^ 16 + 1) * 2 ^ 16
        match s.walk asid tenant va .prefetch with
        | .error _ => walkRange s asid tenant pa base len n next
        | .ok e =>
          let p := e.phys va
          let left := min (next - va) (base + len - va)
          if localOf p ≤ localOf pa && localOf pa < localOf p + left && devOf p == devOf pa then some (va + (localOf pa - localOf p))
          else walkRange s asid tenant pa base len n next

/-- An entry of a page table that tells where a sealed range lies, and whose line must be waited for, with the sealer's tenant. -/
def State.sealAway (s : State) : Option (Nat × Nat) :=
  s.seals.findSome? fun x =>
    let base := leNat (s.mem.read (x.1 + 16) 8) % 2 ^ 57
    let len := leNat (s.mem.read (x.1 + 24) 8) % 2 ^ 58
    (List.range (len / 2 ^ 16 + 2)).findSome? fun i =>
      let va := if i = 0 then base else (base / 2 ^ 16 + i) * 2 ^ 16
      if base + len ≤ va then none
      else match s.walk x.2.1 x.2.2.1 va .prefetch with
        | .error (0, pa) => some (pa, x.2.2.1)
        | _ => none

/-- Some byte of a line is sealed for a scope that covers the cluster (R154). -/
def State.sealedLine (s : State) (asid va cl : Nat) : Bool :=
  (s.seals.any fun x => x.2.1 == asid &&
    (let base := leNat (s.mem.read (x.1 + 16) 8) % 2 ^ 57
     let len := leNat (s.mem.read (x.1 + 24) 8) % 2 ^ 58
     decide (base < va / 128 * 128 + 128) && decide (va / 128 * 128 < base + len) &&
       covers x.2.2.2 (scopeOf (field (leNat (s.mem.read (x.1 + 8) 8)) 43 3)) cl))

/-- A line arrives at a cluster L1 (R313): only bytes that are not dirty are written. -/
def L1Line.fillWith (l : L1Line) (d : BitVec 1024) (psn : BitVec 16) (sl : Bool) (tag : Byte) : L1Line :=
  { l with
    data := mergeBytes l.data d (~~~l.dirty), valid := BitVec.allOnes 128, tag := tag, sealedLine := sl,
    psn := psn &&& ~~~(BitVec.ofNat 16 (fullWords l.dirty 16)) }

/-- A line put into a cluster L1. -/
def State.fillLine (s : State) (cl asid line : Nat) (d : BitVec 1024) (psn : BitVec 16) (sl : Bool) (tag : Byte) :
    State :=
  match (s.cluster cl).l1Find asid line with
  | some l => s.updCluster cl fun c => c.l1Put (l.fillWith d psn sl tag)
  | none => s.l1Install cl ((freshLine asid line).fillWith d psn sl tag)

/-- The line at a local physical address, as a fill of a cluster takes it. -/
def State.homeLine (s : State) (asid va pa key cl : Nat) : (BitVec 1024 × BitVec 16 × Bool) × State :=
  let a := s.key pa / 128 * 128
  let s := (s.useKey (sliceOf a) (a / 128) key).homeScan a 128
  ((BitVec.ofNat 1024 (leNat (s.mem.readLine a 128)), BitVec.ofNat 16 (s.mem.linePsn a 16), s.sealedLine asid va cl), s)

/-! ## Lines of page tables on other devices (R391) -/

/-- For whom another device sends a line of a page table. -/
def walkAsker (i : Nat) : Nat := 2 ^ 42 + i

/-- What has been read for one that is served. -/
def State.dropLines (s : State) (who : Nat) : State :=
  if s.dev.schedLines.any (·.1 == who) then s.updDev fun d => { d with schedLines := d.schedLines.filter (·.1 != who) } else s

/-- The line of an entry of a page table asked of its home on another device, unless it has been asked for; a table of this device
needs only that its stack serves again (R442). -/
def State.askTable (s : State) (who asid tenant cl pa : Nat) : State :=
  let asked := s.msgs.any fun m => match m.2 with
    | .slice r => r.who == .sched who && r.pa == pa / 128 * 128
    | _ => false
  if s.isLocal pa || asked then s
  else s.toSlice { who := .sched who, fill := false, va := 0, pa := pa / 128 * 128, n := 128, asid := asid, tenant := tenant, key := 0,
                   ac := false, cluster := cl }

/-- A happening whose walk met an entry that it must wait for has not been: the entry is asked for and the happening comes again. One that
is done needs what it has read no longer. -/
def withTables (f : State → Host.Outcome State Fault Refusal) (s : State) : Host.Outcome State Fault Refusal :=
  match f s with
  | .next t =>
    match t.ctl.need with
    | some (pa, tenant, cl) =>
      .next ((s.askTable (eventAsker s.ctl.ev) 0 tenant cl pa).at (s.ctl.cycle + s.ctl.lat.slice) (.ev s.ctl.ev))
    | none => .next (t.dropLines (eventAsker s.ctl.ev))
  | o => o

/-- A shootdown at the cluster has stopped new walks of an address, whose range's write-backs are under way (R395): one that names a
range, or one that ends a move of the page that the walk has found. -/
def State.walkStopped (s : State) (cl asid va : Nat) (e : Option TlbEntry) : Bool :=
  s.dev.shoots.any fun x => s.awaits (.shoot (2 * x.1) cl) &&
    match x.2.move with
    | none => x.2.asid == asid && decide (x.2.va ≤ va) && decide (va < x.2.va + x.2.len)
    | some m => match s.dev.moves.find m, e with
      | some y, some e =>
        let a := localOf (e.phys va)
        (decide (localOf y.old ≤ a) && decide (a < localOf y.old + y.size)) || (decide (localOf y.new ≤ a) && decide (a < localOf y.new + y.size))
      | _, _ => false

/-! ## Reads that the part makes for a thread (R23, R279) -/

/-- A line that such a read needs is asked of its home, unless the cluster waits for it already. -/
def State.askFill (s : State) (cl asid tenant va : Nat) (tag : Byte) : State :=
  let asked := s.msgs.any fun m => match m.2 with
    | .slice r | .fill r _ _ _ _ => r.fill && !r.code && r.cluster == cl && r.asid == asid && r.va / 128 == va / 128
    | _ => false
  match s.translateNow cl asid va .load with
  | (.ok e, s) =>
    if asked then s
    else s.toSlice { who := .nobody, fill := true, va := va / 128 * 128, pa := e.phys va / 128 * 128, n := 128, asid := asid, tenant := tenant,
                     key := e.key, ac := e.ac, cluster := cl, tag := tag }
  | (.error (0, pa), s) => s.askTable (clusterAsker cl) asid tenant cl pa
  | (.error _, s) => s

/-- A global-space read that the part makes for a thread: through the cluster's TLB and L1. The cause and address of a page fault, or
cause 0 with an address whose line must come to the L1 first; poisoned words read zero. -/
def State.globalNow (s : State) (cl asid tenant : Nat) : List (Nat × Nat) → Except (Nat × Nat) (List Byte × State)
  | [] => .ok ([], s)
  | (va, n) :: rest =>
    let tr : Except Nat State :=
      match (s.cluster cl).lookup asid va .load with
      | (some _, c) => .ok (s.setCluster cl c)
      | (none, c) => match s.walkBy (clusterAsker cl) asid tenant va .load with
        | .ok e =>
          if s.walkStopped cl asid va (some e) then .error 0
          else .ok ((s.setCluster cl { c with tlb := tlbTouch c.tlb e }).dropLines (clusterAsker cl))
        | .error (c, _) => .error c
    match tr with
    | .error c => .error (c, va)
    | .ok s =>
      match (s.cluster cl).l1Find asid (va / 128) with
      | none => .error (0, va)
      | some l =>
        if l.valid &&& byteMask (va % 128) n ≠ byteMask (va % 128) n then .error (0, va)
        else
          let s := s.updCluster cl fun c => c.l1Read l
          let l := l.scan.1
          let s := if (l.poisonAt (va % 128) n).isSome then s.countPoison cl else s
          match s.globalNow cl asid tenant rest with
          | .ok (bs, s) => .ok (l.bytes (va % 128) n ++ bs, s)
          | .error x => .error x

/-! ## Page faults (R44, R396, R398) -/

/-- A parked fault's token and record: the thread waits for the host's answer. -/
def State.parkFault (s : State) (tid c va acc : Nat) (after : Option (HomeReq × Take)) : State :=
  let tok := s.ctl.nextTok
  let who : Parked := if tid < 32768 then .handler tid else .thread tid
  let s := s.updCtl fun x => { x with nextTok := tok + 1 }
  let s := s.updDev fun d => { d with tokens := d.tokens.set tok ⟨who, c, va, after⟩ }
  let s := s.updThread tid fun t => { t with
    ctx := { t.ctx with trw := putField t.ctx.trw 8 1 1 }, aux := { t.aux with
      token := tok, sample := t.aux.sample.map fun x => x.spend s.ctl.cycle x.net } }
  let kind := if tid < 32768 && tid % 2 == 1 then 2 else 0
  (s.postRec (s.threadRec tid c kind acc va tok)).leaveAs tid .faulted

/-- A job parks on a page fault (R251). -/
def State.jobFault (s : State) (j c va acc : Nat) : State :=
  match s.job j with
  | some x =>
    let tok := s.ctl.nextTok
    let cp := decide (x.eng = .cp)
    let s := s.updCtl fun y => { y with nextTok := tok + 1 }
    let s := s.updDev fun d => { d with tokens := d.tokens.set tok ⟨if cp then .copyJob j else .clJob j, c, va, none⟩ }
    let s := if cp then s.updCluster (x.core / 8) fun k => { k with copy := { k.copy with stopped := j :: k.copy.stopped } } else s
    s.postRec { tenant := x.tenant, cause := c, kind := if cp then 1 else 3, acc := acc, asid := x.asid, gtid := x.gtid,
                pc := x.id, addr := va, core := if cp then x.core / 8 * 8 else x.core, token := tok }
  | none => s

/-! ## Walks (R391, R392) -/

/-- The copy hart or a communication thread looks at its jobs. -/
def State.kickJobs (s : State) (x : Job) (j : Nat) : State :=
  match x.eng with
  | .cp => if s.scheduled .copyUnit (x.core / 8) then s else s.later 0 .copyUnit (x.core / 8) 0 0
  | .cl => if s.scheduled .clChunk x.core then s else s.later 0 .clChunk x.core j 0
  | _ => s

/-- A job whose translation, data or acknowledgement has come goes on. -/
def State.jobGo (s : State) (j : Nat) : State :=
  match s.job j with
  | some x => (s.updJob j fun x => { x with pending := 0 }).kickJobs x j
  | none => s

/-- TLB_WALK_COMPLETION (R392): the entry is made and the waiter goes on, or the waiter parks on the fault. A walk that a shootdown has
stopped is made once that is over; a table that stands on another device is read at its home (R391), and one in a stack in self-refresh
when that serves again (R442). -/
def execTlbWalkCompletion (s : State) : Host.Outcome State Fault Refusal :=
  let i := s.ctl.ev.a
  match s.msgs.find i with
  | some (.walk w) =>
    let r := s.walkBy (walkAsker i) w.asid w.tenant w.va w.kind
    let again (s : State) : State := s.later s.ctl.lat.walk .tlbWalkCompletion i 0 0
    if s.walkStopped w.cluster w.asid w.va r.toOption then .next (again s)
    else
    let done := (s.dropMsg i).dropLines (walkAsker i)
    match r with
    | .error (0, pa) =>
      -- a line that has been asked for brings the walk on when it comes (R391)
      .next (if s.isLocal pa then again s else s.askTable (walkAsker i) w.asid w.tenant w.cluster pa)
    | .ok e =>
      let s := done
      let s := s.updCluster w.cluster fun c => if c.isOn then { c with tlb := tlbTouch c.tlb e } else c
      match w.who with
      | .thread tid => match (s.threads.find tid) with
        | some t =>
          let s := s.updSample tid fun x => x.spend s.ctl.cycle 2
          match t.cont with
          | .none => .next (s.rejoin tid)
          | _ => .next (s.resumeNow tid)
        | none => .next s
      | .job j => .next (s.jobGo j)
      | .nobody => .next (s.toSlice
          { who := .nobody, fill := true, va := w.va / 128 * 128, pa := e.phys w.va / 128 * 128, n := 128, asid := w.asid,
            tenant := w.tenant, key := e.key, ac := e.ac, cluster := w.cluster, tag := w.tag })
      | _ => .next s
    | .error (c, _) =>
      let s := done
      match w.who with
      | .thread tid =>
        if (s.threads.find tid).isSome then
          let s := if w.kind = .fetch then s.updThread tid fun t => { t with word := 0 } else s
          .next ((s.parkFault tid c w.va w.kind.code none).wakePool w.cluster)
        else .next s
      | .job j => .next (s.jobFault j c w.va w.kind.code)
      | _ => .next s
  | _ => .fault .noSuchHappening

/-! ## Fills -/

/-- A line that the part has asked for has come to a cluster: the bindings of its cores read what they await, and a RULE.GO or a
handler's start that waits looks again, before anything drops the line (R23, R43, R279). -/
def State.tableLine (s : State) (cl : Nat) : State :=
  let s := (List.range 8).foldl (fun s i => (List.range 8).foldl (fun s k =>
    match (s.core (8 * cl + i)).slots.toList.getD k .empty with
    | .loading _ n => if n = 1 || (s.core (8 * cl + i)).noBind then s else s.later 0 .tadpoleBinding (8 * cl + i) k 1
    | _ => s) s) s
  let looks (x : Nat × Happen) : Bool := match x.2 with
    | .ev e => (e.kind == .replyArrival && e.b == 1) || (e.kind == .handlerStart && e.a / 8 == cl)
    | .resume _ => false
  let now := s.ctl.agenda.filter looks
  now.foldl (fun s x => s.at s.ctl.cycle x.2) (s.updCtl fun c => { c with agenda := c.agenda.filter fun x => !looks x })

/-- Who waits for a line goes on: the thread's word is executed again. -/
def State.lineServes (s : State) (r : SliceReq) : State :=
  match r.who with
  | .thread tid => if (s.threads.find tid).isSome then (s.servedBy tid r.pa).resumeNow tid else s
  | .job j => s.jobGo j
  | _ => s.tableLine r.cluster

/-- A line reaches the cluster that asked (R145). A stale one is not put into the L1; one that an acquire has passed leaves it when it has
served (ev.b = 1). -/
def execL1Fill (s : State) : Host.Outcome State Fault Refusal :=
  let i := s.ctl.ev.a
  match s.msgs.find i with
  | some (.fill r d psn sl stale) =>
    if s.ctl.ev.b = 1 then
      .next ((s.dropMsg i).updCluster r.cluster fun c => c.dropClean fun l => l.asid == r.asid && l.va == r.va / 128)
    else
      let mine := (s.cluster r.cluster).isOn && (match (s.cluster r.cluster).crew with | some c => c.asid == r.asid | none => true)
      let put := mine && !stale
      let s := if put then s.fillLine r.cluster r.asid (r.va / 128) d psn sl r.tag else s
      let s := s.lineServes r
      .next (if put && r.passed then s.later 0 .l1Fill i 1 0 else s.dropMsg i)
  | _ => .fault .noSuchHappening

/-- The cluster's cache with a line of instructions in the most recently used place; 256 lines of 128 bytes (R136). -/
def icachePut (ls : List ILine) (l : ILine) : List ILine :=
  (l :: ls.filter fun x => !(x.asid == l.asid && x.va == l.va)).take 256

/-- A line of instructions put into a cluster's cache, with zero for poisoned words, which are counted (R143, R326). -/
def State.putIline (s : State) (cl asid line : Nat) (d : BitVec 1024) (psn : BitVec 16) : State :=
  let s := if psn = 0 then s else s.countPoison cl
  s.updCluster cl fun c => { c with icache := icachePut c.icache ⟨asid, line, mergeBytes d 0 (BitVec.ofNat 128 (spreadMask 16 psn.toNat)), 0⟩ }

/-- ICACHE_LINE_ARRIVAL (R136): the thread fetches again. A line whose translation has gone meanwhile is not kept (R286, R395). -/
def execIcacheLineArrival (s : State) : Host.Outcome State Fault Refusal :=
  let i := s.ctl.ev.a
  match s.msgs.find i with
  | some (.fill r d psn _ _) =>
    let s := s.dropMsg i
    let held := match tlbFind (s.cluster r.cluster).tlb r.asid r.va with | (some e, _) => e.phys r.va == r.pa | (none, _) => false
    let s := if held && (s.cluster r.cluster).isOn then s.putIline r.cluster r.asid (r.va / 128) d psn else s
    match r.who with
    | .thread tid => .next (if (s.threads.find tid).isSome then s.rejoin tid else s)
    | _ => .next s
  | _ => .fault .noSuchHappening

/-! ## Access counters (R399) -/

/-- A request served through a leaf with AC = 1 for an agent of another die or device counts in its region. -/
def State.countAccess (s : State) (sl a key die dev : Nat) (other : Bool) : State :=
  if !other then s
  else
    let reg := a / 2 ^ 21
    let c : AccCounter := (s.slice sl).acc.get {} reg
    let n := min (c.count + 1) 255
    let hit := decide (200 ≤ n) && c.armed
    let c' : AccCounter := { c with count := n, armed := c.armed && !hit, die := die, dev := dev }
    let s := s.updSlice sl fun x => { x with acc := x.acc.set reg c' }
    if hit then
      s.postRec { tenant := key, cause := 0x84, kind := 4, core := sl / 256 * 2048,
                  addr := 0, info5 := BitVec.ofNat 64 (s.dev.id * 2 ^ 40 + reg * 2 ^ 21),
                  info6 := BitVec.ofNat 64 (die * 2 ^ 12 + dev) }
    else s

/-- ACCESS_COUNTER_HALVING (R399): ev.a the die. -/
def execAccessCounterHalving (s : State) : Host.Outcome State Fault Refusal :=
  let d := s.ctl.ev.a
  let halved (c : AccCounter) : AccCounter := { c with count := c.count / 2, armed := c.armed || decide (c.count / 2 < 64) }
  let s : State := { s with slices := s.slices.map fun x =>
    if x.1 / 256 = d then (x.1, { x.2 with acc := x.2.acc.map fun c => (c.1, halved c.2) }) else x }
  .next (s.later 1048576 .accessCounterHalving d 0 0)

/-! ## Writes at a home -/

/-- What discards a byte of a write at its home: a typed or marked granule (0x40), a sealed range (0x23), with the address for the
record; none when it is written (R146). `v` is the space and virtual address that the write names; a write of another device names
none, and its record has the sealed range's address, or for a typed granule the local address: log 65. -/
def State.discards (s : State) (v : Option (Nat × Nat)) (a : Nat) : Option (Nat × Nat) :=
  let t := s.mem.tag a
  if t.ty != 0 || t.mark then some (0x40, match v with | some (_, va) => va | none => a)
  else match v with
    | some (asid, va) => if (s.sealAt asid va).isSome then some (0x23, va) else none
    | none => (s.sealedPa (s.dev.id * 2 ^ 40 + a)).map fun x => (0x23, x.1)

/-- Masked bytes applied at a home from a key up: the mask of those written, and the first discarded byte's cause and address
(R146). -/
def State.applyBytes (s : State) (v : Option (Nat × Nat)) : Nat → Nat → List Byte → State × Nat × Option (Nat × Nat)
  | _, _, [] => (s, 0, none)
  | a, mask, b :: t =>
    let next := v.map fun x => (x.1, x.2 + 1)
    if mask % 2 = 1 then
      match s.discards v a with
      | none =>
        let r := State.applyBytes { s with mem := s.mem.writeByte a b } next (a + 1) (mask / 2) t
        (r.1, 1 + 2 * r.2.1, r.2.2)
      | some c =>
        let r := State.applyBytes s next (a + 1) (mask / 2) t
        (r.1, 2 * r.2.1, some c)
    else
      let r := State.applyBytes s next (a + 1) (mask / 2) t
      (r.1, 2 * r.2.1, r.2.2)

/-- The words of a write at a home, from an address that begins a word on (R143, R324): one written whole loses its poison; one written
in part is read first, keeps its poison, and takes that which came with the line. -/
def State.settleWords (s : State) (a mask : Nat) (psn : BitVec 16) : Nat → State
  | 0 => s
  | n + 1 =>
    let s := s.settleWords a mask psn n
    let f := field mask (8 * n) 8
    if f = 255 then { s with mem := s.mem.clearPoison (a + 8 * n) 8 }
    else if f = 0 then s
    else
      let s := s.homeScan (a + 8 * n) 8
      if bit psn.toNat n then { s with mem := s.mem.setPoison (a + 8 * n) true } else s

/-- A sub-block of a moving page is dirty after a write (R401). -/
def State.moveDirty (s : State) (pa : Nat) : State :=
  let mark (m : Nat × Move) : Nat × Move :=
    if decide (localOf m.2.old ≤ localOf pa) && decide (localOf pa < localOf m.2.old + m.2.size) then
      let b := (localOf pa - localOf m.2.old) / 256
      (m.1, { m.2 with dirty := if m.2.dirty.contains b then m.2.dirty else b :: m.2.dirty })
    else m
  s.updDev fun d => { d with moves := d.moves.map mark }

/-- The page move in its final pass that parks writes to an address (R401). -/
def State.finalMove (s : State) (pa : Nat) : Option Nat :=
  (s.dev.moves.find? fun m => m.2.final && decide (localOf m.2.old ≤ localOf pa) &&
    decide (localOf pa < localOf m.2.old + m.2.size)).map (·.1)

/-- A write parked at a page in its final pass (R401). -/
def State.parkWrite (s : State) (m i : Nat) : State :=
  let add (x : Nat × Move) : Nat × Move := if x.1 = m then (x.1, { x.2 with parked := x.2.parked ++ [i] }) else x
  s.updDev fun d => { d with moves := d.moves.map add }

/-- Masked bytes written at their home (R143, R146): the slice's line under the writer's key, the poison, the page's sub-block. The mask
of the bytes written, and what the record of the discarded ones says. -/
def State.writeBytes (s : State) (v : Option (Nat × Nat)) (pa key mask : Nat) (psn : BitVec 16) (bs : List Byte) :
    State × Nat × Option (Nat × Nat) :=
  let a := s.key pa
  let s := s.useKey (sliceOf a) (a / 128) key
  let (s, done, bad) := s.applyBytes v a mask bs
  ((s.moveDirty pa).settleWords (a / 8 * 8) (done * 2 ^ (a % 8)) psn ((a % 8 + bs.length + 7) / 8), done, bad)

/-- The same for a write-back, a store or a write of another device: discarded bytes are counted (R146, R326). -/
def State.homeBytes (s : State) (v : Option (Nat × Nat)) (pa key mask : Nat) (psn : BitVec 16) (bs : List Byte) :
    State × Nat × Option (Nat × Nat) :=
  let (s, done, bad) := s.writeBytes v pa key mask psn bs
  (match bad with
    | some _ => s.updSlice (sliceOf (s.key pa)) fun x => { x with ctr := { x.ctr with discard := sat32 x.ctr.discard } }
    | none => s, done, bad)

/-- A write-back or a write-through store of a cluster at its home: discarded bytes are counted and recorded, and the writer's
cluster no longer holds them (R146, R287). -/
def State.writeAtHome (s : State) (asid tenant : Nat) (gtid : BitVec 32) (va pa key mask : Nat) (psn : BitVec 16) (bs : List Byte) (cl : Nat) :
    State :=
  let (s, done, bad) := s.homeBytes (some (asid, va)) pa key mask psn bs
  match bad with
  | none => s
  | some (c, v) =>
    (s.updCluster cl fun k => k.l1Forget asid (va / 128) (BitVec.ofNat 128 ((mask - done) * 2 ^ (va % 128))) false).postRec
      { tenant := tenant, cause := c, kind := 4, acc := 7, asid := asid, gtid := gtid, addr := v, core := 8 * cl }

/-- Bytes that the part writes for itself or for the host through a space (R342, R423, R437): at their home, or sent there. -/
def State.partWrite (s : State) (asid tenant va : Nat) (e : TlbEntry) (bs : List Byte) : State :=
  let pa := e.phys va
  if s.isLocal pa then (s.homeBytes (some (asid, va)) pa e.key (2 ^ bs.length - 1) 0 bs).1
  else s.toSlice { who := .nobody, fill := false, write := some bs, va := va, pa := pa, n := bs.length, asid := asid, tenant := tenant, key := e.key,
                   ac := e.ac }

/-! ## Entries of the segment table (R161, R162) -/

/-- A capability in a thread's segment register and its table entry (R161, R162). The entry of a thread whose pond is saved is written at
its home: its registers are rebuilt from it at binding (R23). -/
def State.setEntry (s : State) (tid sd : Nat) (g : Seg) : State :=
  let th := s.thread tid
  let va := s.segEntry (s.servedTask tid) (th.ctx.sel.toList.getD sd 0).toNat
  let s := if s.isSavedThread tid then
      match s.pond th.ident.pond with
      | some p => (match s.walk p.asid p.tenant va .store with
        | .ok e => s.partWrite p.asid p.tenant va e (bytesOf g.words)
        | .error (0, pa) => s.needs pa p.tenant (th.core / 8)
        | .error _ => s)
      | none => s
    else s.storeLine (th.core / 8) (s.asidOf (th.core / 8)) va (bytesOf g.words) 0 true
  s.updThread tid fun u => { u with segs := u.segs.setIfInBounds sd g }

/-- The write right of a give: it goes before the put, and comes back when the put fails (R161, R163). -/
def State.setWriteRight (s : State) (tid : Nat) (op : HomeOp) (w : Bool) : State :=
  match op, (s.thread tid).cont with
  | .give _, .reply tk => match tk.give, tk.sd with
    | true, some sd =>
      let g := (s.thread tid).segs.toList.getD sd {}
      if g.w = w then s else s.setEntry tid sd { g with w := w }
    | _, _ => s
  | _, _ => s

/-! ## Requests for lines and bytes (R316) -/

/-- The end of an agent's wait for acknowledgements (R147, R257, R258, R402). -/
def State.goOn (s : State) (a : Agent) : State :=
  if s.awaits a then s
  else match a with
    | .thread tid => match s.threads.find tid with
      | some t => match t.cont with
        | .retry | .second => s.resumeNow tid
        | .send r tk => ((s.updThread tid fun t => { t with cont := .reply tk }).setWriteRight tid r.op false).toHome r
        | .exit => if tid < 32768 then s.handlerEnd tid else s.endThread tid
        | .depart _ => s.migrationLook tid
        | .observe r => if bit (s.recordWord t.core r) 0 then s.completeBy tid none (observe r) else s
        | _ => s
      | none => s
    | .job j => match s.job j with
      | some x => if x.phase = 3 || x.phase = 6 then s.jobGo j else s.later 0 .jobCompletion j 0 0
      | none => s
    | .shoot i c => s.later 0 .shootdownCluster (i / 2) c (1 + i % 2)
    | _ => s

/-- The line that a message reads or writes at its home. -/
def State.lineOf (s : State) : Msg → Option Nat
  | .slice r => some (s.key r.pa / 128)
  | .wb w => some (s.key w.pa / 128)
  | .home r | .combined (r :: _) => some (s.key r.pa / 128)
  | _ => none

/-- The cycle at which the last request that waits for a line on its way from HBM to its slice is performed. -/
def State.lineDue (s : State) (line : Nat) : Option Nat :=
  s.ctl.agenda.foldl (fun d x => match x.2 with
    | .ev e => if e.kind == .hbmAccessCompletion && (match s.msgs.find e.a with | some m => s.lineOf m == some line | none => false)
      then some x.1 else d
    | .resume _ => d) none

/-- A line is on its way from HBM to its slice: what comes to it later waits for it, behind what waits already, so that the home's
order is that of arrival (R316, R318, R363). -/
def State.lineBusy (s : State) (line : Nat) : Bool := (s.lineDue line).isSome

/-- A message at its home waits for its line. -/
def State.awaitLine (s : State) (line i : Nat) : State :=
  s.at ((s.lineDue line).getD (s.ctl.cycle + s.ctl.lat.hbm)) (.ev ⟨.hbmAccessCompletion, i, 0, 0, .none⟩)

/-- An acknowledgement of a home's slice to an agent: the end of a wait, when nothing else is awaited. -/
def State.ackWaiter (s : State) (die tenant : Nat) (a : Agent) : State :=
  if s.awaits a then s
  else match s.agentCluster a with
    | some c => s.fromDie die c tenant 1 1 (.waitEnd a)
    | none => s

/-- A write-back performed at its home (R146). -/
def State.serveWb (s : State) (i : Nat) (w : WriteBack) : State :=
  let a := s.key w.pa
  let s := s.countAccess (sliceOf a) a w.key (w.cluster / 256) s.dev.id (w.ac && w.cluster / 256 != sliceOf a / 256)
  let s := (s.dropMsg i).writeAtHome w.asid w.tenant w.gtid (128 * w.va) w.pa w.key w.mask.toNat w.psn (leBytes 128 w.data.toNat) w.cluster
  w.waiters.reverse.foldl (fun s a => s.ackWaiter (field w.pa 36 3) w.tenant a) s

/-- A write-back whose walk waited for a table (R391): it goes to its home, or its bytes are discarded (R395). -/
def State.sendUnsent (s : State) (i : Nat) (w : WriteBack) : State :=
  match s.translateNow w.cluster w.asid (w.va * 128) .writeBack with
  | (.ok e, s) =>
    ((s.dropMsg i).dropLines (clusterAsker w.cluster)).sendWb
      { w with pa := e.phys (w.va * 128), key := e.key, ac := e.ac, unsent := false }
  | (.error (0, pa), s) =>
    (s.askTable (clusterAsker w.cluster) w.asid w.tenant w.cluster pa).later s.ctl.lat.walk .writeBackAtHome i 0 0
  | (.error (c, _), s) =>
    let s := (((s.dropMsg i).dropLines (clusterAsker w.cluster)).discardWb w c).updCluster w.cluster fun k =>
      k.l1Forget w.asid w.va w.mask false
    w.waiters.reverse.foldl (fun s a => s.goOn a) s

/-- WRITE_BACK_AT_HOME (R146, R316): a write to a page in its final pass is parked (R401); a stack in self-refresh serves nothing
(R442). -/
def execWriteBackAtHome (s : State) : Host.Outcome State Fault Refusal :=
  let i := s.ctl.ev.a
  match s.msgs.find i with
  | some (.wb w) =>
    if w.unsent then .next (s.sendUnsent i w)
    else match s.finalMove w.pa with
    | some m => .next (s.parkWrite m i)
    | none =>
      let d := sliceOf (s.key w.pa) / 256
      if (s.die d).refresh = 2 then .next (s.updDie d fun d => { d with held := d.held ++ [i] })
      else if s.lineBusy (s.key w.pa / 128) then .next (s.awaitLine (s.key w.pa / 128) i)
      else .next (s.serveWb i w)
  | _ => .fault .noSuchHappening

/-- A write of a cluster has been performed at a home: what its L1 held clean of these bytes, and fills read before, are superseded
(R292, R295, R300). Bytes that were dirty before it have gone home ahead of it; one that is dirty now is a later store (R297). -/
def State.ownWrite (s : State) (cl asid va n : Nat) : State :=
  (pieces va n).foldl (fun s p =>
    (s.updCluster cl fun c => c.l1Forget asid (p.1 / 128) (byteMask (p.1 % 128) p.2) false).staleFills fun r sl =>
      r.cluster == cl && r.asid == asid && r.va / 128 == p.1 / 128 && s.mayBeRead r sl) s

/-- A write-through store has been performed: its bytes stand clean in the cluster L1 (R148), whatever a fill put there meanwhile. -/
def State.ownStore (s : State) (cl asid va : Nat) (bs : List Byte) : State :=
  (pieces va bs.length).foldl (fun s p =>
    let new := BitVec.ofNat 1024 (leNat ((bs.drop (p.1 - va)).take p.2) * 2 ^ (8 * (p.1 % 128)))
    (s.updCluster cl fun c => { c with l1 := c.l1.map fun l =>
      if l.asid == asid && l.va == p.1 / 128 then
        { l with data := mergeBytes l.data new (byteMask (p.1 % 128) p.2 &&& l.valid &&& ~~~l.dirty) }
      else l }).staleFills fun r sl => r.cluster == cl && r.asid == asid && r.va / 128 == p.1 / 128 && s.mayBeRead r sl) s

/-- A request comes from another device. -/
def Agent.isFar : Agent → Bool
  | .fabric _ _ _ _ _ => true
  | _ => false

/-- A granule of a range is typed or marked. -/
def State.typedIn (s : State) (a n : Nat) : Bool :=
  (List.range n).any fun k => (s.mem.tag (a + k)).ty != 0 || (s.mem.tag (a + k)).mark

/-- A line of this device sealed for the pod, as a fill of another device learns it (R154). -/
def State.podSealed (s : State) (pa : Nat) : Bool :=
  (List.range 128).any fun k => match s.sealedPa (s.dev.id * 2 ^ 40 + localOf pa / 128 * 128 + k) with
    | some (_, .pod) => true
    | _ => false

/-- A write of a thread, or of another device, performed at its home (R145, R148, R377). -/
def State.serveWrite (s : State) (r : SliceReq) (key : Nat) (bs : List Byte) : State :=
  let a := s.key r.pa
  let sl := sliceOf a
  let two := match r.split with
    | some (n, pa, _) => s.isLocal pa && s.typedIn (s.key pa) (r.n - n)
    | none => false
  if r.obj && (s.typedIn a r.first || two) then s.answer sl r.who { cause := 0x40, addr := r.va } false
  else if r.who.isFar then
    let (s, done, bad) := s.homeBytes none r.pa key (r.mask.getD (2 ^ bs.length - 1)) 0 bs
    match bad with
    | some (c, v) =>
      -- the writer's cluster is to hold the discarded bytes no more (R287)
      (s.postRec { tenant := r.tenant, cause := c, kind := 4, acc := 7, addr := v, core := sl / 256 * 2048 }).answer sl r.who
        { flag := true, data := leBytes 16 done } false
    | none => s.answer sl r.who {} false
  else
    let gtid := match r.who with
      | .thread t => (s.thread t).ctx.gtid
      | .job j => (match s.job j with | some x => x.gtid | none => 0)
      | _ => 0
    let bs := bs.take r.first
    let s := if r.obj then (s.writeAtHome r.asid r.tenant gtid r.va r.pa key (2 ^ bs.length - 1) 0 bs r.cluster).ownWrite r.cluster r.asid r.va bs.length
      else (s.ownStore r.cluster r.asid r.va bs).writeAtHome r.asid r.tenant gtid r.va r.pa key (2 ^ bs.length - 1) 0 bs r.cluster
    match r.rest [] none with
    | some q => s.toSlice q
    | none => s.answer sl r.who {} false

/-- A read at its home, with its poison (R143). -/
def State.serveRead (s : State) (r : SliceReq) : State :=
  let a := s.key r.pa
  let sl := sliceOf a
  let s := s.homeScan a r.first
  let data := s.mem.readHome a r.first
  -- what the cluster holds dirty now is newer (R148, R292)
  let data := if r.ordered then s.mergeOwn r.cluster r.asid r.va data else data
  let psn := s.mem.firstPoison a r.first
  let s := if psn.isSome then s.updSlice sl fun x => { x with ctr := { x.ctr with psnread := sat32 x.ctr.psnread } } else s
  let bad := psn.map fun p => r.va + (p - a)
  match r.rest data bad with
  | some q => s.toSlice q
  | none =>
    let bad := match r.bad with | some b => some b | none => bad
    let line : Word := if r.who.isFar && r.n == 128 then BitVec.ofNat 64 (s.mem.linePsn (a / 128 * 128) 16) else 0
    s.answer sl r.who { data := r.got ++ data, merr := bad.isSome, addr := bad.getD 0, value := line,
                        flag := r.who.isFar && r.n == 128 && s.podSealed r.pa } false

/-- A request performed at its home: a fill, a load, a store. A request of another device names no key index: the line's own is taken. -/
def State.serveSlice (s : State) (i : Nat) (r : SliceReq) : State :=
  let a := s.key r.pa
  let sl := sliceOf a
  let key := if r.who.isFar then s.lineKey a else r.key
  let s := (s.dropMsg i).useKey sl (a / 128) key
  let other := match r.who with | .fabric _ _ _ _ _ => true | _ => r.cluster / 256 != sl / 256
  let (dev, die) := match r.who with | .fabric d g _ _ _ => (d, sagtDie g) | _ => (s.dev.id, r.cluster / 256)
  let s := s.countAccess sl a key die dev (r.ac && other)
  match r.write with
  | some bs => s.serveWrite r key bs
  | none =>
    if r.fill then
      let ((d, psn, sld), s) := s.homeLine r.asid r.va r.pa key r.cluster
      s.fromDie (sl / 256) r.cluster r.tenant (if r.who.isJob then 3 else 1) 3 (.fill r d psn sld r.stale)
    else s.serveRead r

/-- Some object of a range is busy with a record of its chain (R319). -/
def State.objBusy (s : State) (a n : Nat) : Bool :=
  (s.slice (sliceOf a)).objs.any fun o => o.2.reading && decide (o.1 < a + n) && decide (a < o.1 + 32)

/-- A request of another device at a home that cannot tell yet what is sealed waits for the tables that tell it (R146, R391). -/
def State.knowingSeals (s : State) (far : Bool) (f : State → State) : State :=
  match (if far then s.sealAway else none) with
  | some (pa, tenant) => s.needs pa tenant 0
  | none => f s

/-- A request for a line or bytes at its home (R316, R322). -/
def sliceRequest (s : State) : Host.Outcome State Fault Refusal :=
  let i := s.ctl.ev.a
  match s.msgs.find i with
  | some (.slice r) =>
    if !s.isLocal r.pa then .next (if s.wbPending r then s.later 8 .sliceRequest i 0 0 else (s.dropMsg i).toSlice r)
    else
    let a := s.key r.pa
    let s := if s.ctl.ev.b = 0 then s.sampleArrives r.who r.cluster r.pa else s
    match (if r.write.isSome then s.finalMove r.pa else none) with
    | some m => .next (s.parkWrite m i)
    | none =>
      let d := sliceOf a / 256
      if (s.die d).refresh = 2 then .next (s.updDie d fun d => { d with held := d.held ++ [i] })
      else if s.lineBusy (a / 128) || !(s.slice (sliceOf a)).lines.contains (a / 128) then .next (s.awaitLine (a / 128) i)
      else if (!r.who.isFar && s.wbPending r) || s.objBusy a r.first then .next (s.later 1 .sliceRequest i 1 0)
      else .next (s.knowingSeals r.who.isFar fun s => s.serveSlice i r)
  | _ => .fault .noSuchHappening

/-- SLICE_REQUEST (R316, R322): a read of another device's home that waited for a write-back goes on; a read waits for the cluster's own
write-back to the line (R292); a miss in the slice waits for HBM; a stack in self-refresh serves nothing (R442); a write to a page in its
final pass is parked (R401). -/
def execSliceRequest (s : State) : Host.Outcome State Fault Refusal := withTables sliceRequest s

/-! ## Records that waited for room (R397) -/

/-- Records of a die put into their queues, oldest first, while there is room. -/
def State.drainFaults (s : State) (d : Nat) : Nat → State
  | 0 => s
  | n + 1 =>
    match (s.die d).faults with
    | [] => s
    | r :: rest =>
      match s.putFault r with
      | none => s
      | some s =>
        let s := s.updDie d fun x =>
          match x.unmade with
          | u :: us => { x with faults := rest ++ [u], unmade := us }
          | [] => { x with faults := rest }
        s.drainFaults d n

/-- FAULT_RECORD_DEFERRED (R397): it comes again while records wait. -/
def execFaultRecordDeferred (s : State) : Host.Outcome State Fault Refusal :=
  let d := s.ctl.ev.a
  let s := s.drainFaults d ((s.die d).faults.length + (s.die d).unmade.length)
  if (s.die d).faults.isEmpty then .next s
  else .next (s.later s.ctl.lat.host .faultRecordDeferred d 0 0)

end Sys2Proof.Machine
end

