-- ==== Sys2Proof/Machine/Launch.lean ====
section
/-! DEFINITION. The launch record's fields and checks (R329, R330), the state of a new thread (R32, R33, R473), the identity
words (R26), binding and the quantum (R23, R43, R408). -/

namespace Sys2Proof.Machine

/-! ## The record (R329) -/

/-- A record from its eight words. -/
def Lr.ofWords (ws : List Word) : LaunchRec :=
  ⟨wordAt ws 0, wordAt ws 1, wordAt ws 2, wordAt ws 3, wordAt ws 4, wordAt ws 5, wordAt ws 6, wordAt ws 7⟩

def Lr.pidb (l : LaunchRec) : Nat := wf l.w0 32 32
def Lr.entry (l : LaunchRec) : Nat := wf l.w0 0 32
/-- Selector of segment register `i`, 0 to 4. -/
def Lr.sel (l : LaunchRec) (i : Nat) : Nat := wf l.w1 (16 + 8 * i) 8
def Lr.don (l : LaunchRec) : Bool := bit l.w1.toNat 1
def Lr.dep (l : LaunchRec) : Bool := bit l.w1.toNat 0
def Lr.kimg (l : LaunchRec) : Nat := wf l.w3 0 57
def Lr.taskn (l : LaunchRec) : Nat := wf l.w4 40 24
def Lr.npm1 (l : LaunchRec) : Nat := wf l.w4 29 11
def Lr.height (l : LaunchRec) : Nat := wf l.w4 24 5 + 1
def Lr.width (l : LaunchRec) : Nat := wf l.w4 18 6 + 1
def Lr.crew (l : LaunchRec) : Nat := wf l.w4 10 8 + 1
def Lr.tvec (l : LaunchRec) : Nat := wf l.w5 19 32
def Lr.spb (l : LaunchRec) : Nat := wf l.w5 0 19
/-- The scratchpad request rounded up (R309). -/
def Lr.spad (l : LaunchRec) : Nat := (Lr.spb l + 16383) / 16384 * 16384
def Lr.depo (l : LaunchRec) : Nat := 16 * wf l.w6 32 32
def Lr.dono (l : LaunchRec) : Nat := 16 * wf l.w6 0 32

/-- The status word of a new thread, without SLOT (R33). -/
def Lr.psw (l : LaunchRec) : Word :=
  BitVec.ofNat 64 (1 + wf l.w1 6 3 * 2 ^ 16 + wf l.w1 9 2 * 2 ^ 19 + wf l.w1 11 1 * 2 ^ 21 + wf l.w1 13 1 * 2 ^ 32 +
    wf l.w1 12 1 * 2 ^ 33)

/-- The generator's first state (R32). -/
def seedSrg (seed : Word) (pondId rank : Nat) : Word :=
  let v := seed ^^^ (BitVec.ofNat 64 (pondId * 2 ^ 32 + rank) * 0x9E3779B97F4A7C15)
  if v = 0 then 1 else v

/-- A new thread (R33). -/
def Lr.thread (l : LaunchRec) (pond pondId : Nat) (gtid : BitVec 32) (pc : Nat) (g0 : Word) (rank crewRank tsn core : Nat) :
    Thread :=
  { ctx :=
    { g := (Vector.replicate 10 0).set 0 g0, psw := Lr.psw l, pc := BitVec.ofNat 32 pc, gtid := gtid,
      sel := #v[BitVec.ofNat 8 (Lr.sel l 0), BitVec.ofNat 8 (Lr.sel l 1), BitVec.ofNat 8 (Lr.sel l 2),
        BitVec.ofNat 8 (Lr.sel l 3), BitVec.ofNat 8 (Lr.sel l 4), 0, 0, 0],
      srg := seedSrg l.w2 pondId rank },
    ident := ⟨pond, BitVec.ofNat 32 rank, BitVec.ofNat 16 crewRank, BitVec.ofNat 32 tsn⟩,
    run := .ready, core := core }

/-! ## Reads of the scheduler (R331) -/

/-- For whom the scheduler reads a task's memory: a launch queue's head by its number, a pond that ends, a thread's LNCH, a function's
SUBMIT. -/
def pondAsker (k : Nat) : Nat := 2 ^ 40 + k
def threadAsker (tid : Nat) : Nat := 2 ^ 41 + tid
def hostAsker (fn : Nat) : Nat := 4096 + fn

/-- Bytes within a line of a task's memory as their home holds them, or the cause and address of a page fault; cause 0 when another device
must send the line or a line of the table first (R331), or a stack in self-refresh serves nothing (R442). -/
def State.taskPart (s : State) (who asid tenant va n : Nat) : Except (Nat × Nat) (List Byte) :=
  match s.walkBy who asid tenant va .load with
  | .error (c, _) => .error (c, va)
  | .ok e =>
    let pa := e.phys va
    let a := s.key pa
    if s.isLocal pa then
      let d := s.die (sliceOf a / 256)
      if d.refresh = 2 || d.paused then .error (0, va)
      else .ok (((s.useKey (sliceOf a) (a / 128) e.key).homeScan a n).mem.readHome a n)
    else match s.dev.schedLines.find? fun l => l.1 == who && l.2.1 == pa / 128 with
      | some l => .ok ((l.2.2.drop (pa % 128)).take n)
      | none => .error (0, va)

/-- Bytes of parts of a task's memory. -/
def State.taskParts (s : State) (who asid tenant : Nat) : List (Nat × Nat) → Except (Nat × Nat) (List Byte)
  | [] => .ok []
  | p :: t => match s.taskPart who asid tenant p.1 p.2 with
    | .error x => .error x
    | .ok bs => match s.taskParts who asid tenant t with
      | .ok cs => .ok (bs ++ cs)
      | .error x => .error x

/-- A range cut at the line boundaries, as many as it has. -/
def lineParts (va n : Nat) : List (Nat × Nat) :=
  (List.range ((va % 128 + n + 127) / 128)).map fun i =>
    let a := if i = 0 then va else (va / 128 + i) * 128
    (a, min (va + n) ((va / 128 + i + 1) * 128) - a)

/-- `n` words of a task's memory. -/
def State.taskWords (s : State) (who asid tenant va n : Nat) : Except (Nat × Nat) (List Word) :=
  match s.taskParts who asid tenant (lineParts va (8 * n)) with
  | .ok bs => .ok (wordsOf n bs)
  | .error x => .error x

/-- What stays at the slices of a task's memory that has been read (R323, R324, R326): the lines under the task's key, their codes
checked, poison met counted. A home stands on this device, since what another sends has been read there. -/
def State.taskTouch (s : State) (who asid tenant va n : Nat) : State :=
  (lineParts va n).foldl (fun s p => match s.walkBy who asid tenant p.1 .load with
    | .error _ => s
    | .ok e =>
      let a := s.key (e.phys p.1)
      if !s.isLocal (e.phys p.1) then s
      else
        let s := (s.useKey (sliceOf a) (a / 128) e.key).homeScan a p.2
        if (s.mem.firstPoison a p.2).isSome then s.updSlice (sliceOf a) fun x => { x with ctr := { x.ctr with psnread := sat32 x.ctr.psnread } }
        else s) s

/-- One that reads a task's memory tries again while a stack in self-refresh serves nothing (R442). -/
def State.lineLater (s : State) (who : Nat) : State :=
  if who < 4096 then (if s.scheduled .pondPlacement 0 then s else s.later s.ctl.lat.slice .pondPlacement 0 0 0)
  else if 2 ^ 41 ≤ who && (s.threads.find (who - 2 ^ 41)).isSome then s.at (s.ctl.cycle + s.ctl.lat.slice) (.resume (who - 2 ^ 41))
  else s

/-- A line of a task's memory, or of its page table, asked of the device that is its home, unless it has been asked for. -/
def State.askLine (s : State) (who asid tenant va : Nat) : State :=
  match s.walkBy who asid tenant va .load with
  | .error (0, pa) => if s.isLocal pa then s.lineLater who else s.askTable who asid tenant 0 pa
  | .error _ => s
  | .ok e =>
    let pa := e.phys va / 128 * 128
    if s.isLocal pa then s.lineLater who
    else if s.msgs.any fun m => match m.2 with | .slice r => r.who == .sched who && r.pa == pa | _ => false then s
    else s.toSlice { who := .sched who, fill := false, va := va / 128 * 128, pa := pa, n := 128, asid := asid, tenant := tenant, key := e.key,
                     ac := e.ac }

/-- The head is looked at again, the thread's LNCH or the walk goes on; what has not come is asked for again. -/
def State.lineGo (s : State) (who : Nat) : State :=
  if who < 4096 then (if s.scheduled .pondPlacement 0 then s else s.later 1 .pondPlacement 0 0 0)
  else if 2 ^ 42 ≤ who then s.later 0 .tlbWalkCompletion (who - 2 ^ 42) 0 0
  else if 2 ^ 41 ≤ who && (s.threads.find (who - 2 ^ 41)).isSome then s.resumeNow (who - 2 ^ 41)
  else s

/-- A line that the scheduler or a walk has asked for. -/
def State.lineCame (s : State) (who pa : Nat) (bs : List Byte) : State :=
  (s.updDev fun d => { d with schedLines := (who, pa / 128, bs) :: d.schedLines }).lineGo who

/-- The task of a tenant's task number. -/
def State.taskOf (s : State) (tenant taskn : Nat) : Option TaskEntry := s.dev.tasks.find (tenant * 2 ^ 24 + taskn)

/-- A segment of a task's table as the scheduler reads it. -/
def State.taskSeg (s : State) (who tenant taskn sel : Nat) : Option Seg :=
  match s.taskOf tenant taskn with
  | none => none
  | some t =>
    if sel = 0 then some {}
    else match s.taskWords who t.asid tenant (t.segtab + 32 * sel) 4 with
      | .ok ws => some (segOf ws)
      | .error _ => none

/-- What the read of the segment table entries that a record names leaves at their slices. -/
def State.recordTouch (s : State) (who tenant : Nat) (l : LaunchRec) : State :=
  match s.taskOf tenant (Lr.taskn l) with
  | none => s
  | some t => (List.range 5).foldl (fun s i =>
      if Lr.sel l i = 0 then s else s.taskTouch who t.asid tenant (t.segtab + 32 * Lr.sel l i) 32) s

/-- The address of a table entry that a record names and another device must send before the record is checked. -/
def State.entryAway (s : State) (who tenant : Nat) (l : LaunchRec) : Option (Nat × Nat) :=
  match s.taskOf tenant (Lr.taskn l) with
  | none => none
  | some t => (List.range 5).findSome? fun i =>
    if Lr.sel l i = 0 then none
    else match s.taskWords who t.asid tenant (t.segtab + 32 * Lr.sel l i) 4 with
      | .error (0, va) => some (t.asid, va)
      | _ => none

/-- The checks of R330 in their order: 0 when all pass. -/
def State.refusal (s : State) (who tenant q : Nat) (l : LaunchRec) : Nat :=
  let k := s.queue q
  let seg (i : Nat) : Seg := (s.taskSeg who tenant (Lr.taskn l) (Lr.sel l i)).getD {}
  let s0 := seg 0
  let s3 := seg 3
  let s4 := seg 4
  if 4095 < q || !k.cfg.en || k.cfg.owner != tenant then 0x01
  else if k.cfg.cap ≤ k.recs.length then 0x02
  else if Lr.taskn l = 0xFFFFFF || (s.taskOf tenant (Lr.taskn l)).isNone then 0x03
  else if wf l.w1 56 8 != 0 || wf l.w1 14 2 != 0 || wf l.w1 2 4 != 0 || wf l.w3 57 7 != 0 || wf l.w4 0 10 != 0 ||
      wf l.w5 51 13 != 0 || decide (4 < wf l.w1 6 3) then 0x04
  else if 0x48000 < Lr.spad l then 0x05
  else if k.cfg.subW < Lr.width l || k.cfg.subH < Lr.height l then 0x06
  else if 2 ^ 32 - 1 < Lr.pidb l + Lr.npm1 l then 0x07
  else if Lr.entry l % 4 != 0 || Lr.tvec l % 4 != 0 then 0x08
  else if decide (s0.space ≠ .global) || !(seg 1).x ||
      decide ((seg 2).space ≠ .scratch) ||
      decide (s3.space ≠ .tcm) || s3.base != 0 || s3.limit != 0x7000 || !s3.r || !s3.w ||
      decide (s4.space ≠ .object) || decide (s0.limit.toNat < Lr.kimg l + 1920) ||
      (Lr.dep l && decide (s4.limit.toNat < Lr.depo l + 16)) || (Lr.don l && decide (s4.limit.toNat < Lr.dono l + 16))
    then 0x09
  else 0

/-- A record accepted by its queue (R328): its launch sequence number. -/
def State.accept (s : State) (tenant q : Nat) (l : LaunchRec) : State × Nat :=
  let k := s.queue q
  let s := s.updQueue q fun k => { k with recs := k.recs ++ [{ launch := l, tenant := tenant, seq := k.seq }], seq := k.seq + 1 }
  let s := if s.scheduled .pondPlacement 0 then s else s.later 1 .pondPlacement 0 0 0
  (s, k.seq % 2 ^ 32)

/-- A submission by a tenant (R260, R330): the refusal word or the sequence number. -/
def State.submit (s : State) (who tenant q : Nat) (l : LaunchRec) : State × Word :=
  let r := s.refusal who tenant q l
  let s := (s.recordTouch who tenant l).dropLines who
  if r = 0 then
    let (s, n) := s.accept tenant q l
    (s, BitVec.ofNat 64 n)
  else (s, BitVec.ofNat 64 (2 ^ 63 + r))

/-! ## Identity words (R26) -/

/-- Words k240 to k247 of a core. -/
def State.identity (s : State) (p : Pond) (core : Nat) : List Word :=
  let cl := core / 8
  let c := clusterCol cl - p.col
  let r := clusterRow cl - p.row
  [BitVec.ofNat 64 (core + core % 8 * 2 ^ 16),
   BitVec.ofNat 64 (cl + clusterCol cl * 2 ^ 16 + clusterRow cl * 2 ^ 24),
   BitVec.ofNat 64 (cl / 256 + s.dev.id * 2 ^ 16),
   BitVec.ofNat 64 (p.col + p.row * 2 ^ 8 + p.w * 2 ^ 16 + p.h * 2 ^ 24 + p.id.toNat * 2 ^ 32),
   BitVec.ofNat 64 (c + r * 2 ^ 8 + (r * p.w + c) * 2 ^ 16),
   p.gtid.setWidth 64,
   BitVec.ofNat 64 (p.queue + p.seq % 2 ^ 32 * 2 ^ 32),
   BitVec.ofNat 64 (Lr.crew p.launch + Lr.crew p.launch * p.w * p.h * 2 ^ 16)]

/-- The ranks of the threads of slots 0 and 1 (R26). -/
def systemIdent (pond : Nat) : Ident := ⟨pond, 0xFFFFFFFF, 0xFFFF, 0xFFFFFFFF⟩

/-- k(248 + s) of a binding (R26). -/
def bindWord (slot : Nat) (i : Ident) : Word :=
  BitVec.ofNat 64 (slot + i.crewRank.toNat * 2 ^ 16 + i.pondRank.toNat * 2 ^ 32)

/-! ## Binding (R43) -/

/-- The first segment registers of a tadpole read through its selectors (R23), of which it holds `got` already: those that could be read,
and what stopped the reads, a fault that parks it or the address of a line that must come first. -/
def State.loadSegs (s : State) (tid got : Nat) : Nat → List Seg × State × Option (Nat × Nat)
  | 0 => ([], s, none)
  | n + 1 =>
    match s.loadSegs tid got n with
    | (gs, s, some x) => (gs, s, some x)
    | (gs, s, none) =>
      let t := s.thread tid
      let sel := (t.ctx.sel.toList.getD n 0).toNat
      let cl := t.core / 8
      if n < got then (gs ++ [t.segs.toList.getD n {}], s, none)
      else if sel = 0 then (gs ++ [{}], s, none)
      else match s.globalNow cl (s.asidOf cl) (s.tenantOf cl) (pieces (s.segEntry (s.servedTask tid) sel) 32) with
        | .ok (bs, s) => (gs ++ [segOf (wordsOf 4 bs)], s, none)
        | .error x => (gs, s, some x)

/-- Segment registers from a list. -/
def segsOf (gs : List Seg) : Vector Seg 8 :=
  #v[gs.getD 0 {}, gs.getD 1 {}, gs.getD 2 {}, gs.getD 3 {}, gs.getD 4 {}, gs.getD 5 {}, gs.getD 6 {}, gs.getD 7 {}]

/-- How many segment registers a tadpole in a slot holds while it binds: n + 2 in the slot for n of them. -/
def State.segsHeld (s : State) (tid core k : Nat) : Nat :=
  match (s.core core).slots.toList.getD k .empty with
  | .loading t n => if t = tid then n - 2 else 0
  | _ => 0

/-- A thread in a slot of its core whose segment registers are not loaded yet. -/
def State.seat (s : State) (tid core k n : Nat) : State :=
  (s.updCore core fun c => { c with slots := c.slots.setIfInBounds k (.loading tid n) }).updThread tid fun t => { t with slot := some k }

/-- The line of a segment table entry that a binding awaits is asked for; a page fault parks the thread (R23), one that waits for something
else when that has come. -/
def State.segsLater (s : State) (tid c va : Nat) : State :=
  let cl := (s.thread tid).core / 8
  if c = 0 then s.askFill cl (s.asidOf cl) (s.tenantOf cl) va 0
  else match (s.thread tid).run with
    | .ready | .active => (s.updThread tid fun t => { t with word := 0 }).parkFault tid c va 0 none
    | _ => s

/-- A gang member whose special-function operation is abandoned: the word is executed anew by it alone after the resumption, since the
other members have completed it (R214). -/
def Thread.abandoned (t : Thread) : Bool := t.run == .waiting && t.cont == .retry && t.aux.why == .none

/-- The tadpole's context words in TCM. -/
def ctxKey (core entry : Nat) : Nat := tcmKey core (0x7000 + 128 * entry)

/-- A tadpole is written into an entry of its core's run queue: its words there are unpoisoned (R408). -/
def State.freshCtx (s : State) (core entry : Nat) : State := { s with mem := s.mem.clearPoison (ctxKey core entry) 128 }

/-- A binding complete: the thread's identity word is written, its registers hold the segments (R23, R26, R43). A gang member that waits or
is parked goes on with that; its first instruction acquires (R343). -/
def State.bound (s : State) (tid core k : Nat) (gs : List Seg) : State :=
  let t := s.thread tid
  let on := match t.run with | .ready | .active => true | _ => false
  let s := match on, t.aux.firstAcq with | true, some sc => s.acquireAct (core / 8) sc | _, _ => s
  let s : State := { s with mem := s.mem.write (tcmKey core (8 * (248 + k))) (leBytes 8 (bindWord k t.ident).toNat) }
  let s := (s.seat tid core k 1).updThread tid fun t => { t with
    ctx := { t.ctx with psw := putField (pswClean t.ctx.psw) 41 3 k }, run := if on then .active else t.run,
    segs := segsOf gs,
    aux := { t.aux with
      boundAt := s.ctl.cycle - (s.die (core / 2048)).lostCycles + 16, firstAcq := if on then none else t.aux.firstAcq } }
  match t.cont with
  -- a fault was resolved while the pond was saved: the operation goes on now (R344)
  | .send r tk =>
    let s := s.updThread tid fun t => { t with cont := .send { r with cluster := core / 8 } tk }
    (s.leaveAs tid .waiting).goOn (.thread tid)
  -- an abandoned special-function operation of a gang member is reissued (R214)
  | _ => if t.abandoned then s.resumeNow tid else s

/-- A tadpole in a slot holds the segment registers that have been read for it. -/
def State.segsRead (s : State) (tid core k : Nat) (gs : List Seg) : State :=
  (s.seat tid core k (gs.length + 2)).updThread tid fun t => { t with segs := segsOf gs }

/-- A thread takes a slot of its core (R43): a poisoned context ends the thread (R408); the slot waits for lines of the segment table that
the cluster does not hold. -/
def State.bindSlot (s : State) (tid core k : Nat) : State :=
  let i := (s.thread tid).aux.entry
  if (s.mem.firstPoison (ctxKey core i) 128).isSome then
    (s.postRec (s.threadRec tid 0xA3 5 0 0 0)).exitThread tid
  else match s.loadSegs tid (s.segsHeld tid core k) 8 with
    | (gs, s, some (c, va)) => (s.segsRead tid core k gs).segsLater tid c va
    | (gs, s, none) => s.bound tid core k gs

/-- TADPOLE_BINDING (R43): the slot takes the head of the FIFO, or goes on with the tadpole that it has taken; with ev.c = 1 a line has
come, and the slot only reads from it. -/
def execTadpoleBinding (s : State) : Host.Outcome State Fault Refusal :=
  let core := s.ctl.ev.a
  let k := s.ctl.ev.b
  if s.ctl.ev.c = 1 then
    match (s.core core).slots.toList.getD k .empty with
    | .loading tid n =>
      if n = 1 then .next s
      else
        let (gs, s, _) := s.loadSegs tid (s.segsHeld tid core k) 8
        .next (s.segsRead tid core k gs)
    | _ => .next s
  else
  match (s.core core).slots.toList.getD k .empty, (s.core core).fifo with
  | .loading tid _, _ => .next (s.bindSlot tid core k)
  | _, [] => .fault .noSuchHappening
  | _, tid :: rest => .next ((s.updCore core fun c => { c with fifo := rest }).bindSlot tid core k)

/-- A bound thread joins the FIFO at its tail and gives up its slot (R43, R259). -/
def State.requeue (s : State) (tid : Nat) : State :=
  match s.threads.find tid with
  | some t => match t.run, t.slot with
    | .active, some _ =>
      ((s.updThread tid fun t => { t with run := .ready }).freeSlot tid).updCore t.core fun c => { c with fifo := c.fifo ++ [tid] }
    | _, _ => s
  | none => s

/-- QUANTUM_EXPIRY (R43). -/
def execQuantumExpiry (s : State) : Host.Outcome State Fault Refusal :=
  match (s.core s.ctl.ev.a).slots.toList.getD s.ctl.ev.b .empty with
  | .held tid => .next (s.requeue tid)
  | _ => .fault .noSuchHappening

end Sys2Proof.Machine
end

