-- ==== Sys2Proof/Machine/Threads.lean ====
section
/-! DEFINITION. Majors 0x24 and 0x25, AM.SEND and PROBE.START (R255 to R268), migration and gang formation (R257, R261,
R337, R338). -/

namespace Sys2Proof.Machine

/-! ## SPAWN (R256) -/

/-- Free run-queue entries of a core (R42). -/
def State.freeEntries (s : State) (core : Nat) : Nat := 32 - ((s.core core).entries.length + (s.core core).reserved)

/-- The core of a cluster with most free entries, the lowest number on a tie; none when all are taken. -/
def State.roomiest (s : State) (cl : Nat) : Option Nat :=
  (List.range 8).foldl (fun best i =>
    let c := 8 * cl + i
    match best with
    | some b => if s.freeEntries b < s.freeEntries c then some c else best
    | none => if 0 < s.freeEntries c then some c else none) none

/-- The next serial number of a spawning cluster and its counter afterwards (R473). -/
def State.nextTsn (s : State) (pond cl crewNum : Nat) : Nat × Nat :=
  let k := (s.cluster cl).spawnCtr
  let tsn (m : Nat) : Nat := 0x80000000 + 2 ^ 20 * crewNum + m % 2 ^ 20
  let live (m : Nat) : Bool := s.threads.any fun t => t.2.ident.pond == pond && t.2.ident.tsn.toNat == tsn m
  let m := (firstBelow (fun m => !live m) (s.threads.length + 1) k).getD k
  (tsn m, (m + 1) % 2 ^ 20)

/-- A tadpole written into a core's run queue, ready (R42). -/
def State.placeThread (s : State) (t : Thread) : State :=
  let tid := s.ctl.nextTid
  let s := s.updCtl fun c => { c with nextTid := tid + 1 }
  let s := (s.freshCtx t.core (s.freeEntry t.core)).setThread tid { t with run := .ready, aux := { t.aux with entry := s.freeEntry t.core } }
  s.updCore t.core fun c => { c with entries := c.entries ++ [tid], fifo := c.fifo ++ [tid] }

/-- SPAWN (R256). -/
def execSpawn (gd : Guard) (rd ra rb : Reg) (s : State) : Host.Outcome State Fault Refusal :=
  perform gd s do
    let a ← readReg ra
    let b ← readReg rb
    let s ← get
    if a.toNat % 4 ≠ 0 || a.toNat / 2 ^ 32 = 0xFFFFFFFF || pswLvl s.me.ctx.psw = 2 then throw (.trap 0x08 0)
    releaseM .cluster
    let cl := s.myCluster
    let mine := s.me.core
    let place := if 0 < s.freeEntries mine then some mine else s.roomiest cl
    match place, (s.cluster cl).crew with
    | some c, some crew => do
      let p := s.pond s.me.ident.pond
      let (tsn, ctr) := s.nextTsn s.me.ident.pond cl crew.number
      let t := Lr.thread crew.launch s.me.ident.pond (match p with | some x => x.id.toNat | none => 0) (s.servedTask s.ctl.acting) (a.toNat % 2 ^ 32)
        b (a.toNat / 2 ^ 32) 0xFFFF tsn c
      let s := s.updCluster cl fun k => { k with spawnCtr := ctr }
      let s := s.updPond s.me.ident.pond fun x => { x with live := x.live + 1 }
      set (s.placeThread { t with aux := { firstAcq := some .cluster } })
      leaveReply { rd := some rd } { value := BitVec.ofNat 64 c }
    | _, _ => leaveReply { rd := some rd } { value := BitVec.allOnes 64 }

/-! ## Migration (R257, R337, R338) -/

/-- The narrowest scope that covers two clusters. -/
def narrowest (a b : Nat) : Scope := if a = b then .cluster else if a / 256 = b / 256 then .die else .device

/-- The departure of a thread begins: an entry of the target cluster is reserved and the release is made; none without an
entry. -/
def State.startDepart (s : State) (tid target : Nat) : Option State :=
  match s.roomiest target with
  | none => none
  | some c =>
    let cl := (s.thread tid).core / 8
    let s := s.updCore c fun k => { k with reserved := k.reserved + 1 }
    let s := s.releaseAct cl (narrowest cl target) (.thread tid)
    some ((s.updThread tid fun t => { t with cont := .depart c }).later 1 .migrationDeparture tid 0 0)

/-- YIELD's effect (R259): the thread has its next word ahead and stands at the FIFO's tail. -/
def yieldM : M Unit := do
  let s ← get
  if decide (s.ctl.acting < 32768) || s.lockstep then pure ()
  else throw (.leave ((s.complete (s.me.ctx.pc + 4) true).requeue s.ctl.acting))

/-- YIELD (R259). -/
def execYield (gd : Guard) (s : State) : Host.Outcome State Fault Refusal := perform gd s yieldM

/-- MIGR (R257, R406): the word completes where the tadpole arrives. The threads of slots 0 and 1 are never displaced (R40): there it
raises 0x08 for another cluster. DESIGN CHOICE, unsafe: log 80. -/
def execMigr (gd : Guard) (ra : Reg) (s : State) : Host.Outcome State Fault Refusal :=
  perform gd s do
    let a ← readReg ra
    let s ← get
    let target := a.toNat % 2 ^ 11
    if !s.inPond s.me.ident.pond target || s.lockstep then throw (.trap 0x08 0)
    if s.ctl.acting < 32768 && target ≠ s.myCluster then throw (.trap 0x08 0)
    if target = s.myCluster || field s.me.ctx.trw.toNat 0 8 ≠ 0 then yieldM
    else
      let tid := s.ctl.acting
      let s := s.updMe fun t => { t with aux := { t.aux with migReq := none } }
      match s.startDepart tid target with
      | some s => throw (.leave (s.leaveAs tid .waiting))
      | none => throw (.leave (((s.leaveWith (.depart (16384 + target))).later 1024 .migrRetry tid 0 0)))

/-- MIGR_RETRY (R337): the thread asks again for an entry. -/
def execMigrRetry (s : State) : Host.Outcome State Fault Refusal :=
  let tid := s.ctl.ev.a
  match s.threads.find tid with
  | some t => match t.cont with
    | .depart c =>
      if 16384 ≤ c then
        match s.startDepart tid (c - 16384) with
        | some s => .next s
        | none => .next (s.later 1024 .migrRetry tid 0 0)
      else .next s
    | _ => .next s
  | none => .next s

/-- HARDWARE_MIGRATION (R31, R337): the request is taken when the access has completed, no job is outstanding, the thread is
in no gang and not in a handler; it is dropped when the target has no entry. Slots 0 and 1 are never displaced (R40): log 80. -/
def execHardwareMigration (s : State) : Host.Outcome State Fault Refusal :=
  let tid := s.ctl.ev.a
  match s.threads.find tid with
  | some t => match t.aux.migReq with
    | some target =>
      let free := match t.run, t.cont with | .active, _ => true | .ready, .none => true | _, _ => false
      if t.inGang || field t.ctx.trw.toNat 0 8 != 0 || decide (0 < s.entryJobs t.core t.aux.entry) || !free then
        .next (s.later 8 .hardwareMigration tid 0 0)
      else if target = t.core / 8 || decide (tid < 32768) then .next (s.updThread tid fun t => { t with aux := { t.aux with migReq := none } })
      else match s.startDepart tid target with
        | some s =>
          let s := s.updCore t.core fun c => { c with fifo := c.fifo.filter (· != tid) }
          .next (s.leaveAs tid .waiting)
        | none => .next (s.updThread tid fun t => { t with aux := { t.aux with migReq := none } })
    | none => .next s
  | none => .next s

/-- MIGRATION_DEPARTURE (R257, R338): when nothing is awaited any more the tadpole crosses the torus on VC2. A thread that
moves by a request of the hardware has `cont` none on its way, one that executed MIGR has `second`. -/
def execMigrationDeparture (s : State) : Host.Outcome State Fault Refusal :=
  let tid := s.ctl.ev.a
  match s.threads.find tid with
  | some t => match t.cont with
    | .depart c =>
      if decide (16384 ≤ c) || decide (0 < s.entryJobs t.core t.aux.entry) || decide (0 < t.aux.appends) || s.awaits (.thread tid) then .next s
      else
        let hw := t.aux.migReq.isSome
        let s := s.updThread tid fun t => { t with
          run := .moving, cont := if hw then .none else .second,
          ctx := { t.ctx with rmt := putField (putField t.ctx.rmt 0 16 0) 39 1 0 &&& 0xFFFFFFFFFF, psw := pswClean t.ctx.psw, trw := t.ctx.trw &&& 0x1FF },
          aux := { t.aux with migReq := none, mark := none } }
        let s := s.probeCount (t.core / 8) 1
        let i := s.ctl.nextMsg
        .next ((s.addMsg (.tadpole tid c)).inject (t.core / 8) (c / 8) 2 3 (tenantOfGtid t.ctx.gtid) i)
    | _ => .next s
  | none => .next s

/-- TADPOLE_ARRIVAL (R338): slot 1 writes the tadpole into the reserved entry, ready; the arrival acquires (R33). -/
def execTadpoleArrival (s : State) : Host.Outcome State Fault Refusal :=
  let i := s.ctl.ev.a
  match s.msgs.find i with
  | some (.tadpole tid c) =>
    let s := s.dropMsg i
    match s.threads.find tid with
    | some t =>
      let s := s.updCore t.core fun k => { k with entries := k.entries.filter (· != tid) }
      let e := s.freeEntry c
      let s := (s.freshCtx c e).updCore c fun k => { k with entries := k.entries ++ [tid], reserved := k.reserved - 1 }
      let s := s.probeReceive (c / 8)
      let s := s.acquireAct (c / 8) (narrowest (t.core / 8) (c / 8))
      let s := s.updThread tid fun t => { t with core := c, run := .waiting, slot := none, aux := { t.aux with entry := e } }
      match t.cont with
      | .second => .next (s.completeBy tid none (pure ()))
      | _ => .next (s.rejoin tid)
    | none => .next s
  | _ => .fault .noSuchHappening

/-! ## EXIT (R258) -/

/-- EXIT (R258). -/
def execExit (gd : Guard) (s : State) : Host.Outcome State Fault Refusal :=
  perform gd s do
    let s ← get
    let tid := s.ctl.acting
    if s.isSlot0 || s.lockstep then throw (.trap 0x08 0)
    if s.isSlot1 then
      if s.mustWait s.myCluster .device then
        throw (.leave ((s.releaseAct s.myCluster .device (.thread tid)).leaveWith .exit))
      else throw (.leave (s.handlerEnd tid))
    else throw (.leave (s.exitThread tid))

/-! ## LNCH (R260) -/

/-- The 64 bytes of the record through a checked segment. A segment of object space raises 0x24, as a load through it does (R140). DESIGN
CHOICE, unsafe: log 81. -/
def recordBytes (g : Seg) (e : Nat) : M (List Byte) :=
  match g.space with
  | .tcm => tcmLoad e 64 e
  | .scratch => spadLoad e 64 e
  | .global => do
    chkRange e
    let bs ← loadPiece g.tag e 64
    watchAccess e 64 2
    pure bs
  | .object => throw (.trap 0x24 (e % 2 ^ 57))

/-- LNCH (R260). -/
def execLnch (gd : Guard) (rd ra rb : Reg) (s : State) : Host.Outcome State Fault Refusal :=
  perform gd s do
    let a ← readReg ra
    let b ← readReg rb
    let g ← segReg 0
    let e ← chk g a.toNat 64 .r 64
    let bs ← recordBytes g e
    releaseM .device
    let s ← get
    let who := threadAsker s.ctl.acting
    let ten := s.agentTenant (.thread s.ctl.acting)
    let l := Lr.ofWords (wordsOf 8 bs)
    match s.entryAway who ten l with
    | some (asid, va) => throw (.wait false .fill fun s => s.askLine who asid ten va)
    | none => pure ()
    let (s', v) := s.submit who ten (b.toNat % 2 ^ 12) l
    set s'
    leaveReply { rd := some rd } { value := v }

/-! ## Gangs (R261, R262) -/

/-- The members of slot `k` on the aligned group of `n` cores that holds `core`. -/
def State.groupSlot (s : State) (core n k : Nat) : List (Option Nat) :=
  (List.range n).map fun i =>
    match (s.core (core / n * n + i)).slots.toList.getD k .empty with
    | .held u => some u
    | _ => none

/-- A thread that waits in a GANG of this size. -/
def State.formingIn (s : State) (n : Nat) (u : Nat) : Bool :=
  match (s.thread u).run with | .forming m => m == n | _ => false

/-- A thread that waits in a GANG of another size. -/
def State.formingElse (s : State) (n : Nat) (u : Nat) : Bool :=
  match (s.thread u).run with | .forming m => m != n | _ => false

/-- The gang is formed: every member goes on at the leader's next offset. A breakpoint is met by a member at the offset of its own
GANG (R412), whose trap disbands the gang. -/
def State.formGang (s : State) (us : List Nat) (n : Nat) : State :=
  match us with
  | [] => s
  | lead :: _ =>
    let npc := (s.thread lead).ctx.pc + 4
    let hits := us.filter fun u => s.breakpoint (s.thread u).ctx.gtid (s.thread u).ctx.pc.toNat
    let pc (u : Nat) : Nat := (s.thread u).ctx.pc.toNat
    let code := if n = 2 then 1 else if n = 4 then 2 else 3
    let s := us.foldl (fun s u => s.updThread u fun t => { t with
      run := .active, cont := .none,
      ctx := { t.ctx with pc := npc, psw := putField (putField t.ctx.psw 38 2 code) 40 1 (b2n (u == lead)) } }) s
    hits.foldl (fun s u => (s.countHit (s.thread u).ctx.gtid true).takeTrap u 0xA0 (pc u) npc.toNat 0 (s.thread u).word) s

/-- GANG.n (R261). -/
def gangForm (n : Nat) (gd : Guard) (s : State) : Host.Outcome State Fault Refusal :=
  perform gd s do
    let s ← get
    let tid := s.ctl.acting
    let k := s.me.slot.getD 0
    if pswLvl s.me.ctx.psw = 2 || s.lockstep || decide (k < 2) then throw (.trap 0x07 0)
    let us := s.groupSlot s.me.core n k
    if us.any fun u => match u with | some u => s.formingElse n u | none => false then throw (.trap 0x07 0)
    let s := s.updMe fun t => { t with run := .forming n, aux := { t.aux with waitAt := s.ctl.cycle } }
    let us := us.filterMap id
    if us.length = n && us.all fun u => s.formingIn n u && (s.thread u).ctx.gtid == s.me.ctx.gtid then
      throw (.leave (s.formGang us n))
    else throw (.leave (s.later 65536 .gangFormationTimeout tid s.ctl.cycle 0))

/-- GANG.2 (R261). -/
def execGang2 (gd : Guard) (s : State) : Host.Outcome State Fault Refusal := gangForm 2 gd s
/-- GANG.4 (R261). -/
def execGang4 (gd : Guard) (s : State) : Host.Outcome State Fault Refusal := gangForm 4 gd s
/-- GANG.8 (R261). -/
def execGang8 (gd : Guard) (s : State) : Host.Outcome State Fault Refusal := gangForm 8 gd s

/-- GANG_FORMATION_TIMEOUT (R261): every member that waits in this GANG traps at it. -/
def execGangFormationTimeout (s : State) : Host.Outcome State Fault Refusal :=
  let tid := s.ctl.ev.a
  match s.threads.find tid with
  | some t => match t.run with
    | .forming n =>
      if t.aux.waitAt = s.ctl.ev.b then
        let us := ((s.groupSlot t.core n (t.slot.getD 0)).filterMap id).filter (s.formingIn n)
        .next (us.foldl (fun s u => s.trapBy u 0x07 0) s)
      else .next s
    | _ => .next s
  | none => .next s

/-- UNGANG (R262): every member leaves the rotation (R41) and goes on after the word as an independent thread. Its own word and offset
count for each of them, since a breakpoint matches in every member (R413). -/
def execUngang (gd : Guard) (s : State) : Host.Outcome State Fault Refusal :=
  performJump gd s do
    let us := s.gangOf s.ctl.acting
    throw (.leave (us.foldl (fun x u =>
      let x := (x.updThread u fun t => { t with word := s.me.word, cont := .reply {}, ctx := { t.ctx with pc := s.me.ctx.pc } }).leaveAs u .waiting
      x.post 1 .replyArrival (.reply (.thread u) {})) (s.disband s.ctl.acting)))

/-! ## AM.SEND and PROBE.START (R265, R268) -/

/-- AM.SEND (R265): the answer of the target's slot 1 ends it. -/
def execAmSend (gd : Guard) (ra rb : Reg) (s : State) : Host.Outcome State Fault Refusal :=
  perform gd s do
    let a ← readReg ra
    let b ← readReg rb
    let n := field a.toNat 32 4
    if 8 < n then throw (.trap 0x08 0)
    let bs ← if n = 0 then pure [] else do
      let off ← tcmOperand b.toNat (8 * n) .r 8
      tcmLoad off (8 * n) off
    let s ← get
    let who : Agent := .thread s.ctl.acting
    let h := putField (putField a 24 8 (s.agentTenant who)) 36 2 0
    throw (.leave ((s.sendNet
      { header := h, payload := wordsOf n bs, sender := who, asid := s.asidOf s.myCluster, gtid := s.servedTask s.ctl.acting,
        srcCore := s.me.core, asked := true }).leaveWith (.reply {})))

/-- PROBE.START (R268): the counter's home checks its type and the start is entered there. -/
def execProbeStart (gd : Guard) (ra : Reg) (s : State) : Host.Outcome State Fault Refusal :=
  perform gd s do
    let a ← readReg ra
    let o ← chkObj a.toNat 16
    let tr ← translate o .object
    sendAsked tr o (.probeType a.toNat) .device true { watch := [(o, 16, 3)] }

end Sys2Proof.Machine
end

