-- ==== Sys2Proof/Machine/System.lean ====
section
/-! DEFINITION. Majors 0x30 and 0x31 (R280, R281, R402 to R416): system registers, TRAP, ERET, BRK, WATCH and the marks; the
rows of a word that cannot be decoded or fetched. -/

namespace Sys2Proof.Machine

/-! ## System registers (R280) -/

/-- The roles of R280. -/
inductive Role where
  | task | handler | system
  deriving DecidableEq, Repr

/-- The role of a thread: slot 1 in an active-message handler has the rights of a task. -/
def State.role (s : State) (tid : Nat) : Role :=
  let t := s.thread tid
  if tid < 32768 then (if tid % 2 = 1 && (s.core t.core).net.running.isSome then .task else .system)
  else if pswLvl t.ctx.psw = 1 then .handler else .task

/-- A role may read a register. -/
def sysReadable (n : SysReg) (r : Role) : Bool :=
  match n, r with
  | .tscr, .task => false
  | _, _ => true

/-- A role may write a register. -/
def sysWritable (n : SysReg) (r : Role) : Bool :=
  match n, r with
  | .status, _ | .trapvec, _ | .migthr, _ | .nfl, _ => true
  | .cause, .handler | .cause, .system | .epc, .handler | .epc, .system | .eaddr, .handler | .eaddr, .system => true
  | .tscr, .handler | .tscr, .system => true
  | _, _ => false

/-- The value of a register for the acting thread. -/
def State.sysRead (s : State) (n : SysReg) : Word :=
  let t := s.me
  let c := s.cluster s.myCluster
  match n with
  | .status => t.ctx.psw
  | .cause => t.trap.cause.setWidth 64
  | .epc => t.trap.epc.setWidth 64
  | .eword => t.trap.eword.setWidth 64
  | .eaddr => t.trap.eaddr.setWidth 64
  | .task => (s.gtidOf s.ctl.acting).setWidth 64
  | .trapvec => c.regs.trapvec.setWidth 64
  | .tscr => t.trap.tscr
  | .tnd => BitVec.ofNat 64 (field t.ctx.trw.toNat 0 8)
  | .migthr => c.regs.migthr.setWidth 64
  | .agelim => BitVec.ofNat 64 c.router.agelim
  | .choruscfg => s.dev.chorus.cfg
  | .nfl => c.regs.nfl
  | .rtb => c.regs.rtb.setWidth 64
  | .cycle => BitVec.ofNat 64 (s.coreCycle t.core)

/-- The pond of a thread: that of the crew of its cluster for slots 0 and 1. -/
def State.pondOf (s : State) (tid : Nat) : Nat :=
  if tid < 32768 then (match (s.cluster (tid / 16)).crew with | some c => c.pond | none => 0) else (s.thread tid).ident.pond

/-- TRAPVEC written in every crew of a pond (R280). -/
def State.setTrapvec (s : State) (pond : Nat) (v : BitVec 32) : State :=
  match s.pond pond with
  | some p => p.clusters.foldl (fun s c => s.updCluster c fun k => { k with regs := { k.regs with trapvec := v } }) s
  | none => s

/-- What NFL stores of a value (R280). -/
def nflStored (v : Word) : Word := if v = BitVec.allOnes 64 then v else v &&& 0x01FFFFFFFFFFFFFF

/-- An N.ALLOC of the cluster is in flight (R271). -/
def State.allocating (s : State) (cl : Nat) : Bool :=
  (s.threads.any fun x => x.1 != s.ctl.acting && x.2.core / 8 == cl && x.2.run == .waiting && x.2.aux.why == .walk && x.2.cont == .retry &&
    x.2.word.toNat / 2 ^ 26 == 0x28 && x.2.word.toNat % 2 ^ 9 == 0) ||
  s.msgs.any fun m => match m.2 with
    | .home r => r.cluster == cl && !r.who.isFar && (match r.op with | .nAlloc _ _ => true | _ => false)
    | _ => false

/-- The acting thread's N.ALLOC or SWR of NFL comes next: none is in flight, and it is no newcomer where others wait (R271). -/
def State.mayAlloc (s : State) (cl : Nat) : Bool := !s.allocating cl && (s.ctl.retry || (s.poolWaiters cl).isEmpty)

/-- SRD (R280). -/
def execSrd (gd : Guard) (x : Reg) (n : SysReg) (s : State) : Host.Outcome State Fault Refusal :=
  perform gd s do
    let s ← get
    if !sysReadable n (s.role s.ctl.acting) then throw (.trap 0x05 0)
    writeReg x (s.sysRead n)

/-- SWR (R16, R280). -/
def execSwr (gd : Guard) (x : Reg) (n : SysReg) (s : State) : Host.Outcome State Fault Refusal :=
  perform gd s do
    let s ← get
    if !sysWritable n (s.role s.ctl.acting) then throw (.trap 0x05 0)
    let v ← readReg x
    let cl := s.myCluster
    match n with
    | .status => modify fun s => s.updMe fun t => { t with ctx := { t.ctx with psw := pswWrite t.ctx.psw v } }
    | .cause => modify fun s => s.updMe fun t => { t with trap := { t.trap with cause := v.setWidth 8 } }
    | .epc => modify fun s => s.updMe fun t => { t with trap := { t.trap with epc := v.setWidth 32 } }
    | .eaddr => modify fun s => s.updMe fun t => { t with trap := { t.trap with eaddr := v.setWidth 57 } }
    | .tscr => modify fun s => s.updMe fun t => { t with trap := { t.trap with tscr := v } }
    | .migthr => modify fun s => s.updCluster cl fun c => { c with regs := { c.regs with migthr := v.setWidth 16 } }
    | .nfl => do
      if !s.mayAlloc cl then throw (.wait false .pool id)
      modify fun s => s.updCluster cl fun c => { c with regs := { c.regs with nfl := nflStored v } }
    | .trapvec => do
      modify fun s => s.setTrapvec (s.pondOf s.ctl.acting) (v.setWidth 32)
      leaveReply {} {}
    | .eword | .task | .tnd | .agelim | .choruscfg | .rtb | .cycle => pure ()

/-! ## Traps (R281, R404) -/

/-- TRAP (R281): cause 0x06 after the effect. -/
def execTrap (gd : Guard) (n : BitVec 8) (s : State) : Host.Outcome State Fault Refusal :=
  perform gd s (raiseAfter 0x06 n.toNat)

/-- BRK (R281): cause 0xA0 after the effect. -/
def execBrk (gd : Guard) (s : State) : Host.Outcome State Fault Refusal :=
  perform gd s (raiseAfter 0xA0 0)

/-- ERET (R404). -/
def execEret (gd : Guard) (s : State) : Host.Outcome State Fault Refusal :=
  performTo gd s do
    let s ← get
    if field s.me.ctx.trw.toNat 0 8 = 0 then throw (.trap 0x05 0)
    let t := s.me.trapReturn
    set (s.updMe fun _ => { t with ctx := { t.ctx with pc := s.me.ctx.pc } })
    pure t.ctx.pc

/-! ## WATCH and the marks (R411, R416, R418) -/

/-- The watchpoint word that WATCH writes. -/
def watchWord (a b : Word) : Word :=
  let sz := field a.toNat 4 4
  BitVec.ofNat 64 (sz * 2 ^ 60 + field a.toNat 2 2 * 2 ^ 58 + field b.toNat 0 57 / 2 ^ sz * 2 ^ sz)

/-- WATCH (R411). -/
def execWatch (gd : Guard) (ra rb : Reg) (s : State) : Host.Outcome State Fault Refusal :=
  perform gd s do
    let a ← readReg ra
    let b ← readReg rb
    let s ← get
    match s.debugEntry (s.servedTask s.ctl.acting) with
    | none => throw (.trap 0x08 0)
    | some (i, e) => do
      set (s.updDev fun d => { d with dbg := d.dbg.set i (e.setIfInBounds (3 + a.toNat % 4) (watchWord a b)) })
      leaveReply {} {}

/-- CHORUS.MARK (R416). -/
def execChorusMark (gd : Guard) (ra : Reg) (s : State) : Host.Outcome State Fault Refusal :=
  perform gd s do
    let a ← readReg ra
    modify fun s => s.updMe fun t => { t with aux := { t.aux with mark := some (a.setWidth 32, s.ctl.cycle) } }

/-- TRACE.MARK (R418). -/
def execTraceMark (gd : Guard) (ra : Reg) (s : State) : Host.Outcome State Fault Refusal :=
  perform gd s do
    let a ← readReg ra
    modify fun s => s.traceRec s.myCluster 0
      [BitVec.ofNat 64 ((s.gtidOf s.ctl.acting).toNat * 2 ^ 32 + s.me.ctx.pc.toNat), a]

/-! ## Words that cannot run -/

/-- The cause of an illegal word for a thread: a word of FMA in rational mode is unassigned before its fields are checked (R215). -/
def illegalCause (c : Nat) (w : BitVec 32) (psw : Word) : Nat := if isFma w.toNat && pswRq psw then 0x02 else c

/-- ILLEGAL_WORD (R80): the cause is raised precisely in the thread, or in every member of its gang (R37), each with its own RQ. -/
def execIllegalWord (s : State) : Host.Outcome State Fault Refusal :=
  let c := s.ctl.ev.a
  let who := if s.ctl.lock.isEmpty then [s.ctl.acting] else s.ctl.lock
  let w := s.me.word
  .next (who.foldl (fun s u => (s.updThread u fun t => { t with word := w }).trapBy u (illegalCause c w (s.thread u).ctx.psw) 0) s)

/-- FETCH_TRAP (R17, R402): EPC is the PC and EADDR the address that was checked. -/
def execFetchTrap (s : State) : Host.Outcome State Fault Refusal :=
  let t := s.me
  .next (s.trapBy s.ctl.acting s.ctl.ev.a ((t.segs[1].base.toNat + t.ctx.pc.toNat) % 2 ^ 57))

end Sys2Proof.Machine
end

