-- ==== Sys2Proof/Machine/Nets.lean ====
section
/-! DEFINITION. Major 0x28 (R269 to R279): what the issuing thread checks and sends. What the homes do is in NetHomes. -/

namespace Sys2Proof.Machine

/-- A node operand: an s4 offset with its port bits cleared passes the checks of R270, aligned as a granule is: the second granule of a
node gets as far as its home and raises 0x41 there. The address of the port's node. -/
def chkNode (a : Nat) : M Nat := do
  let g ← segReg 4
  let e ← chk g (a / 4 * 4) 32 .o 16
  if g.space ≠ .object then throw (.trap 0x24 (e % 2 ^ 57))
  chkRange e
  pure e

/-- A net form that R31 counts with its first node: the checks, then the request; `port` when it touches the port that its
offset names. -/
def netForm (gd : Guard) (ra : Reg) (rel port : Bool) (t : Take) (op : Word → M HomeOp) (s : State) :
    Host.Outcome State Fault Refusal :=
  perform gd s do
    let a ← readReg ra
    let e ← chkNode a.toNat
    let op ← op a
    let tr ← translate (if port then e + 8 * (a.toNat % 4) else e) .object
    chkTx t.rd
    rmtUpdate (tr.phys e)
    sendAsked tr e op .device rel { t with watch := [(e, 32, 3)] }

/-- N.ALLOC (R271): the allocations of a cluster are applied one at a time, in issue order. It does not count in RMT, since its operand
names no node: DESIGN CHOICE, unsafe, log 69. -/
def execNAlloc (gd : Guard) (rd ra : Reg) (s : State) : Host.Outcome State Fault Refusal :=
  perform gd s do
    let a ← readReg ra
    let s ← get
    let cl := s.myCluster
    if a.toNat / 2 ^ 10 ≠ 0 || bit a.toNat 7 then throw (.trap 0x08 0)
    if !s.mayAlloc cl then throw (.wait false .pool id)
    let head := (s.cluster cl).regs.nfl
    if head = BitVec.allOnes 64 then leaveReply { rd := some rd } { value := BitVec.allOnes 64 }
    else do
      let e ← chkNode head.toNat
      let tr ← translate e .object
      sendAsked tr e (.nAlloc (field a.toNat 0 7) (field a.toNat 8 2)) .device false { rd := some rd, watch := [(e, 32, 3)] }

/-- Nodes of other devices that are on their way into a cluster's limbo list. -/
def State.limboAhead (s : State) (cl : Nat) : Nat :=
  let far (r : HomeReq) : Bool := r.op == .nFree && r.cluster == cl && !r.who.isFar && !s.isLocal r.pa
  (s.msgs.filter fun m => match m.2 with | .home r => far r | _ => false).length +
    (s.threads.filter fun t => match t.2.cont with | .send r _ => far r | _ => false).length

/-- A cluster's limbo list has no room (R271). -/
def State.limboFull (s : State) (cl : Nat) : Bool := decide (65536 ≤ (s.cluster cl).pool.limbo.length + s.limboAhead cl)

/-- N.FREE (R271). The home of a node on another device does not know this cluster's limbo list, so that its room is checked here and kept
until the answer; the cause names no address (R402). -/
def execNFree (gd : Guard) (ra : Reg) (s : State) : Host.Outcome State Fault Refusal :=
  netForm gd ra true false {} (fun a => do
    let e ← chkNode a.toNat
    let tr ← translate e .object
    let s ← get
    if !s.isLocal (tr.phys e) && s.limboFull s.myCluster then throw (.trap 0x4A 0)
    pure .nFree) s

/-- N.LINK (R271, R273): when port a is a data port, b is a value that no check meets; the home of a's node tells. -/
def execNLink (gd : Guard) (ra rb : Reg) (s : State) : Host.Outcome State Fault Refusal :=
  netForm gd ra true true {} (fun a => do let b ← readReg rb; pure (.nLink 0 a.toNat b.toNat)) s

/-- N.RELINK (R272). -/
def execNRelink (gd : Guard) (rd ra rb : Reg) (s : State) : Host.Outcome State Fault Refusal :=
  netForm gd ra true true { rd := some rd }
    (fun a => do
      let b ← readReg rb
      let _ ← chkNode b.toNat
      pure (.nRelink 0 a.toNat b.toNat 0 0)) s

/-- N.READ (R271). -/
def execNRead (gd : Guard) (rd ra : Reg) (s : State) : Host.Outcome State Fault Refusal :=
  perform gd s do
    let a ← readReg ra
    let e ← chkNode a.toNat
    let tr ← translate (e + 8 * (a.toNat % 4)) .object
    chkTx (some rd)
    rmtUpdate (tr.phys e)
    sendAsked tr e (.nRead (a.toNat % 4)) .device false { rd := some rd, acq := some .device, watch := [(e, 32, 3)] }

/-- PAIR.PUSH (R271, R275): the lower-addressed node's home decides the pool. -/
def execPairPush (gd : Guard) (ra rb : Reg) (s : State) : Host.Outcome State Fault Refusal :=
  perform gd s do
    let a ← readReg ra
    let b ← readReg rb
    let u ← chkNode a.toNat
    let v ← chkNode b.toNat
    let ea ← translate u .object
    let e ← translate (min u v) .object
    rmtUpdate (ea.phys u)
    sendAsked e (min u v) (.pairPush a.toNat b.toNat) .device true { watch := [(u, 32, 3), (v, 32, 3)] }

/-- A waiting push takes the room that a pop made (R275). -/
def State.poolRoom (s : State) (cl : Nat) : State :=
  let p := (s.cluster cl).pool
  match p.waiting with
  | (u, v, who) :: rest =>
    let s := s.updCluster cl fun c => { c with pool := { p with pairs := p.pairs ++ [(u, v)], waiting := rest } }
    match who with
    | .nobody => s
    | _ => s.replyNow who {}
  | [] => s

/-- PAIR.POP (R276). -/
def execPairPop (gd : Guard) (rd : Reg) (s : State) : Host.Outcome State Fault Refusal :=
  perform gd s do
    chkTx (some rd)
    let s ← get
    let cl := s.myCluster
    let s := s.retirePair s.ctl.acting
    let p := (s.cluster cl).pool
    match p.pairs with
    | [] => do
      set s
      leaveReply { rd := some rd, acq := some .device } { value := BitVec.allOnes 64 }
    | (u, v) :: rest => do
      let s := s.updCluster cl fun c => { c with pool := { p with pairs := rest, busy := p.busy + 1 } }
      let s := s.updMe fun t => { t with aux := { t.aux with popped := some cl } }
      set (s.poolRoom cl)
      leaveReply { rd := some rd, acq := some .device } { value := BitVec.ofNat 64 (u % 2 ^ 32 + v % 2 ^ 32 * 2 ^ 32) }

/-- RULE.LD (R278). -/
def execRuleLd (gd : Guard) (ra : Reg) (s : State) : Host.Outcome State Fault Refusal :=
  perform gd s do
    let a ← readReg ra
    let g ← segReg 0
    let _ ← chk g a.toNat 65536 .r 64
    modify fun s => s.updCluster s.myCluster fun c => { c with regs := { c.regs with rtb := a.setWidth 57 } }
    leaveReply {} {}

/-- RULE.GO (R279): the headers of both nodes are read at their homes; the answer decides the handler. Its ra names a pair, of which R31
counts one node: the first. DESIGN CHOICE, unsafe: log 69. -/
def execRuleGo (gd : Guard) (ra : Reg) (s : State) : Host.Outcome State Fault Refusal :=
  perform gd s do
    let a ← readReg ra
    let u := 32 * field a.toNat 0 32
    let v := 32 * field a.toNat 32 32
    let e ← chkNode u
    let f ← chkNode v
    let tr ← translate e .object
    rmtUpdate (tr.phys e)
    sendAsked tr e (.ruleGo 0 u v 0) .device false { pair := some a, acq := some .device, watch := [(e, 32, 3), (f, 32, 3)] }

end Sys2Proof.Machine
end

