-- ==== Sys2Proof/Machine/SaveArea.lean ====
section
/-! DEFINITION. The save area of a pre-empted pond (R341, R406) and the completions that reach a saved pond (R342). -/

namespace Sys2Proof.Machine

/-! ## Images -/

/-- The 128 bytes of a tadpole (R29). -/
def Ctx.bytes (c : Ctx) : List Byte :=
  bytesOf c.g.toList ++ leBytes 8 c.psw.toNat ++ leBytes 4 c.pc.toNat ++ leBytes 4 c.gtid.toNat ++ c.sel.toList ++
    leBytes 8 c.srg.toNat ++ leBytes 8 c.rmt.toNat ++ leBytes 8 c.trw.toNat

/-- A tadpole from its 128 bytes; reserved bits read zero (R30). -/
def Ctx.ofBytes (bs : List Byte) : Ctx :=
  let w (i : Nat) : Word := BitVec.ofNat 64 (leNat ((bs.drop (8 * i)).take 8))
  let b (i : Nat) : Byte := bs.getD (96 + i) 0
  { g := #v[w 0, w 1, w 2, w 3, w 4, w 5, w 6, w 7, w 8, w 9], psw := pswClean (w 10), pc := (w 11).setWidth 32, gtid := (w 11 >>> 32).setWidth 32,
    sel := #v[b 0, b 1, b 2, b 3, b 4, b 5, b 6, b 7], srg := w 13, rmt := w 14 &&& 0x000000FFFFFFFFFF, trw := w 15 &&& 0x1FF }

/-- The 64 bytes of a tadpole's trap state and identity (R406). -/
def Thread.trapBytes (t : Thread) : List Byte :=
  bytesOf [t.trap.cause.setWidth 64, BitVec.ofNat 64 (t.trap.epc.toNat + t.trap.eword.toNat * 2 ^ 32), t.trap.eaddr.setWidth 64,
    t.trap.tscr, BitVec.ofNat 64 (t.ident.crewRank.toNat + t.ident.pondRank.toNat * 2 ^ 32), t.ident.tsn.setWidth 64, 0, 0]

/-- Trap state from its 64 bytes. -/
def TrapRegs.ofBytes (bs : List Byte) : TrapRegs :=
  let w (i : Nat) : Nat := leNat ((bs.drop (8 * i)).take 8)
  { cause := BitVec.ofNat 8 (w 0), epc := BitVec.ofNat 32 (w 1), eword := BitVec.ofNat 32 (w 1 / 2 ^ 32), eaddr := BitVec.ofNat 57 (w 2),
    tscr := BitVec.ofNat 64 (w 3) }

/-- Identity from the same bytes, in pond placement `pond`. -/
def Ident.ofBytes (pond : Nat) (bs : List Byte) : Ident :=
  let w (i : Nat) : Nat := leNat ((bs.drop (8 * i)).take 8)
  ⟨pond, BitVec.ofNat 32 (w 4 / 2 ^ 32), BitVec.ofNat 16 (w 4), BitVec.ofNat 32 (w 5)⟩

/-! ## Places -/

/-- The save area of a saved pond. -/
def Pond.area (p : Pond) : Option Nat := match p.state with | .saved a | .resuming _ _ a => some a | _ => none

/-- The key at which a crew block begins (R341); a save area is HBM of this device: log 25. -/
def State.blockKey (s : State) (p : Pond) (area n : Nat) : Nat := s.key (area + n * blockSize (Lr.spad p.launch))

/-- The state-table entry of a block. -/
def State.tableAt (s : State) (b i : Nat) : Nat := leNat (s.mem.read (b + 0x200 + 2 * i) 2)

/-- A state-table entry (R341): the gang's slot, the state, the FIFO position, the core. -/
def tableEntry (gang st pos core : Nat) : Nat := gang % 8 * 2 ^ 11 + st % 8 * 2 ^ 8 + pos % 32 * 8 + core % 8

/-- Bytes put at a key, unpoisoned. -/
def State.putBytes (s : State) (k : Nat) (bs : List Byte) : State := { s with mem := (s.mem.write k bs).clearPoison k bs.length }

/-- A tadpole and its trap state written into entry `i` of a block; poison of its words stays (R408). -/
def State.saveTadpole (s : State) (p : Pond) (b i : Nat) (t : Thread) : State :=
  { s with mem := (s.mem.write (b + 0x400 + 128 * i) t.ctx.bytes).write (b + 0x62400 + Lr.spad p.launch + 64 * i) t.trapBytes }

/-- The poison of a range of words carried to another. -/
def Memory.copyPoison (m : Memory) (src dst n : Nat) : Memory :=
  (m.poison.filter fun p => decide (src ≤ 8 * p) && decide (8 * p < src + n)).foldl (fun x p => x.setPoison (8 * p - src + dst) true)
    (m.clearPoison dst n)

/-- The FIFO position after the highest of a core's ready entries in a block (R342). -/
def State.nextPos (s : State) (b core : Nat) : Nat :=
  (List.range 256).foldl (fun n i =>
    let e := s.tableAt b i
    if e / 256 % 8 = 1 && e % 8 = core then max n (e / 8 % 32 + 1) else n) 0

/-! ## Completions that reach a saved pond (R342) -/

/-- The block and the entry of a saved thread. -/
def State.savedPlace (s : State) (tid : Nat) : Option (Pond × Nat × Nat) :=
  let t := s.thread tid
  match s.pond t.ident.pond with
  | some p => p.area.map fun a => (p, s.blockKey p a (t.aux.savedAt / 256), t.aux.savedAt % 256)
  | none => none

/-- The state code of a thread in the state table. -/
def Thread.stateCode (t : Thread) : Nat :=
  match t.run with
  | .parked => 2
  | .faulted => 3
  | _ => if t.inGang then 4 else 1

/-- The image of a saved thread and its table entry written anew (R342): ready, at the position past its core's highest, when `ready`. A
gang member keeps its slot's number. -/
def State.savedSync (s : State) (tid : Nat) (ready : Bool) : State :=
  match s.savedPlace tid with
  | some (p, b, i) =>
    let t := s.thread tid
    let old := s.tableAt b i
    let pos := if ready && !t.inGang then s.nextPos b (i % 8) else old / 8 % 32
    (s.saveTadpole p b i t).putBytes (b + 0x200 + 2 * i) (leBytes 2 (tableEntry (old / 2 ^ 11) t.stateCode pos (old % 8)))
  | none => s

/-- A saved thread becomes ready. -/
def State.savedReady (s : State) (tid : Nat) : State :=
  (s.updThread tid fun t => { t with run := .ready, cont := .none }).savedSync tid true

end Sys2Proof.Machine
end

