-- ==== Sys2Proof/Machine/Homes.lean ====
section
/-! DEFINITION. The eft of a home slice (R168 to R195, R318 to R321): types and images, waiters and chains, counters,
barriers, locks, conditions and bounded queues. -/

namespace Sys2Proof.Machine

/-- The word at a key as the home holds it. -/
def State.word (s : State) (a : Nat) : Nat := leNat (s.mem.read a 8)
/-- The word at a key written; a page that moves copies it again (R298, R401). -/
def State.putWord (s : State) (a v : Nat) : State := ({ s with mem := s.mem.write a (leBytes 8 v) } : State).moveDirty a
/-- A number with a field replaced. -/
def putNat (w lo n v : Nat) : Nat := w - field w lo n * 2 ^ lo + v % 2 ^ n * 2 ^ lo
/-- A field of the word at a key written. -/
def State.putAt (s : State) (a lo n v : Nat) : State := s.putWord a (putNat (s.word a) lo n v)

/-! ## Objects -/

/-- What a home keeps for the object at a key. -/
def State.obj (s : State) (k : Nat) : ObjState := (s.slice (sliceOf k)).objs.get {} k
/-- Its update. -/
def State.updObj (s : State) (k : Nat) (f : ObjState → ObjState) : State :=
  s.updSlice (sliceOf k) fun x => { x with objs := x.objs.set k (f (x.objs.get {} k)) }
/-- The counters of the slice of a key. -/
def State.updCtr (s : State) (k : Nat) (f : SliceCounters → SliceCounters) : State :=
  s.updSlice (sliceOf k) fun x => { x with ctr := f x.ctr }

/-- The object at a key has this type and the key names its first granule (R169). -/
def State.isType (s : State) (k ty : Nat) : Bool := (s.mem.tag k).ty == ty && (s.mem.tag k).first

/-- Bytes that an operation of an agent of this device has written at a home are superseded in its cluster's L1 (R292, R295); dirty
bytes there are on their way home first, where a typed granule discards them (R146). -/
def State.ownOp (s : State) (r : HomeReq) (va n : Nat) : State :=
  match r.who with
  | .thread _ | .job _ =>
    let held := (s.cluster r.cluster).l1.any fun l => l.asid == r.asid && l.va == va / 128 && (l.dirty &&& byteMask (va % 128) n) != 0
    let s := if held then s.writeBackLines r.cluster (fun l => l.asid == r.asid && l.va == va / 128) .nobody [] else s
    s.ownWrite r.cluster r.asid va n
  | _ => s

/-- An answer to a request. -/
def State.tell (s : State) (k : Nat) (r : HomeReq) (p : Reply) : State :=
  (s.ownOp r r.va 32).answer (sliceOf k) r.who { p with addr := r.va } false
/-- A refusal with a cause. -/
def State.refuse (s : State) (k : Nat) (r : HomeReq) (c : Nat) : State := s.tell k r { cause := c }
/-- A wake (R184). -/
def State.wake (s : State) (k : Nat) (w : Waiter) (p : Reply) : State :=
  (s.ownOp w.req w.req.va 32).answer (sliceOf k) w.req.who { p with addr := w.req.va } true

/-! ## Waiters (R183, R319) -/

/-- The inline-waiter limit of an object (R171). -/
def State.limit (s : State) (k : Nat) : Nat :=
  let l := field (s.word (k + 8)) 60 4
  if l = 0 then (s.die (sliceOf k / 256)).cfg.lim else l

/-- Records in the waiter store of a slice. -/
def State.storeUse (s : State) (k : Nat) : Nat :=
  (((s.slice (sliceOf k)).objs.map fun o => (o.2.waiters.filter (·.inl)).length)).sum

/-- A waiter record would go inline (R183). -/
def State.goesInline (s : State) (k : Nat) : Bool :=
  !bit (s.word (k + 8)) 59 && decide (field (s.word (k + 8)) 54 5 < s.limit k) && decide (s.storeUse k < 2048)

/-- The records that parking needs have room in the overflow area (R319). -/
def State.canPark (s : State) (k : Nat) (payload : Bool) : Bool :=
  decide ((s.slice (sliceOf k)).overflow + b2n payload + b2n (!s.goesInline k) ≤
    (s.die (sliceOf k / 256)).cfg.overflow / 128)

/-- The requester parks at the object; the room has been checked. -/
def State.park (s : State) (k : Nat) (r : HomeReq) (tag : Nat) (payload : Bool) : State :=
  let inl := s.goesInline k
  let s := s.updSlice (sliceOf k) fun x => { x with
    overflow := x.overflow + b2n payload + b2n (!inl),
    ctr := if inl then x.ctr else { x.ctr with chained := sat32 x.ctr.chained } }
  let s := if inl then s.putAt (k + 8) 54 5 (field (s.word (k + 8)) 54 5 + 1) else s.putAt (k + 8) 59 1 1
  let s := s.updObj k fun o => { o with waiters := o.waiters ++ [⟨r, tag, inl, payload⟩] }
  match r.who with
  | .thread tid => if (s.threads.find tid).isSome then (s.updThread tid fun t => { t with run := .parked }).setWriteRight tid r.op false else s
  | _ => s

/-- A request that has to wait, or cause 0x48. -/
def State.parkOr (s : State) (k : Nat) (r : HomeReq) (tag : Nat) (payload : Bool) : State :=
  if s.canPark k payload then s.park k r tag payload else s.refuse k r 0x48

/-- The chain of an object is to be read (R319). -/
def State.readChain (s : State) (k : Nat) : State :=
  if s.scheduled .overflowChainRead k then s else s.later s.ctl.lat.hbm .overflowChainRead k 0 0

/-- The record at a place of the object's list is removed; with the chain not empty a head moves inline later, and the
object is busy until then. -/
def State.unpark (s : State) (k i : Nat) : State :=
  match (s.obj k).waiters[i]? with
  | none => s
  | some w =>
    let s := s.updObj k fun o => { o with waiters := o.waiters.eraseIdx i }
    let s := s.updSlice (sliceOf k) fun x => { x with overflow := x.overflow - b2n w.payload - b2n (!w.inl) }
    let s := if w.inl then s.putAt (k + 8) 54 5 (field (s.word (k + 8)) 54 5 - 1) else s
    let s := if (s.obj k).waiters.any (!·.inl) then s else s.putAt (k + 8) 59 1 0
    if bit (s.word (k + 8)) 59 && s.mem.tag k != { ty := 2, first := true } then
      (s.updObj k fun o => { o with reading := true }).readChain k
    else s

/-- Every waiter for which `f` gives an answer is woken with it, in arrival order (R184). -/
def State.wakeAll (s : State) (k : Nat) (f : Waiter → Option Reply) : Nat → Nat → State
  | 0, _ => s
  | n + 1, i =>
    match (s.obj k).waiters[i]? with
    | none => s
    | some w => match f w with
      | some p => ((s.unpark k i).wake k w p).wakeAll k f n i
      | none => s.wakeAll k f n (i + 1)

/-- The same over the whole list. -/
def State.wakeEach (s : State) (k : Nat) (f : Waiter → Option Reply) : State := s.wakeAll k f (s.obj k).waiters.length 0

/-! ## Requests from one home to another -/

/-- The physical address of an address in a request's space, with an object operation's rights (R391), and its key
index. Cause 0 comes with the address of an entry of the table that must be waited for. -/
def State.homeWalk (s : State) (r : HomeReq) (va : Nat) : Except (Nat × Nat) (Nat × Nat) :=
  match s.walk r.asid r.tenant va .object with
  | .ok e => .ok (e.phys va, e.key)
  | .error x => .error x

/-- A request that an eft sends to the home of another object (R194). -/
def State.eftSend (s : State) (k : Nat) (r : HomeReq) : State :=
  let die := sliceOf (localOf r.pa) / 256
  if s.isLocal r.pa then
    let i := s.ctl.nextMsg
    let s := s.addMsg (.home r)
    if die = sliceOf k / 256 then s.arrive i else s.viaRouters r.tenant i [sliceOf k / 256, die] 0
  else s.toFabric (sliceOf k / 256) (64 * r.cluster) (devOf r.pa) r.tenant 0 true r.op.fabricOp r.pa
    (BitVec.ofNat 64 (r.op.fn6 % 64 + r.op.fn6 / 64 * 2 ^ 9 + r.scope.code * 2 ^ 6)) (bytesOf r.words) (.home r)

/-! ## OBJ.INIT, OBJ.FREE, OBJ.READ (R185 to R187) -/

/-- The reserved bits of an image are zero and it meets its type's condition (R185). -/
def validImage (ty : Nat) (ws : List Word) : Bool :=
  let w (i : Nat) : Nat := (wordAt ws i).toNat
  let ctl := field (w 1) 48 12 == 0
  match ty with
  | 1 => ctl && field (w 1) 0 48 == 0
  | 2 => ctl && field (w 1) 0 48 == 0 && decide (1 ≤ field (w 0) 24 24) && decide (field (w 0) 0 24 < field (w 0) 24 24)
  | 3 => ctl && field (w 1) 0 48 == 0 && field (w 0) 32 32 == field (w 0) 0 32
  | 4 => ctl && field (w 1) 0 34 == 0 && field (w 2) 57 7 == 0 && w 3 == 0 &&
      decide ((field (w 0) 32 32 + 2 ^ 32 - field (w 0) 0 32) % 2 ^ 32 ≤ field (w 1) 34 12 + 1) &&
      field (w 2) 0 57 % slotBytes (field (w 1) 46 2) == 0
  | 5 => ctl && field (w 1) 0 48 == 0 && field (w 0) 57 7 == 0 && w 0 % 16 == 0
  | 6 => ctl && field (w 1) 0 43 == 0 && field (w 1) 46 2 == 0 && field (w 0) 0 32 == 0 &&
      field (w 2) 57 7 == 0 && field (w 3) 58 6 == 0
  | 7 =>
    let ar := field (w 1) 62 2
    field (w 1) 57 3 == 0 && !bit (w 1) 61 && field (w 2) 57 7 == 0 && field (w 3) 57 7 == 0 &&
      (List.range (ar + 1)).all fun i => field (w i) 2 3 == 0
  | _ => false

/-- The tags of an object's granules set, or cleared with type 0; a page that moves copies them again (R298, R401). -/
def State.setTags (s : State) (k ty n : Nat) : State :=
  let m := s.mem.setTag k (if ty = 0 then {} else ⟨ty, false, true⟩)
  ({ s with mem := if n = 2 then m.setTag (k + 16) (if ty = 0 then {} else ⟨ty, false, false⟩) else m } : State).moveDirty k

/-- OBJ.INIT at the home. -/
def State.homeInit (s : State) (k : Nat) (r : HomeReq) (ty : Nat) (img : List Word) : State :=
  let n := granules ty
  let busy := (List.range n).any fun i => (s.mem.tag (k + 16 * i)).ty != 0 || (s.mem.tag (k + 16 * i)).mark
  if busy then s.refuse k r 0x41
  else if !validImage ty img then s.refuse k r 0x46
  else
    let s := ({ s with mem := (s.mem.write k (bytesOf (img.take (2 * n)))).clearPoison k (16 * n) } : State).setTags k ty n
    ((s.updObj k fun _ => {}).moveDirty r.pa).tell k r {}

/-- Granules that a slot of `z` bytes takes part in. -/
def slotGranules (z : Nat) : Nat := (z + 15) / 16

/-- The virtual address of a queue's slot (R175). -/
def State.slotVa (s : State) (k i : Nat) : Nat :=
  let z := slotBytes (field (s.word (k + 8)) 46 2)
  s.word (k + 16) % 2 ^ 57 + z * (i % (field (s.word (k + 8)) 34 12 + 1))

/-- A request for a slot of a queue's object (R193): translated with the rights of an object operation in the requester's space; its
answer comes to the queue's home. With cause 0 an entry of the page table must be waited for. -/
def State.slotReq (s : State) (k i : Nat) (r : HomeReq) (op : HomeOp) : Except (Nat × Nat) HomeReq :=
  let va := s.slotVa k i
  match s.homeWalk r va with
  | .error (c, pa) => .error (c, if c = 0 then pa else va)
  | .ok (pa, key) => .ok { r with who := .home k, op := op, va := va, pa := pa, key := key, scope := .pod }

/-- The mark of every granule of a range cleared. -/
def Memory.unmark (m : Memory) (a : Nat) : Nat → Memory
  | 0 => m
  | n + 1 => Memory.unmark (if (m.tag a).mark then m.setTag a { m.tag a with mark := false } else m) (a + 16) n

/-- The mark of every granule of a range set. -/
def Memory.mark (m : Memory) (a : Nat) : Nat → Memory
  | 0 => m
  | n + 1 => Memory.mark (m.setTag a { m.tag a with mark := true }) (a + 16) n

/-- A slot's granules at a home unmarked or marked; a page that moves copies them again (R298, R401). -/
def State.setMarks (s : State) (a n : Nat) (on : Bool) : State :=
  ({ s with mem := if on then s.mem.mark a n else s.mem.unmark a n } : State).moveDirty a

/-- A slot's bytes zeroed of their mark, or written or read, at the slot's home (R193, R186); the check comes first (R181, R325). A write
into a sealed range is lost (R303). -/
def State.slotServe (s : State) (r : HomeReq) : Reply × State :=
  let a := s.key r.pa
  let typed (z : Nat) : Bool := (List.range (slotGranules z)).any fun j => (s.mem.tag (a + 16 * j)).ty != 0
  let bad (s : State) (z : Nat) : Bool := (s.mem.firstPoison a z).isSome
  let counted (s : State) : State := s.updSlice (sliceOf a) fun x => { x with ctr := { x.ctr with psnread := sat32 x.ctr.psnread } }
  match r.op with
  | .slotPut cap bs =>
    let z := bs.length
    let s' := s.homeScan a z
    if typed z then ({ cause := 0x40 }, s)
    else if bad s' z then ({ merr := true }, counted s')
    else
      let s' := ((s'.setMarks a (slotGranules z) false).writeBytes (some (r.asid, r.va)) r.pa r.key (2 ^ z - 1) 0 bs).1
      ({ flag := true }, if cap then s'.setMarks a (slotGranules z) true else s')
  | .slotGet z cap =>
    let s' := (s.useKey (sliceOf a) (a / 128) r.key).homeScan a z
    if typed z then ({ cause := 0x40 }, s)
    else if bad s' z then ({ merr := true, data := List.replicate z 0 }, counted s')
    else if (s.mem.tag a).mark != cap then ({ cause := 0x45 }, s')
    else ({ flag := true, data := s'.mem.read a z }, if cap then s'.setMarks a (slotGranules z) false else s')
  | .slotFree z => ({}, s.setMarks a (slotGranules z) false)
  | _ => ({}, s)

/-- An object is free (R186): untyped, with nothing kept for it. -/
def State.freed (s : State) (k : Nat) (r : HomeReq) (n : Nat) : State :=
  ((s.setTags k 0 n).updObj k fun _ => {}).tell k r { seen := if n = 2 then [(r.va, 32)] else [] }

/-- The marks of a queue's slots cleared from slot `i` on, each at its own home (R175, R186); then the queue is free. A slot that does not
translate is passed over: DESIGN CHOICE, unsafe, log 82. -/
def State.freeSlots (s : State) (k : Nat) (r : HomeReq) : Nat → Nat → State
  | 0, _ => s.freed k r 2
  | n + 1, i =>
    match s.slotReq k i r (.slotFree (slotBytes (field (s.word (k + 8)) 46 2))) with
    | .error (0, pa) => s.needs pa r.tenant r.cluster
    | .error _ => s.freeSlots k r n (i + 1)
    | .ok q =>
      if s.isLocal q.pa then (s.slotServe q).2.freeSlots k r n (i + 1)
      else (s.updObj k fun o => { o with slotWait := some ⟨r, false, some (i + 1)⟩ }).eftSend k q

/-- OBJ.FREE at the home. -/
def State.homeFree (s : State) (k : Nat) (r : HomeReq) : State :=
  let t := s.mem.tag k
  if t.ty = 0 || t.ty = 7 || !t.first then s.refuse k r 0x41
  else if !(s.obj k).waiters.isEmpty ||
      (t.ty == 6 && (field (s.word (k + 8)) 46 2 != 0 || field (s.word k) 0 32 != 0)) then s.refuse k r 0x47
  else if t.ty = 4 then s.freeSlots k r (field (s.word (k + 8)) 34 12 + 1) 0
  else s.freed k r (granules t.ty)

/-! ## Counters (R188) -/

/-- Satisfy (R188). -/
def State.satisfy (s : State) (k : Nat) : State :=
  let v := s.word k
  s.wakeEach k fun w => match w.req.op with
    | .waitGe b => if b.toNat ≤ v then some { value := BitVec.ofNat 64 v } else none
    | .waitEq b => if b.toNat = v then some { value := BitVec.ofNat 64 v } else none
    | _ => none

/-- CNT.ADD, CNT.SWAP and CNT.CAS write a value and answer the old one. -/
def State.setCounter (s : State) (k : Nat) (r : HomeReq) (v : Word) : State :=
  let old := BitVec.ofNat 64 (s.word k)
  (((s.putWord k v.toNat).moveDirty r.pa).tell k r { value := old }).satisfy k

/-! ## Barriers (R190) -/

/-- The tag of a barrier's waiter: its phase, and above it the status that its BAR.SYNC returns. -/
def Waiter.phase (w : Waiter) : Nat := w.tag % 2 ^ 16

/-- The status word of an arrival. -/
def arrivalWord (st ph : Nat) : Word := BitVec.ofNat 64 (st * 2 ^ 16 + ph)

/-- The answer that a swept waiter gets. -/
def sweptReply (w : Waiter) : Reply :=
  match w.req.op with
  | .barSync => { value := arrivalWord (w.tag / 2 ^ 16) w.phase }
  | _ => {}

/-- A sweep goes on: inline records of the phase at once, chain records one by one as they are read; at its end the phase
advances, and a phase whose arrivals are complete is swept next (R190). -/
def State.sweep (s : State) (k : Nat) : Nat → State
  | 0 => s
  | n + 1 =>
    let ph := field (s.word k) 48 16
    let s := s.wakeEach k fun w => if w.inl && w.phase == ph then some (sweptReply w) else none
    if (s.obj k).waiters.any fun w => w.phase == ph then s.readChain k
    else
      let exp := field (s.word k) 24 24
      let carry := field (s.word (k + 8)) 24 24
      let s := s.putWord k ((ph + 1) % 2 ^ 16 * 2 ^ 48 + exp * 2 ^ 24 + carry)
      let s := (s.putAt (k + 8) 24 24 0).putAt (k + 8) 23 1 0
      if carry = exp then (s.putAt (k + 8) 23 1 1).sweep k n
      else if bit (s.word (k + 8)) 59 then (s.updObj k fun o => { o with reading := true }).readChain k
      else s

/-- A sweep of the current phase begins. -/
def State.startSweep (s : State) (k : Nat) : State := (s.putAt (k + 8) 23 1 1).sweep k ((s.obj k).waiters.length + 2)

/-- Arrive (R190): the status, the phase, whether it was counted with SWP = 0, and the state. -/
def State.arriveAt (s : State) (k : Nat) : (Nat × Nat × Bool) × State :=
  let w := s.word k
  let ph := field w 48 16
  let exp := field w 24 24
  if !bit (s.word (k + 8)) 23 then
    let n := field w 0 24 + 1
    ((if n = exp then 1 else 0, ph, true), s.putAt k 0 24 n)
  else
    let carry := field (s.word (k + 8)) 24 24
    if carry < exp then ((if carry + 1 = exp then 1 else 0, (ph + 1) % 2 ^ 16, false), s.putAt (k + 8) 24 24 (carry + 1))
    else ((2, (ph + 1) % 2 ^ 16, false), s.updCtr k fun c => { c with objerr := sat32 c.objerr })

/-- BAR.ARRIVE and BAR.SYNC at the home; room for the record is checked before the arrival is counted (R181). -/
def State.homeArrive (s : State) (k : Nat) (r : HomeReq) (sync : Bool) : State :=
  let ((st, ph, open'), s') := s.arriveAt k
  let last := decide (st = 1) && open'
  if !sync || last || decide (st = 2) then
    let s := (s'.moveDirty r.pa).tell k r { value := arrivalWord st ph }
    if last then s.startSweep k else s
  else if s.canPark k false then (s'.moveDirty r.pa).park k r (ph + st * 2 ^ 16) false
  else s.refuse k r 0x48

/-- BAR.WAIT at the home: a wait for the phase that is being swept joins the sweep. -/
def State.homeBarWait (s : State) (k : Nat) (r : HomeReq) (ph : Nat) : State :=
  if field (s.word k) 48 16 ≠ ph then s.tell k r {}
  else if !s.canPark k false then s.refuse k r 0x48
  else
    let s := s.park k r ph false
    if bit (s.word (k + 8)) 23 then s.readChain k else s

/-! ## Ticket locks and conditions (R191, R194) -/

/-- TKT.REL's effect on a lock that is held. -/
def State.releaseLock (s : State) (k : Nat) : State :=
  let v := (field (s.word k) 0 32 + 1) % 2 ^ 32
  let s := s.putAt k 0 32 v
  s.wakeEach k fun w => if w.tag = v then some { value := BitVec.ofNat 64 v } else none

/-- TKT.ACQ at the home. -/
def State.homeAcquire (s : State) (k : Nat) (r : HomeReq) : State :=
  let t := field (s.word k) 32 32
  let s' := s.putAt k 32 32 ((t + 1) % 2 ^ 32)
  if field (s.word k) 0 32 = t then s'.tell k r { value := BitVec.ofNat 64 t }
  else if s.canPark k false then s'.park k r t false
  else s.refuse k r 0x48

/-- CND.WAIT at the home: the waiter is recorded, then the lock is released on its behalf. A lock whose address does not translate parks
the requester on a page fault of an object operation before anything is recorded: DESIGN CHOICE, unsafe, log 83. -/
def State.homeCndWait (s : State) (k : Nat) (r : HomeReq) (l : Nat) : State :=
  if s.word k ≠ l then s.refuse k r 0x46
  else match s.homeWalk r l with
    | .error (0, pa) => s.needs pa r.tenant r.cluster
    | .error (c, _) => s.tell k r { fault := some (c, l, 3) }
    | .ok (pa, key) =>
      if s.canPark k false then
        (s.park k r (pa + key * 2 ^ 52) false).eftSend k
          { r with op := .tktRelFor, who := .nobody, va := l, pa := pa, key := key }
      else s.refuse k r 0x48

/-- One signal: the oldest waiter's lock request. What the lock's home refuses is raised precisely at the CND.WAIT: DESIGN CHOICE,
unsafe, log 83. -/
def State.signal (s : State) (k : Nat) : State :=
  match (s.obj k).waiters with
  | [] => s
  | w :: _ => (s.unpark k 0).eftSend k 
    { w.req with op := .tktAcq, va := s.word k, pa := w.tag % 2 ^ 52, key := w.tag / 2 ^ 52 }

/-- Signals for every waiter. -/
def State.signals (s : State) (k : Nat) : Nat → State
  | 0 => s
  | n + 1 => (s.signal k).signals k n

/-! ## Bounded queues (R193) -/

/-- Slot size, capacity, and entries of a queue. -/
def State.qz (s : State) (k : Nat) : Nat := slotBytes (field (s.word (k + 8)) 46 2)
def State.qcap (s : State) (k : Nat) : Nat := field (s.word (k + 8)) 34 12 + 1
def State.qhead (s : State) (k : Nat) : Nat := field (s.word k) 0 32
def State.qtail (s : State) (k : Nat) : Nat := field (s.word k) 32 32
def State.qlen (s : State) (k : Nat) : Nat := (s.qtail k + 2 ^ 32 - s.qhead k) % 2 ^ 32

/-- The capacity index of a slot, by which its give's scope is kept (R162). -/
def State.slotIx (s : State) (k i : Nat) : Nat := i % s.qcap k

/-- An operation of a queue takes a slot's contents. -/
def HomeOp.isGet : HomeOp → Bool
  | .qGet _ | .qTryget _ | .take => true
  | _ => false

/-- What an operation does at its slot. -/
def State.slotOp (s : State) (k : Nat) (op : HomeOp) : HomeOp :=
  match op with
  | .give c => .slotPut true ((bytesOf c.words).take (s.qz k))
  | .qPut _ p | .qTryput _ p => .slotPut false (p.take (s.qz k))
  | .take => .slotGet (s.qz k) true
  | _ => .slotGet (s.qz k) false

/-- A waiter at an object is a getter. -/
def Waiter.isGetter (w : Waiter) : Bool := w.req.op.isGet

/-- A waiter whose slot does not translate is parked on the page fault instead (R193). -/
def State.parkOnSlot (s : State) (k : Nat) (w : Waiter) (c va : Nat) : State :=
  match w.req.who with
  | .thread tid =>
    if (s.threads.find tid).isSome then
      let s := ((s.setWriteRight tid w.req.op true).updThread tid fun t => { t with cont := .retry }).parkFault tid c va 3 none
      if s.isSavedThread tid then s.savedSync tid false else s
    else s
  | .job j => s.jobFault j c va 3
  | _ => s.wake k w { fault := some (c, va, 3) }

/-- The header after a put or a get at the slot (R193, R161, R162), and the answer. -/
def State.slotApplied (s : State) (k : Nat) (r : HomeReq) (p : Reply) : Reply × State :=
  if r.op.isGet then
    let h := s.qhead k
    let s' := s.putAt k 0 32 ((h + 1) % 2 ^ 32)
    let seen := [(s.slotVa k h, s.qz k)]
    match r.op with
    | .take =>
      ({ seen := seen, cap := some (segOf (wordsOf 4 p.data)), scope := (s.obj k).gives.find (s.slotIx k h) },
        s'.updObj k fun o => { o with gives := o.gives.erase (s.slotIx k h) })
    | _ => ({ seen := seen, data := p.data, value := BitVec.ofNat 64 (leNat (p.data.take 8)), flag := true }, s')
  else
    let t := s.qtail k
    let s := match r.op with
      | .give _ => s.updObj k fun o => { o with gives := o.gives.set (s.slotIx k t) r.scope }
      | _ => s
    -- an asker on another device learns where the slot is, whose bytes it holds in its L1 no more (R292)
    ({ flag := true, seen := [(s.slotVa k t, s.qz k)], data := if r.who.isFar then leBytes 8 (s.slotVa k t) else [] },
      (s.putAt k 32 32 ((t + 1) % 2 ^ 32)).ownOp r (s.slotVa k t) (s.qz k))

/-- What a slot's home has answered, for the requester or for a waiter that is served (R193): whether serving goes on. -/
def State.slotDone (s : State) (k : Nat) (r : HomeReq) (waiter : Bool) (p : Reply) : Bool × State :=
  let ix := if waiter then (s.obj k).waiters.findIdx? (·.req == r) else none
  let w : Option Waiter := ix.bind fun i => (s.obj k).waiters[i]?
  let out (s : State) (p : Reply) : State :=
    match ix, w with
    | some i, some w => (s.unpark k i).wake k w p
    | _, _ => s.tell k r p
  match p.fault with
  | some (c, va, _) => (false, match ix, w with
    | some i, some w => (s.unpark k i).parkOnSlot k w c va
    | _, _ => s.tell k r { fault := some (c, va, 3) })
  | none =>
    if p.merr then (false, if waiter then s else s.tell k r { merr := true, data := p.data })
    else if p.cause = 0x45 && waiter && (match r.op with | .take => false | _ => true) then (false, s)
    else if p.cause = 0x45 && waiter then (true, out s { cause := 0x45 })
    else if p.cause ≠ 0 then
      (false, out (match r.who with | .thread tid => if waiter then s.setWriteRight tid r.op true else s | _ => s) { cause := p.cause })
    else
      let (q, s) := s.slotApplied k r p
      (true, out s q)

/-- A put or a get at its slot: at once at a slot of this device, else the queue waits for the slot's home. -/
def State.slotTry (s : State) (k : Nat) (r : HomeReq) (waiter : Bool) : Bool × State :=
  match s.slotReq k (if r.op.isGet then s.qhead k else s.qtail k) r (s.slotOp k r.op) with
  | .error (0, pa) => (false, s.needs pa r.tenant r.cluster)
  | .error (c, va) => s.slotDone k r waiter { fault := some (c, va, 3) }
  | .ok q =>
    if s.isLocal q.pa then
      let (p, s) := s.slotServe q
      s.slotDone k r waiter p
    else (false, (s.updObj k fun o => { o with slotWait := some ⟨r, waiter, none⟩ }).eftSend k q)

/-- The waiter that is served next: after a put the oldest getter first, after a get the oldest putter (R193). -/
def State.nextServed (s : State) (k : Nat) (getFirst : Bool) : Option Waiter :=
  let g := if s.qlen k = 0 then none else (s.obj k).waiters.find? (·.isGetter)
  let p := if s.qcap k ≤ s.qlen k then none else (s.obj k).waiters.find? (!·.isGetter)
  if getFirst then g.or p else p.or g

/-- ServeGetters and ServePutters (R193), each of which runs the other, until none can be served. -/
def State.serveQueue (s : State) (k : Nat) (getFirst : Bool) : Nat → State
  | 0 => s
  | n + 1 =>
    match s.nextServed k getFirst with
    | none => s
    | some w =>
      let (more, s) := s.slotTry k w.req true
      if more then s.serveQueue k (!w.isGetter) n else s

/-- A put or a get goes on when its slot has answered, with the serves that follow it. -/
def State.serveOn (s : State) (k : Nat) (r : HomeReq) (x : Bool × State) : State :=
  if x.1 then x.2.serveQueue k (!r.op.isGet) ((s.obj k).waiters.length + 1) else x.2

/-- Put (R193): `wait` when a full queue parks the requester. -/
def State.homePut (s : State) (k : Nat) (r : HomeReq) (wait : Bool) : State :=
  if s.qlen k < s.qcap k then s.serveOn k r (s.slotTry k r false)
  else if wait then s.parkOr k r 0 true
  else s.tell k r { flag := false }

/-- Get (R193) and the take of R162. -/
def State.homeGet (s : State) (k : Nat) (r : HomeReq) (wait : Bool) : State :=
  if s.qlen k = 0 then (if wait then s.parkOr k r 0 false else s.tell k r { flag := false })
  else s.serveOn k r (s.slotTry k r false)

/-- The home of a slot on another device has answered the queue at `k`. -/
def State.slotReply (s : State) (k : Nat) (p : Reply) : State :=
  match (s.obj k).slotWait with
  | none => s
  | some w =>
    let s := s.updObj k fun o => { o with slotWait := none }
    match w.free with
    | some i => s.freeSlots k w.req (s.qcap k - i) i
    | none => s.serveOn k w.req (s.slotDone k w.req w.waiter p)

/-! ## Seal records (R154, R155, R249) -/

/-- Scopes by their code: the wider of two. -/
def widest (a b : Scope) : Scope := if a.code < b.code then b else a

/-- A line without a sealed range: dirty bytes outside the range stay. -/
def L1Line.withoutRange (l : L1Line) (base len : Nat) : L1Line :=
  let lo := max base (128 * l.va) - 128 * l.va
  let hi := min (base + len) (128 * l.va + 128) - 128 * l.va
  let d := l.dirty &&& ~~~(byteMask lo (hi - lo))
  { l with valid := d, dirty := d, sealedLine := false }

/-- The sealed lines of a range dropped in every cluster L1 of a scope (R155); one that is on its way there is not put into it. -/
def State.dropSealed (s : State) (asid base len cl : Nat) (sc : Scope) : State :=
  let hit (a line : Nat) : Bool := a == asid && decide (base < 128 * line + 128) && decide (128 * line < base + len)
  let drop (l : L1Line) : L1Line := if l.sealedLine && hit l.asid l.va then l.withoutRange base len else l
  ({ s with clusters := s.clusters.map fun c =>
      if covers cl sc c.1 then (c.1, { c.2 with l1 := (c.2.l1.map drop).filter (·.valid != 0) })
      else c } : State).staleFills fun r sl =>
    covers cl sc r.cluster && hit r.asid (r.va / 128) && (sl == some true || (sl.isNone && s.mayBeRead r sl))

/-- The end of UNSEAL: lines of the sealing space dropped, the generation advanced, the record open, the thread answered. An asker on
another device learns which lines it drops there; a third device keeps its own: log 84. -/
def State.finishUnseal (s : State) (k : Nat) (r : HomeReq) (isWake : Bool) : State :=
  let sc := scopeOf (field (s.word (k + 8)) 43 3)
  let asid := match (s.obj k).sealedBy with | some x => x.1 | none => r.asid
  let base := s.word (k + 16) % 2 ^ 57
  let len := s.word (k + 24) % 2 ^ 58
  let s := s.dropSealed asid base len r.cluster (widest r.scope sc)
  let g := (field (s.word k) 32 32 + 1) % 2 ^ 32
  let s := (s.putAt k 32 32 g).putAt (k + 8) 46 2 0
  let s := s.updObj k fun o => { o with sealedBy := none }
  (s.ownOp r r.va 32).answer (sliceOf k) r.who
    { value := BitVec.ofNat 64 g, addr := r.va,
      data := if r.who.isFar then bytesOf [BitVec.ofNat 64 asid, BitVec.ofNat 64 base, BitVec.ofNat 64 len] else [] } isWake

/-- UNSEAL at the home. -/
def State.homeUnseal (s : State) (k : Nat) (r : HomeReq) : State :=
  if field (s.word (k + 8)) 46 2 ≠ 1 then s.refuse k r 0x44
  else if field (s.word k) 0 32 = 0 then (s.putAt (k + 8) 46 2 2).finishUnseal k r false
  else if s.canPark k false then (s.putAt (k + 8) 46 2 2).park k r 0 false
  else s.refuse k r 0x48

/-- SEAL at the home. -/
def State.homeSeal (s : State) (k : Nat) (r : HomeReq) (base len : Nat) (sc : Scope) : State :=
  if field (s.word (k + 8)) 46 2 ≠ 0 then s.refuse k r 0x44
  else
    let s := (s.putWord (k + 16) base).putWord (k + 24) len
    let s := (s.putAt (k + 8) 43 3 sc.code).putAt (k + 8) 46 2 1
    (s.updObj k fun o => { o with sealedBy := some (r.asid, r.tenant, r.cluster) }).tell k r {}

/-- A copy released (R249): the UNSEAL that waits goes on when it was the last. -/
def State.copyReleased (s : State) (k : Nat) (r : HomeReq) : State :=
  let n := field (s.word k) 0 32
  if !s.isType k 6 || n = 0 then s.refuse k r 0x47
  else
    let s := (s.putAt k 0 32 (n - 1)).tell k r { value := BitVec.ofNat 64 (field (s.word k) 32 32) }
    match (s.obj k).waiters with
    | w :: _ => if n = 1 then (s.unpark k 0).finishUnseal k w.req true else s
    | [] => s

/-! ## Reservations (R149 to R151) -/

/-- A reservation is this requester's at this address. -/
def Reservation.isOf (v : Reservation) (i : BitVec 32 × Nat × BitVec 32) (a : Nat) : Bool :=
  v.pa == a && v.gtid == i.1 && v.pond == i.2.1 && v.tsn == i.2.2

/-- The oldest reserver of a word is granted, if none holds it. -/
def State.grantNext (s : State) (a : Nat) : State :=
  let sl := sliceOf a
  let l := (s.slice sl).rsv
  if l.any fun v => v.pa == a && v.granted.isSome then s
  else match l.find? (·.pa == a) with
    | none => s
    | some v =>
      let s := (s.useKey sl (a / 128) v.req.key).homeScan a v.n
      let bad := (s.mem.firstPoison a v.n).isSome
      let s := s.updSlice sl fun x => { x with
        ctr := if bad then { x.ctr with psnread := sat32 x.ctr.psnread } else x.ctr,
        rsv := x.rsv.map fun u => if u.stamp = v.stamp then { u with granted := some s.ctl.cycle, poisoned := bad } else u }
      let s := s.later 4096 .reservationRevocation sl v.stamp 0
      s.answer sl v.req.who
        { value := if bad then 0 else BitVec.ofNat 64 (leNat (s.mem.read a v.n)), merr := bad, addr := v.req.va } false

/-- RSV at the home. -/
def State.homeReserve (s : State) (a : Nat) (r : HomeReq) (n : Nat) : State :=
  let sl := sliceOf a
  let i := r.ident
  if (s.mem.tag a).ty != 0 then s.refuse a r 0x40
  else if (s.slice sl).rsv.any (·.isOf i a) then s.refuse a r 0x43
  else
    let st := s.ctl.nextId
    let s := s.updCtl fun c => { c with nextId := st + 1 }
    let s := s.updSlice sl fun x => { x with
      rsv := x.rsv ++ [⟨a, n, i.1, i.2.1, i.2.2, r, none, false, st⟩],
      dead := x.dead.filter fun d => !(d.pa == a && d.gtid == i.1 && d.pond == i.2.1 && d.tsn == i.2.2) }
    s.grantNext a

/-- RLS and RLSX at the home: `v` is written unless the grant was poisoned; into a sealed range it is lost (R303). The size is the
release's, and reservations of both sizes at one address stand in one order: DESIGN CHOICE, log 66. -/
def State.homeRelease (s : State) (a : Nat) (r : HomeReq) (n : Nat) (v : Option Word) : State :=
  let sl := sliceOf a
  let i := r.ident
  match (s.slice sl).rsv.find? fun u => u.isOf i a && u.granted.isSome with
  | none => s.refuse a r 0x43
  | some u =>
    let s := match v with
      | some w =>
        if u.poisoned then s
        else
          let s := (s.writeBytes (some (r.asid, r.va)) r.pa r.key (2 ^ n - 1) 0 (leBytes n w.toNat)).1
          (match r.who with | .thread _ => s.ownWrite r.cluster r.asid r.va n | _ => s)
      | none => s
    let s := s.updSlice sl fun x => { x with rsv := x.rsv.filter (·.stamp != u.stamp) }
    (s.answer sl r.who { addr := r.va } false).grantNext a

/-- RESERVATION_REVOCATION (R151). -/
def execReservationRevocation (s : State) : Host.Outcome State Fault Refusal :=
  -- a page move may have taken the reservation to another slice (R298)
  match s.slices.findSome? fun x => (x.2.rsv.find? (·.stamp == s.ctl.ev.b)).map fun v => (x.1, v) with
  | none => .next s
  | some (sl, v) =>
    let s := s.updSlice sl fun x => { x with
      rsv := x.rsv.filter (·.stamp != v.stamp), dead := x.dead ++ [⟨v.pa, v.gtid, v.pond, v.tsn⟩] }
    .next (s.grantNext v.pa)

/-! ## Log areas (R152, R153, R320) -/

/-- An append of a thread of this device stands in its log: the counts of its thread and of the interface that sent it fall, and the
thread goes on if it waited for room. -/
def State.appendDone (s : State) (e : LogEntry) (tid : Nat) : State :=
  let s := s.probeCount e.cluster (-1)
  if (s.threads.find tid).isSome then
    let s := s.updThread tid fun t => { t with aux := { t.aux with appends := t.aux.appends - 1 } }
    (if e.waits then s.replyNow (.thread tid) {} else s).migrationLook tid
  else s

/-- An append stands in the log: a request that its slice has served (R399), which it acknowledges. -/
def State.takeAppend (s : State) (sl : Nat) (e : LogEntry) (who : Agent) : State :=
  let a := s.key e.pa
  let (dev, die) := match who with | .fabric d g _ _ _ => (d, sagtDie g) | _ => (s.dev.id, e.cluster / 256)
  let s := s.countAccess sl a e.key die dev (e.ac && (who.isFar || e.cluster / 256 != sl / 256))
  let q := s.ctl.nextId
  let s := s.updCtl fun c => { c with nextId := q + 1 }
  -- an entry for a page that has moved names the page where it is now (R298)
  let now (pa : Nat) : Nat := if s.isLocal pa then pa - localOf pa + s.key pa else pa
  let s := s.updSlice sl fun x => { x with
    log := x.log ++ [{ e with seq := q, pa := now e.pa, split := e.split.map fun p => (p.1, now p.2.1, p.2.2) }] }
  match who with
  | .thread tid => s.fromDie (sl / 256) e.cluster (s.agentTenant who) 1 1 (.appended e tid)
  | .fabric _ _ _ _ _ => s.answer sl who {} false
  | _ => s

/-- LOG_APPEND_ARRIVAL (R152, R320). -/
def execLogAppendArrival (s : State) : Host.Outcome State Fault Refusal :=
  let i := s.ctl.ev.a
  match s.msgs.find i with
  | some (.append e who) =>
    let sl := sliceOf (s.key e.pa)
    let s := s.dropMsg i
    if s.logFull sl (s.slice sl).log.length || !(s.slice sl).logWait.isEmpty then
      let q := s.ctl.nextId
      let s := s.updCtl fun c => { c with nextId := q + 1 }
      let s := s.updSlice sl fun x => { x with
        logWait := x.logWait ++ [({ e with seq := q }, who)], ctr := { x.ctr with logfull := sat32 x.ctr.logfull } }
      .next (s.later 65536 .logAreaFullTimeout sl q 0)
    else .next (s.takeAppend sl e who)
  | _ => .fault .noSuchHappening

/-- LOG_AREA_FULL_TIMEOUT (R320). -/
def execLogAreaFullTimeout (s : State) : Host.Outcome State Fault Refusal :=
  let sl := s.ctl.ev.a
  match (s.slice sl).logWait.find? (·.1.seq == s.ctl.ev.b) with
  | some (e, who) =>
    let r : FaultRec := match who with
      | .thread t => s.threadRec t 0x4B 4 4 e.pa 0
      | _ => { tenant := 0, cause := 0x4B, kind := 4, acc := 4, addr := e.pa, core := sl / 256 * 2048 }
    .next (s.postRec { r with tenant := s.agentTenant who })
  | none => .next s

/-- Appends that waited take the room that has come (R320). -/
def State.logRoom (s : State) (sl : Nat) : Nat → State
  | 0 => s
  | n + 1 =>
    match (s.slice sl).logWait with
    | (e, who) :: rest =>
      if s.logFull sl (s.slice sl).log.length then s
      else ((s.updSlice sl fun x => { x with logWait := rest }).takeAppend sl e who).logRoom sl n
    | [] => s

/-! ## Logs merged (R153) -/

/-- An entry of a log put in the order of R153: address, slice, sequence. -/
def insertLog (e : LogEntry) : List LogEntry → List LogEntry
  | [] => [e]
  | x :: t =>
    let before := decide (e.pa < x.pa) || (e.pa == x.pa && (decide (e.slice < x.slice) || (e.slice == x.slice && decide (e.seq < x.seq))))
    if before then e :: x :: t else x :: insertLog e t

/-- The update of an entry (R153). -/
def LogEntry.apply (e : LogEntry) (v : Nat) : Nat :=
  let b := 8 * e.n
  let a := e.val.toNat % 2 ^ b
  match e.op with
  | .add => (v + a) % 2 ^ b
  | .fadd => ((fAdd fp32 (fp32.read v) (fp32.read a)).run { frm := rne, srg := 0 }).1
  | .min => if signed b a < signed b v then a else v
  | .max => if signed b v < signed b a then a else v
  | .or => Nat.lor v a

/-- The bytes that an entry updates, page by page: address, number and key index; the home of another device's entry uses the key that
its slice holds the line under (R323). -/
def State.logParts (s : State) (e : LogEntry) : List (Nat × Nat × Nat) :=
  let key (pa k : Nat) : Nat := if e.keyDev = s.dev.id then k else s.lineKey (s.key pa)
  match e.split with
  | none => [(e.pa, e.n, key e.pa e.key)]
  | some (n, pa, k) => [(e.pa, n, key e.pa e.key), (pa, e.n - n, key pa k)]

/-- One entry merged at a home: one that meets a typed granule or a poisoned word is dropped and counted (R153), as is one that crosses
to a page of another device (log 63); bytes of a sealed range are lost (R303). -/
def State.mergeEntry (s : State) (sl : Nat) (e : LogEntry) : State :=
  let ps := s.logParts e
  let s := ps.foldl (fun s p => (s.useKey (sliceOf (s.key p.1)) (s.key p.1 / 128) p.2.2).homeScan (s.key p.1) p.2.1) s
  let bad (p : Nat × Nat × Nat) : Bool :=
    !s.isLocal p.1 || s.typedIn (s.key p.1) p.2.1 || (s.mem.firstPoison (s.key p.1) p.2.1).isSome
  if ps.any bad then s.updSlice sl fun x => { x with ctr := { x.ctr with mrgdrop := sat32 x.ctr.mrgdrop } }
  else
    let bs := leBytes e.n (e.apply (leNat (ps.flatMap fun p => s.mem.readHome (s.key p.1) p.2.1)))
    (ps.foldl (fun (acc : State × List Byte) p =>
      ((acc.1.writeBytes none p.1 p.2.2 (2 ^ p.2.1 - 1) 0 (acc.2.take p.2.1)).1, acc.2.drop p.2.1)) (s, bs)).1

/-- The logs of every home merged for one pond key; the room is taken by appends that waited (R153, R320). -/
def State.mergeLogs (s : State) (dev count : Nat) : State :=
  s.slices.keys.foldl (fun s sl =>
    let mine := (s.slice sl).log.filter fun e => e.keyDev == dev && e.keyCount == count
    if mine.isEmpty then s
    else
      let s := s.updSlice sl fun x => { x with log := x.log.filter fun e => !(e.keyDev == dev && e.keyCount == count) }
      let s := (mine.foldl (fun l e => insertLog e l) []).foldl (fun s e => s.mergeEntry sl e) s
      s.logRoom sl ((s.slice sl).logWait.length)) s

end Sys2Proof.Machine
end

