-- ==== Sys2Proof/Machine/NetHomes.lean ====
section
/-! DEFINITION. Net operations at the homes of nodes (R269 to R275), and the rows of the eft: its operations, HBM, chain
records, combining, pair checks. -/

namespace Sys2Proof.Machine

/-! ## Nodes (R269, R270) -/

/-- What the home finds at a node offset. -/
inductive NodeCheck where
  | bad (c va : Nat)
  | fault (c va : Nat)
  /-- an entry of the page table must be waited for -/
  | need (pa : Nat)
  /-- the node's key, physical and virtual address, key index -/
  | node (k pa va key : Nat)
  /-- the node is homed on another device -/
  | far (pa va key : Nat)

/-- The checks of R270 on an offset, through the s4 window that the request carries; a page fault names the port. What stands at a node
that is homed on another device is for its home to say. -/
def State.node (s : State) (r : HomeReq) (off : Nat) : NodeCheck :=
  let o := off / 4 * 4
  let va := r.segBase + o
  if r.segLimit < o + 32 then .bad 0x20 (va % 2 ^ 57)
  else if o % 16 ≠ 0 then .bad 0x22 (va % 2 ^ 57)
  else if 2 ^ 57 ≤ va then .bad 0x2C (va % 2 ^ 57)
  else match s.homeWalk r va with
    | .error (0, pa) => .need pa
    | .error (c, _) => .fault c (va + 8 * (off % 4))
    | .ok (pa, key) =>
      if !s.isLocal pa then .far pa va key
      else if !s.isType (s.key pa) 7 then .bad 0x41 va
      else .node (s.key pa) pa va key

/-- FWD, AR and AGENT of a node. -/
def State.fwd (s : State) (k : Nat) : Bool := bit (s.word (k + 8)) 61
def State.arity (s : State) (k : Nat) : Nat := field (s.word (k + 8)) 62 2
def State.symbol (s : State) (k : Nat) : Nat := field (s.word k) 57 7
/-- A port's link, read and written (R271). -/
def State.link (s : State) (k p : Nat) : Nat := field (s.word (k + 8 * p)) 0 57
def State.setLink (s : State) (k p v : Nat) : State := s.putAt (k + 8 * p) 0 57 v

/-- A port's link written by a net operation of `r`, whose cluster's L1 is superseded there (R292). -/
def State.linkTo (s : State) (r : HomeReq) (kn vn p v : Nat) : State := (s.setLink kn p v).ownOp r vn 32

/-- A message of a home to another home of this device: as a request of the home's die, log 20. -/
def State.homeSend (s : State) (r : HomeReq) (pa : Nat) (m : Msg) : State :=
  let die (pa : Nat) : Nat := sliceOf (localOf pa) / 256
  let i := s.ctl.nextMsg
  let s := s.addMsg m
  if die r.pa = die pa then s.arrive i else s.viaRouters r.tenant i [die r.pa, die pa] 0

/-- A later step of a net operation goes to its home (R272). -/
def State.nextStep (s : State) (r : HomeReq) (op : HomeOp) (pa va key : Nat) : State :=
  let q := { r with op := op, pa := pa, va := va, key := key }
  if s.isLocal pa then s.homeSend r pa (.home q) else s.toHome q

/-- A fault after earlier steps (R270): the thread parks, and the answer decides what follows. An issuer on another device gets the step
that is to be resumed. -/
def State.parkAfter (s : State) (k : Nat) (r : HomeReq) (c va : Nat) : State :=
  match r.who with
  | .thread tid => match s.threads.find tid with
    | some t =>
      let tk : Take := match t.cont with | .reply tk => tk | _ => {}
      (s.updThread tid fun t => { t with cont := .reply tk }).parkFault tid c va 3 (some (r, tk))
    | none => s
  | _ => s.answer (sliceOf k) r.who { fault := some (c, va, 3), after := true, data := bytesOf r.op.operands } false

/-- A cause after earlier steps: EPC is the next instruction's (R272). -/
def State.failAfter (s : State) (k : Nat) (r : HomeReq) (c addr : Nat) : State :=
  (s.ownOp r r.va 32).answer (sliceOf k) r.who { cause := c, addr := addr, after := true } false

/-- A refusal that names an address. -/
def State.failAt (s : State) (k : Nat) (r : HomeReq) (c addr : Nat) : State :=
  s.answer (sliceOf k) r.who { cause := c, addr := addr } false

/-- A poisoned node answers with MERR and nothing else (R325). -/
def State.tellPoison (s : State) (k : Nat) (r : HomeReq) : State :=
  (s.updCtr k fun c => { c with psnread := sat32 c.psnread }).answer (sliceOf k) r.who { merr := true, addr := r.va } false

/-- A node's words at its home: the line under the request's key, its codes checked (R323, R324). -/
def State.nodeRead (s : State) (kn key : Nat) : State := (s.useKey (sliceOf kn) (kn / 128) key).homeScan kn 32

/-- A node that has been found: what is done with it, unless it is poisoned. -/
def State.nodeFound (s : State) (r : HomeReq) (kn key : Nat) (f : State → State) : State :=
  let s := s.nodeRead kn key
  if (s.mem.firstPoison kn 32).isSome then s.tellPoison kn r else f s

/-- A node checked before any effect of the operation (R270), by the home of `k`. -/
def State.nodeFirst (s : State) (k : Nat) (r : HomeReq) (off : Nat) (far : Nat → Nat → Nat → State)
    (f : State → Nat → Nat → Nat → Nat → State) : State :=
  match s.node r off with
  | .bad c va => s.failAt k r c va
  | .fault c va => s.tell k r { fault := some (c, va, 3) }
  | .need pa => s.needs pa r.tenant r.cluster
  | .node kn pn vn key => s.nodeFound r kn key fun s => f s kn pn vn key
  | .far pn vn key => far pn vn key

/-- A node met by the step `op` after earlier steps have taken effect (R270, R272): the step goes on at the node's home. -/
def State.nodeLater (s : State) (k : Nat) (r : HomeReq) (op : HomeOp) (off : Nat) (f : State → Nat → Nat → Nat → Nat → State) : State :=
  match s.node r off with
  | .bad c va => s.failAfter k r c va
  | .fault c va => s.parkAfter k { r with op := op } c va
  | .need pa => s.needs pa r.tenant r.cluster
  | .node kn pn vn key => s.nodeFound r kn key fun s => f s kn pn vn key
  | .far pn vn key => s.nextStep r op pn vn key

/-! ## Pushes (R273, R275) -/

/-- A pair pushed into the pool of a cluster; true when it had room. -/
def State.poolPush (s : State) (cl u v : Nat) (who : Agent) : Bool × State :=
  let p := (s.cluster cl).pool
  if 65536 ≤ p.pairs.length then
    (false, s.updCluster cl fun c => { c with pool := { p with waiting := p.waiting ++ [(u, v, who)] } })
  else (true, s.updCluster cl fun c => { c with pool := { p with pairs := p.pairs ++ [(u, v)] } })

/-- A pair pushed into its pool (R275): the pool of the cluster beside the lower node's home when that lies in the issuing thread's
pond, else the issuing cluster's; true when it had room. -/
def State.pushPair (s : State) (r : HomeReq) (lowPa u v : Nat) (who : Agent) : Bool × State :=
  let pond := match r.who with | .thread tid => s.pondOf tid | _ => 0
  let beside := sliceOf (localOf lowPa)
  let cl := if s.isLocal lowPa && s.inPond pond beside then beside else r.cluster
  let s := if cl = r.cluster then s else (s.probeCount r.cluster 1).probeReceive cl
  s.poolPush cl u v who

/-- The nodes that a net operation of two or more has met, as its asker sees them. -/
def HomeReq.nodes (r : HomeReq) : List (Nat × Nat) :=
  let at' (o : Nat) : Nat × Nat := ((r.segBase + o / 4 * 4) % 2 ^ 57, 32)
  match r.op with
  | .nRelink _ p n x _ => [at' p, at' n, at' x]
  | .nLink _ a b => [at' a, at' b]
  | _ => []

/-- The result of the instruction that a pair check ends. -/
def checkedReply (r : HomeReq) : Reply :=
  match r.op with
  | .nRelink _ _ _ x _ => { value := BitVec.ofNat 64 x, addr := r.va, seen := r.nodes }
  | _ => { addr := r.va, seen := r.nodes }

/-- The pair of an answer, as its asker's cluster takes it. -/
def pairBytes (u v : Nat) : List Byte := bytesOf [BitVec.ofNat 64 u, BitVec.ofNat 64 v]

/-- The end of an operation that has completed a pair (R273): the push, and the answer. An issuer on another device is told to push,
since no cluster of this device is in its pond (R275). -/
def State.pushAnswer (s : State) (k : Nat) (r : HomeReq) (lowPa u v : Nat) : State :=
  let p := checkedReply r
  if r.who.isFar then s.answer (sliceOf k) r.who { p with push := true, data := pairBytes u v } false
  else (s.pushPair r lowPa u v .nobody).2.answer (sliceOf k) r.who p false

/-- PairCheck is on its way to the home of the lower-addressed node (R273), a net request of VC0; one of another device is found from
here. -/
def State.sendCheck (s : State) (u v : Nat) (r : HomeReq) : State :=
  match s.homeWalk r (r.segBase + min (u / 4 * 4) (v / 4 * 4)) with
  | .error (0, pa) => s.needs pa r.tenant r.cluster
  | .ok (pa, _) =>
    if s.isLocal pa then s.homeSend r pa (.pairCheck u v { r with pa := pa } true)
    else s.post (s.ctl.lat.slice + s.ctl.lat.eft) .pairCheck (.pairCheck u v r true)
  | .error _ => s.post (s.ctl.lat.slice + s.ctl.lat.eft) .pairCheck (.pairCheck u v r true)

/-- The step of an instruction at which its pair check is sent. -/
def HomeOp.atCheck : HomeOp → HomeOp
  | .nRelink _ p n x h => .nRelink 4 p n x h
  | .nLink _ a b => .nLink 4 a b
  | o => o

/-- What PairCheck does at the home (R273): PP decides; then the instruction ends. A lower node of another device is checked there. -/
def pairCheckAt (s : State) : Host.Outcome State Fault Refusal :=
  let i := s.ctl.ev.a
  match s.msgs.find i with
  | some (.pairCheck u v r _) =>
    let s := s.dropMsg i
    let lo := min (u / 4 * 4) (v / 4 * 4)
    let hi := max (u / 4 * 4) (v / 4 * 4)
    .next (s.nodeLater (s.key r.pa) r r.op.atCheck lo fun s k pa va _ =>
      if bit (s.word (k + 8)) 60 then s.answer (sliceOf k) r.who (checkedReply r) false
      else ((s.putAt (k + 8) 60 1 1).ownOp r va 32).pushAnswer k r pa (lo / 32) (hi / 32))
  | _ => .fault .noSuchHappening

/-- PAIR_CHECK (R273). -/
def execPairCheck (s : State) : Host.Outcome State Fault Refusal := withTables pairCheckAt s

/-! ## The operations (R271, R272, R279) -/

/-- N.ALLOC at the home of the free list's head. The free list of an issuer on another device is there: the answer brings its new
head. A head that is no multiple of 32 cannot be a node (R269): it is refused like a typed one. -/
def State.homeAlloc (s : State) (k : Nat) (r : HomeReq) (ag ar : Nat) : State :=
  let busy := (List.range 2).any fun i => (s.mem.tag (k + 16 * i)).ty != 0 || (s.mem.tag (k + 16 * i)).mark
  let s := if busy || r.va % 32 != 0 then s.refuse k r 0x41
    else
      let old := BitVec.ofNat 64 (s.word k)
      let s := ((s.putWord k (ag * 2 ^ 57)).putWord (k + 8) (ar * 2 ^ 62)).putWord (k + 16) 0
      let s := (s.putWord (k + 24) 0).setTags k 7 2
      let s := if r.who.isFar then s else s.updCluster r.cluster fun c => { c with regs := { c.regs with nfl := nflStored old } }
      s.tell k r { value := BitVec.ofNat 64 (r.va - r.segBase), data := if r.who.isFar then bytesOf [old] else [] }
  if r.who.isFar then s else s.wakePool r.cluster

/-- The node entered in a cluster's limbo list (R271). -/
def State.limboAdd (s : State) (cl : Nat) (r : HomeReq) : State :=
  s.updCluster cl fun c => { c with pool := { c.pool with limbo := c.pool.limbo ++ [(r.va - r.segBase, r.va)] } }

/-- N.FREE at the home. The limbo list of an issuer on another device is there. -/
def State.homeNodeFree (s : State) (k : Nat) (r : HomeReq) : State :=
  if !s.isType k 7 then s.refuse k r 0x41
  else if s.fwd k then s.refuse k r 0x49
  else if !r.who.isFar && s.limboFull r.cluster then s.failAt k r 0x4A 0
  else
    let s := s.putAt (k + 8) 61 1 1
    (if r.who.isFar then s else s.limboAdd r.cluster r).tell k r {}

/-- N.LINK (R271): step 0 at port a's home, step 1 at port b's. A b that is homed on another device than a is checked by step 2 at its
home before step 3 writes port a. -/
def State.homeLink (s : State) (k : Nat) (r : HomeReq) (step a b : Nat) : State :=
  let write (s : State) (pb vb key : Nat) : State := (s.linkTo r k r.va (a % 4) b).nextStep r (.nLink 1 a b) pb vb key
  match step with
  | 0 =>
    if !s.isType k 7 then s.refuse k r 0x41
    else if s.fwd k then s.refuse k r 0x49
    else if s.arity k < a % 4 then (s.setLink k (a % 4) b).tell k r {}
    else s.nodeFirst k r b (fun pb vb key => s.nextStep r (.nLink 2 a b) pb vb key) fun s kb pb vb key =>
      if s.fwd kb then s.failAt k r 0x49 vb else write s pb vb key
  | 2 => s.nodeFirst k r b (fun pb vb key => s.nextStep r (.nLink 2 a b) pb vb key) fun s kb _ vb _ =>
      if s.fwd kb then s.failAt k r 0x49 vb
      else s.nodeFirst k r a (fun pa va key => s.nextStep r (.nLink 3 a b) pa va key) fun s _ pa va key => s.nextStep r (.nLink 3 a b) pa va key
  | 3 =>
    if !s.isType k 7 then s.refuse k r 0x41
    else if s.fwd k then s.refuse k r 0x49
    else s.nodeFirst k r b (fun pb vb key => write s pb vb key) fun s _ pb vb key => write s pb vb key
  | 4 => s.sendCheck a b r
  | _ => s.nodeLater k r (.nLink 1 a b) b fun s kb _ vb _ =>
      let s := s.linkTo r kb vb (b % 4) a
      if a % 4 = 0 && b % 4 = 0 then s.sendCheck a b r else s.tell kb r { seen := r.nodes }

/-- N.RELINK's steps (R272). -/
def State.homeRelink (s : State) (k : Nat) (r : HomeReq) (step p n x hops : Nat) : State :=
  let first (s : State) (kp vp : Nat) (pn vn key : Nat) : State :=
    let x := s.link kp (p % 4)
    (s.linkTo r kp vp (p % 4) n).nextStep r (.nRelink 1 p n x 0) pn vn key
  match step with
  | 0 => s.nodeFirst k r p (fun pp vp key => s.nextStep r (.nRelink 0 p n x hops) pp vp key) fun s kp _ vp _ =>
      s.nodeFirst k r n
        (fun pn vn key => if s.fwd kp then s.nextStep r (.nRelink 5 p n 0 0) pn vn key else s.refuse k r 0x49) fun s kn pn vn key =>
        if !s.fwd kp || s.fwd kn then s.refuse k r 0x49 else first s kp vp pn vn key
  | 5 => s.nodeFirst k r n (fun pn vn key => s.nextStep r (.nRelink 5 p n 0 0) pn vn key) fun s kn _ _ _ =>
      if s.fwd kn then s.refuse k r 0x49
      else s.nodeFirst k r p (fun pp vp key => s.nextStep r (.nRelink 6 p n 0 0) pp vp key) fun s _ pp vp key =>
        s.nextStep r (.nRelink 6 p n 0 0) pp vp key
  | 6 => s.nodeFirst k r p (fun pp vp key => s.nextStep r (.nRelink 6 p n 0 0) pp vp key) fun s kp _ vp _ =>
      if !s.fwd kp then s.refuse k r 0x49
      else s.nodeFirst k r n (fun pn vn key => first s kp vp pn vn key) fun s _ pn vn key => first s kp vp pn vn key
  | 2 => s.nodeLater k r (.nRelink 2 p n x hops) x fun s kx _ vx _ =>
      let y := s.link kx (x % 4)
      let q := { r with op := .nRelink 4 p n x hops }
      if y = p || y = n then
        let s := s.linkTo r kx vx (x % 4) n
        if !s.fwd kx && x % 4 = 0 && n % 4 = 0 then s.sendCheck x n q
        else s.answer (sliceOf kx) r.who (checkedReply q) false
      else if !s.fwd kx || hops = 64 then s.failAfter kx r 0x49 x
      else s.nodeLater kx r (.nRelink 3 p n y (hops + 1)) n fun s _ pn vn key => s.nextStep r (.nRelink 3 p n y (hops + 1)) pn vn key
  | 4 => s.sendCheck x n r
  | st => s.nodeLater k r (.nRelink st p n x hops) n fun s kn _ vn _ =>
      let s := s.linkTo r kn vn (n % 4) x
      s.nodeLater kn r (.nRelink 2 p n x hops) x fun s _ px vx key => s.nextStep r (.nRelink 2 p n x hops) px vx key

/-- RULE.GO's reads of the two headers. -/
def State.homeRule (s : State) (k : Nat) (r : HomeReq) (step u v agentU : Nat) : State :=
  if !s.isType k 7 then s.refuse k r 0x41
  else if s.fwd k then s.refuse k r 0x49
  else if step = 0 then
    s.nodeFirst k r v (fun pv vv key => s.nextStep r (.ruleGo 1 u v (s.symbol k)) pv vv key) fun s _ pv vv key =>
      s.nextStep r (.ruleGo 1 u v (s.symbol k)) pv vv key
  else s.tell k r { value := BitVec.ofNat 64 (agentU + 128 * s.symbol k) }

/-- PAIR.PUSH at the lower node's home: the other node is checked there too, or at its own home and back when another device has it. -/
def State.homePush (s : State) (k : Nat) (r : HomeReq) (u v : Nat) : State :=
  let push (s : State) (pa : Nat) : State :=
    if r.who.isFar then s.answer (sliceOf k) r.who { addr := r.va, push := true, data := pairBytes (u / 32) (v / 32) } false
    else
      let (ok, s) := s.pushPair r pa (u / 32) (v / 32) r.who
      if ok then s.tell k r {} else s
  let low := if min (u / 4 * 4) (v / 4 * 4) = u / 4 * 4 then u else v
  let high := if low = u then v else u
  -- a lower node that another device holds has been checked there
  match s.node r low with
  | .far pl _ _ => s.nodeFirst k r high (fun ph vh key => s.nextStep r (.pairPush u v) ph vh key) fun s _ _ _ _ => push s pl
  | _ => s.nodeFirst k r low (fun pl vl key => s.nextStep r (.pairPush u v) pl vl key) fun s _ pl _ _ =>
      s.nodeFirst k r high (fun ph vh key => s.nextStep r (.pairPush u v) ph vh key) fun s _ _ _ _ => push s pl

/-- A limbo node recycled at its home (R277): untyped, its word 0 the link to the old head of the free list. -/
def State.homeRecycle (s : State) (k : Nat) (old : Word) : State :=
  if s.isType k 7 then (s.putWord k old.toNat).setTags k 0 2 else s

/-- A start of a phase probe is entered in the pond's order, and a circuit begins if none runs (R268). -/
def State.probeEnter (s : State) (r : HomeReq) : State :=
  let p := match r.who with | .thread tid => s.pondOf tid | _ => 0
  let idle := match s.pond p with | some x => x.probe.starts.isEmpty | none => false
  let s := s.updPond p fun x => { x with probe := { x.probe with
    starts := x.probe.starts ++ [r], token := if idle then some (0, 0, false) else x.probe.token } }
  if idle then s.later 1 .probeToken p 0 0 else s

/-- PROBE.START's type check (R268). The probe of an issuer on another device runs there. -/
def State.homeProbe (s : State) (k : Nat) (r : HomeReq) : State :=
  if !s.isType k 1 then s.refuse k r 0x41
  else (if r.who.isFar then s else s.probeEnter r).tell k r {}

/-- The record that a phase end or a pond's end leaves when the object is no counter (R268, R336). -/
def State.phaseRec (s : State) (r : HomeReq) (gtid : Nat) : State :=
  s.postRec { tenant := r.tenant, cause := 0x41, kind := 4, acc := 3, asid := r.asid, gtid := BitVec.ofNat 32 gtid, addr := r.va,
              core := 8 * r.cluster }

/-- The increment of a phase end or of a pond's end; an object that is no counter is told to the tenant by the device whose pond it is. -/
def State.phaseAdd (s : State) (k : Nat) (r : HomeReq) (gtid : Nat) : State :=
  if s.isType k 1 then s.setCounter k r (BitVec.ofNat 64 (s.word k) + 1)
  else if r.who.isFar then s.refuse k r 0x41
  else s.phaseRec r gtid

/-! ## The operation of a request -/

/-- An operation on an object of one type (R179). -/
def State.onType (s : State) (k : Nat) (r : HomeReq) (ty : Nat) (f : State → State) : State :=
  if s.isType k ty then f s else s.refuse k r 0x41

/-- Some word of the object at a key is poisoned (R325). -/
def State.objPoisoned (s : State) (k : Nat) (op : HomeOp) : Bool :=
  match op with
  | .rsv _ | .rls _ _ | .rlsx _ | .slotPut _ _ | .slotGet _ _ | .slotFree _ | .mergeLog _ => false
  | .init ty _ => (s.mem.firstPoison k (16 * granules ty)).isSome
  | _ => (s.mem.firstPoison k (16 * granules (s.mem.tag k).ty)).isSome

/-- The operation of a request whose object is in the slice (R180). A LOCK of CND.WAIT that names no ticket lock is left alone, uncounted:
DESIGN CHOICE, unsafe, log 83. -/
def State.homeOp (s : State) (k : Nat) (r : HomeReq) : State :=
  if s.objPoisoned k r.op then
    (s.updCtr k fun c => { c with psnread := sat32 c.psnread }).tell k r { merr := true }
  else match r.op with
  | .init ty img => s.homeInit k r ty img
  | .free => s.homeFree k r
  | .read =>
    if (s.mem.tag k).ty = 0 || (s.mem.tag k).ty = 7 || !(s.mem.tag k).first then s.refuse k r 0x41
    else s.tell k r { value := BitVec.ofNat 64 (s.word k) }
  | .cntAdd b => s.onType k r 1 fun s => s.setCounter k r (BitVec.ofNat 64 (s.word k) + b)
  | .cntSwap b => s.onType k r 1 fun s => s.setCounter k r b
  | .cntCas c b => s.onType k r 1 fun s =>
    if BitVec.ofNat 64 (s.word k) = c then s.setCounter k r b else s.tell k r { value := BitVec.ofNat 64 (s.word k) }
  | .waitGe b => s.onType k r 1 fun s =>
    if b.toNat ≤ s.word k then s.tell k r { value := BitVec.ofNat 64 (s.word k) } else s.parkOr k r 0 false
  | .waitEq b => s.onType k r 1 fun s =>
    if b.toNat = s.word k then s.tell k r { value := b } else s.parkOr k r 0 false
  | .barArrive => s.onType k r 2 fun s => s.homeArrive k r false
  | .barSync => s.onType k r 2 fun s => s.homeArrive k r true
  | .barWait ph => s.onType k r 2 fun s => s.homeBarWait k r ph
  | .tktAcq => s.onType k r 3 fun s => s.homeAcquire k r
  | .tktTry => s.onType k r 3 fun s =>
    let w := s.word k
    if field w 32 32 = field w 0 32 then (s.putAt k 32 32 ((field w 32 32 + 1) % 2 ^ 32)).tell k r { flag := true }
    else s.tell k r { flag := false }
  | .tktRel => s.onType k r 3 fun s =>
    if field (s.word k) 32 32 = field (s.word k) 0 32 then s.refuse k r 0x47 else (s.tell k r {}).releaseLock k
  | .tktRelFor =>
    if !s.isType k 3 then s
    else if field (s.word k) 32 32 = field (s.word k) 0 32 then s.updCtr k fun c => { c with objerr := sat32 c.objerr }
    else s.releaseLock k
  | .cndWait l => s.onType k r 5 fun s => s.homeCndWait k r l
  | .cndSig => s.onType k r 5 fun s => (s.tell k r {}).signal k
  | .cndBcast => s.onType k r 5 fun s => (s.tell k r {}).signals k (s.obj k).waiters.length
  | .qPut c _ => s.onType k r 4 fun s =>
    if c ≠ field (s.word (k + 8)) 46 2 then s.refuse k r 0x46 else s.homePut k r true
  | .qTryput c _ => s.onType k r 4 fun s =>
    if c ≠ field (s.word (k + 8)) 46 2 then s.refuse k r 0x46 else s.homePut k r false
  | .qGet c => s.onType k r 4 fun s =>
    if c ≠ field (s.word (k + 8)) 46 2 then s.refuse k r 0x46 else s.homeGet k r true
  | .qTryget c => s.onType k r 4 fun s =>
    if c ≠ field (s.word (k + 8)) 46 2 then s.refuse k r 0x46 else s.homeGet k r false
  | .seal base len sc => s.onType k r 6 fun s => s.homeSeal k r base len sc
  | .unseal => s.onType k r 6 fun s => s.homeUnseal k r
  | .giveCheck => if s.isType k 4 && decide (32 ≤ s.qz k) then s.tell k r {} else s.refuse k r 0x41
  | .give _ => if s.isType k 4 && decide (32 ≤ s.qz k) then s.homePut k r true else s.refuse k r 0x41
  | .take => s.onType k r 4 fun s => s.homeGet k r true
  | .rsv n => s.homeReserve (s.key r.pa) r n
  | .rls n v => s.homeRelease (s.key r.pa) r n (some v)
  | .rlsx n => s.homeRelease (s.key r.pa) r n none
  | .copyTake =>
    if s.isType k 6 && field (s.word (k + 8)) 46 2 == 1 then
      (s.putAt k 0 32 ((field (s.word k) 0 32 + 1) % 2 ^ 32)).tell k r { value := BitVec.ofNat 64 (field (s.word k) 32 32) }
    else s.refuse k r 0x44
  | .copyRelease => s.copyReleased k r
  | .slotPut _ _ | .slotGet _ _ | .slotFree _ =>
    let (p, s) := s.slotServe r
    s.answer (sliceOf k) r.who p false
  | .probeType _ => s.homeProbe k r
  | .phaseAdd g => s.phaseAdd k r g
  | .mergeLog n => s.knowingSeals true fun s => (s.mergeLogs (match r.who with | .fabric d _ _ _ _ => d | _ => s.dev.id) n).answer (sliceOf k) r.who {} false
  | .nAlloc a ar => s.homeAlloc k r a ar
  | .nFree => s.homeNodeFree k r
  | .nRead p => if s.isType k 7 then s.tell k r { value := BitVec.ofNat 64 (s.word (k + 8 * p)) } else s.refuse k r 0x41
  | .nRecycle w => (s.homeRecycle k w).tell k r {}
  | .nLink st a b => s.homeLink k r st a b
  | .nRelink st p n x h => s.homeRelink k r st p n x h
  | .pairPush u v => s.homePush k r u v
  | .ruleGo st u v a => s.homeRule k r st u v a

/-- An object's operations wait: a record of its chain is being read, or a slot on another device (R180, R193, R319). -/
def ObjState.busy (o : ObjState) : Bool := o.reading || o.slotWait.isSome

/-- The granule of a request's object: the one that holds an address that is no multiple of 16, which a base of s4 can give. DESIGN
CHOICE, unsafe: log 85. -/
def State.reqKey (s : State) (r : HomeReq) : Nat := s.key r.pa / 16 * 16

/-- The requests of a message at a home. -/
def Msg.requests : Msg → List HomeReq
  | .home r => [r]
  | .combined rs => rs
  | _ => []

/-- A message's operations performed, one after the other (R189, R321). -/
def State.runHome (s : State) (i : Nat) (m : Msg) : State :=
  let s := s.dropMsg i
  match m.requests with
  | [] => s
  | r :: rs =>
    let k := s.reqKey r
    let s := (s.useKey (sliceOf k) (k / 128) r.key).homeScan k 32
    let (dev, die) := match r.who with | .fabric d g _ _ _ => (d, sagtDie g) | _ => (s.dev.id, r.cluster / 256)
    let s := s.countAccess (sliceOf k) k r.key die dev (r.ac && (r.cluster / 256 != sliceOf k / 256 || r.who.isFar))
    let s := if rs.isEmpty then s else s.updCtr k fun c => { c with combined := sat32 c.combined }
    (r :: rs).foldl (fun s r => s.homeOp (s.reqKey r) r) s

/-- Messages of a slice that wait for an object. -/
def State.waitsFor (s : State) (k : Nat) : List Nat :=
  (s.slice (sliceOf k)).queue.filter fun i => match s.msgs.find i with
    | some m => m.requests.any fun r => s.reqKey r == k
    | none => false

/-- Requests that waited for an object are performed in order while it is free (R180). -/
def State.pumpObj (s : State) (k : Nat) : Nat → State
  | 0 => s
  | n + 1 =>
    if (s.obj k).busy then s
    else match s.waitsFor k with
      | [] => s
      | i :: _ =>
        let s := s.updSlice (sliceOf k) fun x => { x with queue := x.queue.filter (· != i) }
        match s.msgs.find i with
        | some m => (s.runHome i m).pumpObj k n
        | none => s.pumpObj k n

/-- The eight bits of a cluster port reversed: requests that meet in the omega network are applied in this order, the lower
switch input first (R321). -/
def portOrder (p : Nat) : Nat := (List.range 8).foldl (fun a i => 2 * a + p / 2 ^ i % 2) 0

/-- Requests in the order of the switch inputs, each with its port. -/
def State.insertPort (s : State) (r : HomeReq) : List HomeReq → List HomeReq
  | [] => [r]
  | x :: t =>
    let port (q : HomeReq) : Nat := portOrder (s.portOf q.cluster q.tenant (sliceOf (localOf q.pa)))
    if port r < port x then r :: x :: t else x :: s.insertPort r t

/-- A request joins what waits at its slice: the eft's queue of 64, or behind that a switch of the network (R318), where an addition
joins one that waits there already (R321); log 14. -/
def State.joinQueue (s : State) (sl i : Nat) (m : Msg) : State :=
  let meet (j : Nat) : Bool := match s.msgs.find j with
    | some x => !x.requests.isEmpty && m.requests.all fun r => x.requests.all fun q => s.meets q r
    | none => false
  match ((s.slice sl).queue.drop 64).find? meet with
  | some j =>
    let old := match s.msgs.find j with | some x => x.requests | none => []
    { s.dropMsg i with msgs := (s.dropMsg i).msgs.set j (.combined (m.requests.foldl (fun l r => s.insertPort r l) old)) }
  | none => s.updSlice sl fun x => { x with queue := x.queue ++ [i] }

/-- The page in its final pass that parks an operation (R401): every operation of the eft may write. -/
def State.moveParks (s : State) (m : Msg) : Option Nat :=
  match m with
  | .wb w => s.finalMove w.pa
  | .slice r => if r.write.isSome then s.finalMove r.pa else none
  | m => m.requests.head?.bind fun r => s.finalMove r.pa

/-- A request at its home's eft (R180, R318). -/
def eftOperation (s : State) : Host.Outcome State Fault Refusal :=
  let i := s.ctl.ev.a
  match s.msgs.find i with
  | some m =>
    match m.requests with
    | [] => .fault .noSuchHappening
    | r :: _ =>
      let k := s.reqKey r
      let sl := sliceOf k
      match s.moveParks m with
      | some v => .next (s.parkWrite v i)
      | none =>
        if (s.die (sl / 256)).refresh = 2 then .next (s.updDie (sl / 256) fun d => { d with held := d.held ++ [i] })
        else if (s.obj k).busy || !(s.waitsFor k).isEmpty then
          .next (s.joinQueue sl i m)
        else if (s.slice sl).lines.contains (k / 128) && !s.lineBusy (k / 128) then
          let s := s.runHome i m
          .next (s.pumpObj k (s.slice sl).queue.length)
        else .next (s.awaitLine (k / 128) i)
  | none => .fault .noSuchHappening

/-- EFT_OPERATION (R180, R318): a request whose object is busy waits; one whose line the slice does not hold, or that comes behind one
which waits for it, waits for HBM; a stack in self-refresh serves nothing (R442). -/
def execEftOperation (s : State) : Host.Outcome State Fault Refusal := withTables eftOperation s

/-- A request whose line has come from HBM (R318, R322). -/
def hbmAccess (s : State) : Host.Outcome State Fault Refusal :=
  let i := s.ctl.ev.a
  match s.msgs.find i with
  | some m =>
    match s.moveParks m with
    | some v => .next (s.parkWrite v i)
    | none =>
      match m with
      | .slice r =>
        if (!r.who.isFar && s.wbPending r) || s.objBusy (s.key r.pa) r.first then .next (s.later 1 .hbmAccessCompletion i 0 0)
        else .next ((s.sampleHbm r.who).knowingSeals r.who.isFar fun s => s.serveSlice i r)
      | .wb w => .next (s.serveWb i w)
      | m =>
        match m.requests with
        | r :: _ =>
          let k := s.reqKey r
          if (s.obj k).busy || !(s.waitsFor k).isEmpty then
            .next (s.joinQueue (sliceOf k) i m)
          else
            let s := s.runHome i m
            .next (s.pumpObj k (s.slice (sliceOf k)).queue.length)
        | [] => .fault .noSuchHappening
  | none => .fault .noSuchHappening

/-- HBM_ACCESS_COMPLETION (R318, R322): the line is in its slice; a request that meets a busy object or a write-back on its way waits
on. -/
def execHbmAccessCompletion (s : State) : Host.Outcome State Fault Refusal := withTables hbmAccess s

/-- A record of an object's chain has been read (R183, R190, R319). -/
def chainRead (s : State) : Host.Outcome State Fault Refusal :=
  let k := s.ctl.ev.a
  if s.isType k 2 && bit (s.word (k + 8)) 23 then
    let ph := field (s.word k) 48 16
    match (s.obj k).waiters.findIdx? (fun w => w.phase == ph) with
    | some j => match (s.obj k).waiters[j]? with
      | some w => .next (((s.unpark k j).wake k w (sweptReply w)).sweep k ((s.obj k).waiters.length + 2))
      | none => .next s
    | none => .next (s.sweep k ((s.obj k).waiters.length + 2))
  else
    match (s.obj k).waiters.findIdx? (fun w => !w.inl) with
    | some j =>
      let s := if field (s.word (k + 8)) 54 5 < s.limit k && s.storeUse k < 2048 then
          let s := s.updObj k fun o => { o with waiters := o.waiters.mapIdx fun n w => if n = j then { w with inl := true } else w }
          let s := s.updSlice (sliceOf k) fun x => { x with overflow := x.overflow - 1 }
          let s := s.putAt (k + 8) 54 5 (field (s.word (k + 8)) 54 5 + 1)
          if (s.obj k).waiters.any (!·.inl) then s else s.putAt (k + 8) 59 1 0
        else s
      if bit (s.word (k + 8)) 59 && decide (field (s.word (k + 8)) 54 5 < s.limit k) && decide (s.storeUse k < 2048) then
        .next (s.readChain k)
      else
        let s := s.updObj k fun o => { o with reading := false }
        .next (s.pumpObj k (s.slice (sliceOf k)).queue.length)
    | none =>
      let s := s.updObj k fun o => { o with reading := false }
      .next (s.pumpObj k (s.slice (sliceOf k)).queue.length)

/-- OVERFLOW_CHAIN_READ (R183, R190, R319): a sweep goes on, or the chain's head moves inline and the object is free
again. -/
def execOverflowChainRead (s : State) : Host.Outcome State Fault Refusal := withTables chainRead s

/-- OMEGA_COMBINE (R321): two requests that meet become one message. -/
def execOmegaCombine (s : State) : Host.Outcome State Fault Refusal :=
  let j := s.ctl.ev.a
  let i := s.ctl.ev.b
  match s.msgs.find j, s.msgs.find i with
  | some m, some (.home r) =>
    if s.scheduled .eftOperation j && s.scheduled .eftOperation i && !m.requests.isEmpty then
      let s := (s.dropMsg i).unschedule .eftOperation i
      .next { s with msgs := s.msgs.set j (.combined (s.insertPort r m.requests)) }
    else .next s
  | _, _ => .next s

end Sys2Proof.Machine
end

