-- ==== Sys2Proof/Machine/Matrix.lean ====
section
/-! DEFINITION. The matrix engine (R240 to R245, R346 to R351) with its arithmetic (R57 to R61, R68 to R72), and the
completion of jobs (R232, R237). -/

namespace Sys2Proof.Machine

/-! ## Fixed-point accumulation (R57 to R61, R68, R69) -/

/-- An FP4 code in units of one half (R57, R58). -/
def fp4Half (c : Nat) : Int :=
  let m : Nat := #[0, 1, 2, 3, 4, 6, 8, 12].getD (c % 8) 0
  if bit c 3 then -(m : Int) else m

/-- A block scale in units of 2^-7 (R59). -/
def scaleUnits (c : Nat) : Nat := if c / 32 % 8 = 0 then c % 32 else (32 + c % 32) * 2 ^ (c / 32 % 8 - 1)

/-- The eight elements of a block from its four bytes (R58). -/
def fp4Block (bs : List Byte) : List Int := bs.flatMap fun b => [fp4Half (b.toNat % 16), fp4Half (b.toNat / 16)]

/-- A block: scale code and elements. -/
abbrev F4Block := Nat × List Int

/-- The blocks of a row. -/
def f4Row : List Byte → List Byte → List F4Block
  | _, [] => []
  | el, s :: t => (s.toNat, fp4Block (el.take 4)) :: f4Row (el.drop 4) t

/-- The order of the 32 blocks for row group `g` (R72, R347): in stage j the chunk (g + j) mod 8, its blocks in ascending K. -/
def blockOrder (g : Nat) : List Nat :=
  (List.range 8).flatMap fun j => (List.range 4).map fun q => 4 * ((g + j) % 8) + q

/-- AccF4() (R69), with NV for a NaN scale and SAT for a saturation (R243). -/
def accF4 (c : Elem) (a b : F4Block) : Elem × Byte :=
  if a.1 = 0xFF || b.1 = 0xFF then ({ c with nan := true }, flagNV)
  else
    let dot : Int := (List.zipWith (· * ·) a.2 b.2).foldl (· + ·) 0
    let t : Int := c.val.toInt + (scaleUnits a.1 * scaleUnits b.1 : Nat) * dot
    if 2 ^ 63 - 1 < t then ({ c with val := 0x7FFFFFFFFFFFFFFF, satd := true }, flagSAT)
    else if t < -(2 ^ 63) then ({ c with val := 0x8000000000000000, satd := true }, flagSAT)
    else ({ c with val := BitVec.ofInt 64 t }, 0)

/-- The block pairs of a row of A and an N-row of B added to an element of row group `g`, in the chunk order of R347. The
order matters only once an element saturates, where R69 names none. DEDUCED: R347 gives it (log 71). -/
def accRows (g : Nat) (c : Elem) (a b : Array F4Block) : Elem × Byte :=
  (blockOrder g).foldl (fun x k =>
    let (c, f) := accF4 x.1 (a.getD k (0, [])) (b.getD k (0, []))
    (c, x.2 ||| f)) (c, 0)

/-! ## FP32 accumulation (R71, R72) -/

/-- The 16-bit elements of a row as numbers. -/
def halfRow (f : FFmt) : List Byte → List Num
  | a :: b :: t => f.read (a.toNat + 256 * b.toNat) :: halfRow f t
  | _ => []

/-- The exact sum of a block's eight products and NV: a NaN operand, 0 × ∞ or ∞ − ∞ (R71). -/
def blockSum (a b : List Num) : Num × Byte :=
  let ps := List.zipWith mulNum a b
  match ps with
  | [] => (.fin false 0 0, 0)
  | p :: t =>
    let (v, f) := t.foldl (fun x y => let (v, g) := addNum rne x.1 y.1; (v, x.2 ||| y.2 ||| g)) p
    (v, if v.isNan then f ||| flagNV else f)

/-- AccBH() (R71). -/
def accBH (c : Word) (s : Num) : Word × Byte :=
  let (v, r) := (fAdd fp32 (fp32.read c.toNat) s).run { frm := rne, srg := 0 }
  (BitVec.ofNat 64 v, r.flags)

/-- A row of A and an N-row of B, each cut into blocks, added to an element in the order of its row group. -/
def accHalf (g : Nat) (c : Word) (a b : Array (List Num)) : Word × Byte :=
  (blockOrder g).foldl (fun x k =>
    let (s, f) := blockSum (a.getD k []) (b.getD k [])
    let (v, h) := accBH x.1 s
    (v, x.2 ||| f ||| h)) (c, 0)

/-- A row's numbers cut into blocks of eight. -/
def blocksOf (n : Nat) (xs : List Num) : List (List Num) :=
  match n with
  | 0 => []
  | n + 1 => xs.take 8 :: blocksOf n (xs.drop 8)

/-! ## Banks (R346, R349) -/

/-- An element of a bank. -/
def Bank.elem (b : Bank) (k : Nat) : Elem := b.elems.get {} k

/-- Every element replaced, row by row; the flags that arise. -/
def Bank.each (b : Bank) (f : Nat → Nat → Elem → Elem × Byte) : Bank × Byte :=
  let rs := (List.range 4096).map fun k => (k, f (k / 64) (k % 64) (b.elem k))
  ({ b with elems := (rs.filter fun r => decide (r.2.1 ≠ {})).map fun r => (r.1, r.2.1) },
   rs.foldl (fun x r => x ||| r.2.2) 0)

/-! ## Drains (R70, R244) -/

/-- The drain of one element of a fixed-point bank. -/
def drainFixed (f : FFmt) (c : Elem) (ba bb : Num) : R Nat := do
  let v : Num := .fin (decide (c.val.toInt < 0)) c.val.toInt.natAbs (-16)
  let y := (mulNum (mulNum v ba).1 bb).1
  if c.nan || y.isNan then decided f.nanCode flagNV
  else match y with
    | .inf n => decided (f.code n (f.maxCode + 1)) 0
    | y => do
      setF (if c.satd then flagSAT else 0)
      roundNum f y

/-- The drain of one element of an FP32 bank. -/
def drainFloat (bf : Bool) (c : Elem) : R Nat :=
  if bf then roundNum bf16 (fp32.read c.val.toNat) else decided c.val.toNat 0

/-- The elements of a bank drained in row-major order: the bytes, and the generator and flags afterwards. With RNE the
generator is not stepped. -/
def drainBank (b : Bank) (i : Nat) (ctx : Vector Word 4) : List Byte × Rnd :=
  let bf := field ctx[0].toNat 4 2 == 1
  let f := if bf then bf16 else fp32
  let ba := bf16.read (field ctx[1].toNat (16 * i) 16)
  let bb := bf16.read (field ctx[2].toNat (16 * i) 16)
  let one (k : Nat) : R (List Byte) := do
    let v ← if b.fp32 then drainFloat bf (b.elem k) else drainFixed f (b.elem k) ba bb
    pure (leBytes (f.w / 8) v)
  let (bs, r) := ((List.range 4096).mapM one).run { frm := if bit ctx[0].toNat 6 then sto else rne, srg := ctx[3] }
  (bs.flatten, r)

/-! ## Operand areas and waits (R242, R347, R348) -/

/-- The format that a type needs of the context (R243, R245). -/
def Job.needs (j : Job) : Option Nat :=
  match j.ty with
  | 1 | 8 => some 0
  | 2 => some 1
  | 3 => some 2
  | _ => none

/-- A 32-byte-aligned range of TCM that a matrix command may name. -/
def tcmArea (off n : Nat) : Bool := off % 32 == 0 && decide (0x800 ≤ off) && decide (off + n ≤ 0x7000)

/-- A 128-byte-aligned range of the crew's scratchpad. -/
def spadArea (spad off n : Nat) : Bool := off % 128 == 0 && decide (off + n ≤ spad)

/-- The A ranges of a command in each core's TCM: offset and bytes. -/
def Job.aRanges (j : Job) (sm : Bool) : List (Nat × Nat) :=
  let f4 := j.ty == 1 || j.ty == 8
  (wf j.cmd[1] 0 16, if f4 then 1024 else 4096) :: if f4 && !sm then [(wf j.cmd[1] 16 16, 256)] else []

/-- The B ranges of a command in the scratchpad. -/
def Job.bRanges (j : Job) (sm : Bool) : List (Nat × Nat) :=
  let f4 := j.ty == 1 || j.ty == 8
  (wf j.cmd[2] 0 24, if f4 then 8192 else 32768) :: if f4 && !sm then [(wf j.cmd[2] 24 24, 2048)] else []

/-- The context of a core number in a cluster. -/
def State.context (s : State) (cl core : Nat) : Vector Word 4 := (s.cluster cl).mx.ctxs.toList.getD (core % 8) #v[0, 0, 0, 0]

/-- SM of a context. -/
def ctxSm (ctx : Vector Word 4) : Bool := bit ctx[0].toNat 3

/-- The checks of format and areas in a cluster (R242, R243, R348): the error, 0 for none. -/
def State.mxCheck (s : State) (cl : Nat) (j : Job) : Nat :=
  let ctx := s.context cl j.core
  let sm := ctxSm ctx
  let spad := s.spadSize cl
  match j.needs with
  | some ef =>
    if field ctx[0].toNat 0 3 ≠ ef then 0x02
    else if (j.aRanges sm).all (fun r => tcmArea r.1 r.2) && (j.bRanges sm).all (fun r => spadArea spad r.1 r.2) then 0
    else 0x03
  | none =>
    if j.ty = 5 then (if spadArea spad (wf j.cmd[2] 0 24) (if field ctx[0].toNat 4 2 = 1 then 8192 else 16384) then 0 else 0x03)
    else if j.ty = 6 then (if tcmArea (wf j.cmd[1] 0 16) 32 then 0 else 0x03)
    else 0

/-- The bank's mode differs from the one that the command needs (R243). -/
def State.modeBad (s : State) (cl : Nat) (j : Job) : Bool :=
  match j.needs with
  | some ef => ((s.cluster cl).mx.banks.toList.getD j.bank {}).fp32 != (ef != 0)
  | none => false

/-- A read of B from an owner's scratchpad by a cluster's engine waits on an empty line (R158, R348, R351). -/
def State.bWaits (s : State) (owner cl : Nat) (j : Job) : Bool :=
  j.needs.isSome && (j.bRanges (ctxSm (s.context cl j.core))).any fun r => (s.cluster owner).lineWaits r.1 r.2

/-- An A read waits on the scoreboard of some core (R157, R348). -/
def State.aWaits (s : State) (cl : Nat) (j : Job) : Bool :=
  j.needs.isSome && (List.range 8).any fun g =>
    (j.aRanges (ctxSm (s.context cl j.core))).any fun r => (s.core (8 * cl + g)).loadWaits r.1 r.2

/-- Cycles of a fill (R348). -/
def Job.fillTime (j : Job) : Nat :=
  match j.needs with
  | some 0 => 40
  | some _ => 128
  | none => 0

/-- Service time (R241, R243 to R245). -/
def Job.service (j : Job) : Nat :=
  match j.ty with
  | 1 | 5 => 128
  | 2 | 3 => 512
  | 8 => 256
  | _ => 8

/-! ## Completion of any job (R232, R237, R245) -/

/-- The completion in the records of the other members of a quad, which keep their own IDs (R232, R245); a QMMA without a quad and one
dropped before its acceptance have a record of their own alone (R236, R245). -/
def State.writeMembers (s : State) (x : Job) : State :=
  if x.ty ≠ 8 || x.eng ≠ .qd || x.err = 6 || x.err = 1 then s
  else match s.quad x.pond (x.core / 8) with
    | none => s
    | some ms => (ms.filter (· != x.core / 8)).foldl (fun s m =>
        let core := 8 * m + x.core % 8
        (s.writeRecord (tcmKey core x.record) x.err x.flg.toNat x.isMatch x.res).observers core x.record) s

/-- The engine of a matrix job is free: its next selected command may be accepted (R348). -/
def State.freeEngine (s : State) (j : Nat) : State :=
  let busy := (s.clusters.filter fun c => c.2.mx.current == some j).map (·.1)
  busy.foldl (fun s c =>
    let s := s.updCluster c fun k => { k with mx := { k.mx with current := none } }
    match (s.cluster c).mx.selected with
    | some i => match s.job i with
      | some x =>
        if s.scheduled (rowOfType x.ty) i then s
        else s.later ((s.cluster c).mx.fillEnd - s.ctl.cycle) (rowOfType x.ty) i 0 0
      | none => s
    | none => s) s

/-- An earlier job of the same core in the copy hart is not complete (R229, R353). -/
def State.copyHeld (s : State) (j : Nat) (x : Job) : Bool :=
  x.eng == .cp && x.err != 1 && s.jobs.any fun y => decide (y.1 < j) && y.2.eng == .cp && y.2.core == x.core && y.2.accepted

/-- What follows a job's completion write: the copy hart and the communication thread accept their next jobs. -/
def State.afterJob (s : State) (x : Job) (j : Nat) : State :=
  let cl := x.core / 8
  match x.eng with
  | .cp =>
    let s := s.updCluster cl fun c =>
      -- the turn stays with the job that was to be served next (R353)
      let before := decide ((c.copy.active.findIdx? (· == j)).getD 32 < c.copy.turn)
      { c with copy := { c.copy with active := c.copy.active.filter (· != j), turn := c.copy.turn - b2n before } }
    let s := (s.copyAccept cl).kickFreed x.core
    (s.jobs.filter fun y => y.2.eng == .cp && y.2.core == x.core && y.2.phase == 10).foldl
      (fun s y => s.later 0 .jobCompletion y.1 0 0) s
  | .cl =>
    let s := if (s.core x.core).clCur = some j then s.updCore x.core fun c => { c with clCur := none } else s
    (s.clAccept x.core).kickFreed x.core
  | .mx | .qd => (s.reselect cl).kickFreed x.core

/-- JOB_COMPLETION (R232, R237): a completion at die scope or wider first brings every dirty byte home; a copy waits for the
earlier jobs of its core. -/
def execJobCompletion (s : State) : Host.Outcome State Fault Refusal :=
  let j := s.ctl.ev.a
  match s.job j with
  | some x =>
    let s := s.freeEngine j
    let cl := x.core / 8
    let sc := scopeOf x.csc
    if x.phase < 9 && s.mustWait cl sc then
      .next ((s.updJob j fun x => { x with phase := 9 }).releaseAct cl sc (.job j))
    else if s.copyHeld j x then .next (s.updJob j fun x => { x with phase := 10 })
    else .next (((s.writeMembers x).completeJob j).afterJob x j)
  | none => .next s

/-- A job ends with an error, without effect. -/
def State.failJob (s : State) (j e : Nat) : State :=
  (s.updJob j fun x => { x with err := e, accepted := true }).later 1 .jobCompletion j 0 0

/-! ## Selection (R229, R245, R348, R350, R351) -/

/-- The head of a core's queue is held behind an FMT.LD (R350). -/
def MxEngine.fmtHeld (m : MxEngine) (core j : Nat) : Bool := m.fmtWait.any fun w => w.1 == core && !w.2.2.2.contains j

/-- The place of a cluster in its quad's token order. -/
def State.quadPlace (s : State) (p cl : Nat) : Nat :=
  let at' := s.inPondAt p cl
  2 * (at'.2 % 2) + at'.1 % 2

/-- A command of ISSUE.QD that is a QMMA (R245); any other type there is an illegal command of its cluster alone. -/
def Job.isQmma (x : Job) : Bool := x.eng == .qd && x.ty == 8

/-- The quad of a QMMA, when there is one. -/
def State.quadOf (s : State) (x : Job) : Option (List Nat) :=
  if x.isQmma then s.quad x.pond (x.core / 8) else none

/-- The member that holds the token of a quad; its first member keeps it. -/
def State.tokenOf (s : State) (ms : List Nat) : Nat := (s.cluster (ms.headD 0)).mx.token

/-- The token moves on. -/
def State.moveToken (s : State) (ms : List Nat) : State :=
  let s := s.updCluster (ms.headD 0) fun c => { c with mx := { c.mx with token := (c.mx.token + 1) % 4 } }
  ms.foldl (fun s m => s.reselect m) s

/-- A command at the head of its queue may not be selected. -/
def State.headHeld (s : State) (cl core j : Nat) : Bool :=
  (s.cluster cl).mx.fmtHeld core j ||
    (match s.job j with
    | some x => match s.quadOf x with
      | some ms => s.tokenOf ms != s.quadPlace x.pond cl
      | none => false
    | none => false)

/-- The next selectable core in the rotation (R229). -/
def State.nextCore (s : State) (cl : Nat) : Option (Nat × Nat) :=
  let m := (s.cluster cl).mx
  match firstBelow (fun i =>
      match m.queues.toList.getD ((m.last + 1 + i) % 8) [] with
      | j :: _ => !s.headHeld cl ((m.last + 1 + i) % 8) j
      | [] => false) 8 0 with
  | some i => match m.queues.toList.getD ((m.last + 1 + i) % 8) [] with
    | j :: _ => some ((m.last + 1 + i) % 8, j)
    | [] => none
  | none => none

/-- A command takes the place of the selected one; its fill begins, and its acceptance is due when fill and current command
have ended (R348). -/
def State.selectJob (s : State) (cl j : Nat) (x : Job) : State :=
  let fe := s.ctl.cycle + x.fillTime
  let s := s.updCluster cl fun c => { c with mx := { c.mx with
    selected := some j, fillEnd := fe, filled := x.needs.isNone, shadowMerr := false } }
  if s.scheduled (rowOfType x.ty) j then s else s.at fe (.ev ⟨rowOfType x.ty, j, 0, 0, .none⟩)

/-- ENGINE_SELECTION (R229, R348). -/
def execEngineSelection (s : State) : Host.Outcome State Fault Refusal :=
  let cl := s.ctl.ev.a
  let m := (s.cluster cl).mx
  if m.selected.isSome then .next s
  else match m.quadNext with
    | some j =>
      let s := s.updCluster cl fun c => { c with mx := { c.mx with quadNext := none } }
      match s.job j with
      | some x => .next (s.selectJob cl j x)
      | none => .next (s.reselect cl)
    | none => match s.nextCore cl with
      | none => .next s
      | some (k, j) =>
        let s := s.updCluster cl fun c => { c with mx := { c.mx with
          last := k, queues := c.mx.queues.setIfInBounds k ((c.mx.queues.toList.getD k []).drop 1) } }
        let s := s.kickFreed (8 * cl + k)
        match s.job j with
        | none => .next (s.reselect cl)
        | some x =>
          let again (e : Nat) : State := (s.failJob j e).reselect cl
          if x.isQmma then
            match s.quadOf x with
            | none => .next (again 0x06)
            | some ms =>
              if x.illegal then .next ((again 0x04).moveToken ms)
              else
              let s := s.selectJob cl j x
              .next ((ms.filter (· != cl)).foldl (fun s c => s.later s.ctl.lat.hop .quadSignal c j 0) s)
          else if x.illegal then .next (again 0x04)
          else
            let e := s.mxCheck cl x
            if e ≠ 0 then .next (again e) else .next (s.selectJob cl j x)

/-- QUAD_SIGNAL (R351): the QMMA is this member's next command, unless its issuer's engine holds it no more. -/
def State.heldAtIssuer (s : State) (j : Nat) : Bool :=
  match s.job j with
  | some x => (s.cluster (x.core / 8)).mx.selected == some j
  | none => false

def execQuadSignal (s : State) : Host.Outcome State Fault Refusal :=
  let cl := s.ctl.ev.a
  if s.heldAtIssuer s.ctl.ev.b then
    .next ((s.updCluster cl fun c => { c with mx := { c.mx with quadNext := some s.ctl.ev.b } }).reselect cl)
  else .next s

/-! ## Acceptance (R348) -/

/-- The engine has this command selected, is free and its fill has ended. -/
def State.mayAccept (s : State) (cl j : Nat) : Bool :=
  let m := (s.cluster cl).mx
  m.selected == some j && m.current.isNone && m.filled

/-- The command is the current one; the shadow ring becomes the ring, and poison that its fill met is the job's (R325, R348). -/
def State.makeCurrent (s : State) (cl j : Nat) : State :=
  let bad := (s.cluster cl).mx.shadowMerr
  let s := s.updCluster cl fun c => { c with mx := { c.mx with
    selected := none, filled := false, current := some j, ring := c.mx.shadow } }
  (if bad then s.updJob j fun x => { x with flg := x.flg ||| flagMERR } else s).reselect cl

/-- A selected command is given up, and its fill with it (R348). -/
def State.discardFill (s : State) (cl : Nat) : State :=
  s.updCluster cl fun c => { c with mx := { c.mx with selected := none, filled := false } }

/-- The row of a command comes again shortly. -/
def State.pollRow (s : State) (j : Nat) (x : Job) : State := s.later 4 (rowOfType x.ty) j 0 0

/-- The command runs for its service time from now. -/
def State.serve (s : State) (cl j : Nat) (x : Job) (flg : Byte) : State :=
  let s := s.updJob j fun x => { x with flg := x.flg ||| flg }
  let s := s.updCluster cl fun c => { c with mx := { c.mx with currentEnd := s.ctl.cycle + x.service } }
  s.later x.service .jobCompletion j 0 0

/-- A bank of a cluster. -/
def State.bank (s : State) (cl b : Nat) : Bank := (s.cluster cl).mx.banks.toList.getD b {}

/-- A bank of a cluster set. -/
def State.setBank (s : State) (cl b : Nat) (x : Bank) : State :=
  s.updCluster cl fun c => { c with mx := { c.mx with banks := c.mx.banks.setIfInBounds b x } }

/-- Bytes of one operand read and whether a poisoned word stood among them; a poisoned word reads as zero (R143, R325). -/
def State.engineRead (s : State) (key n : Nat) : List Byte × Bool :=
  match s.mem.firstPoison key n with
  | none => (s.mem.read key n, false)
  | some _ => (s.mem.readClean key n, true)

/-- The codes of operands that an engine reads in a cluster's memories are checked (R324): where they stand and their bytes. -/
def State.checkAll (s : State) (cl : Nat) (ks : List (Nat × Nat)) : State := ks.foldl (fun s k => s.checkCodes cl k.1 k.2) s

/-- Reads of a cluster's memories that met poison are counted (R326). -/
def State.countReads (s : State) (cl n : Nat) : State :=
  s.updCluster cl fun c => { c with psnread := Nat.repeat sat32 n c.psnread }

/-- The eight latches of B rows of `w` element bytes a chunk, with 4 scale bytes a chunk or, under SM, scales of 1.0 (R240, R347);
how many reads met poison. -/
def State.latches (s : State) (cl w el sc : Nat) (f4 sm : Bool) : Vector Latch 8 × Nat :=
  let rows := (List.range 64).map fun n => s.engineRead (spadKey cl (el + 8 * w * n)) (8 * w)
  let scs := if f4 && !sm then (List.range 64).map fun n => s.engineRead (spadKey cl (sc + 32 * n)) 32 else []
  (Vector.ofFn fun c : Fin 8 =>
    { elems := rows.flatMap fun r => (r.1.drop (w * c.val)).take w,
      scales := if f4 then (if sm then List.replicate 256 0x60 else scs.flatMap fun r => (r.1.drop (4 * c.val)).take 4) else [] },
   (rows.filter (·.2)).length + (scs.filter (·.2)).length)

/-- The B operand of a command in an owner's scratchpad as latches, under a member's context. -/
def State.bLatches (s : State) (owner cl : Nat) (x : Job) : Vector Latch 8 × Nat :=
  let f4 := x.ty == 1 || x.ty == 8
  s.latches owner (if f4 then 16 else 64) (wf x.cmd[2] 0 24) (wf x.cmd[2] 24 24) f4 (ctxSm (s.context cl x.core))

/-- The same operand's bytes in the scratchpad, their codes checked. -/
def State.bChecked (s : State) (owner cl : Nat) (x : Job) : State :=
  let f4 := x.ty == 1 || x.ty == 8
  s.checkAll owner ((spadKey owner (wf x.cmd[2] 0 24), if f4 then 8192 else 32768) ::
    if f4 && !ctxSm (s.context cl x.core) then [(spadKey owner (wf x.cmd[2] 24 24), 2048)] else [])

/-- The A operand of a command in an owner's TCMs, `n` bytes of each and `k` of scales, their codes checked. -/
def State.aChecked (s : State) (owner : Nat) (x : Job) (n k : Nat) : State :=
  s.checkAll owner ((List.range 8).flatMap fun c =>
    [(tcmKey (8 * owner + c) (wf x.cmd[1] 0 16), n), (tcmKey (8 * owner + c) (wf x.cmd[1] 16 16), k)])

/-- The fill of a cluster's shadow ring from an owner's scratchpad (R348, R351): once its time has passed, and while no line of B is
empty. It reads as it ends, which R238 allows (log 70). -/
def State.fill (s : State) (owner cl j : Nat) (x : Job) : State :=
  let m := (s.cluster cl).mx
  if m.selected ≠ some j || m.filled || s.ctl.cycle < m.fillEnd || s.bWaits owner cl x then s
  else
    let s := s.bChecked owner cl x
    let (ls, n) := s.bLatches owner cl x
    (s.countReads owner n).updCluster cl fun c => { c with mx := { c.mx with shadow := ls, filled := true, shadowMerr := n != 0 } }

/-- The N-rows of B that latches hold, each as its 32 blocks in K order. -/
def ringF4 (r : Vector Latch 8) : Array (Array F4Block) :=
  let chunks := r.toList.map fun l => (List.range 64).map fun n => f4Row ((l.elems.drop (16 * n)).take 16) ((l.scales.drop (4 * n)).take 4)
  ((List.range 64).map fun n => (chunks.flatMap fun c => c.getD n []).toArray).toArray

/-- The 64 rows of A of a command in the TCMs of a cluster (R347); how many reads met poison. -/
def State.aF4 (s : State) (cl : Nat) (x : Job) (sm : Bool) : Array (Array F4Block) × Nat :=
  let rs := (List.range 64).map fun m =>
    let (e, b) := s.engineRead (tcmKey (8 * cl + m / 8) (wf x.cmd[1] 0 16 + 128 * (m % 8))) 128
    let (c, d) := if sm then (List.replicate 32 (0x60 : Byte), false)
      else s.engineRead (tcmKey (8 * cl + m / 8) (wf x.cmd[1] 16 16 + 32 * (m % 8))) 32
    ((f4Row e c).toArray, b2n b + b2n d)
  ((rs.map (·.1)).toArray, (rs.map (·.2)).foldl (· + ·) 0)

/-- One FP4 product into a cluster's bank: A from an owner's TCMs, B from latches; the flags. -/
def State.mulF4 (s : State) (aOwner cl : Nat) (x : Job) (ring : Vector Latch 8) : State × Byte :=
  let sm := ctxSm (s.context cl x.core)
  let s := s.aChecked aOwner x 1024 (if sm then 0 else 256)
  let a := s.aF4 aOwner x sm
  let b := ringF4 ring
  let (k, f) := (s.bank cl x.bank).each fun m n e => accRows (m / 8) e (a.1.getD m #[]) (b.getD n #[])
  ((s.setBank cl x.bank k).countReads aOwner a.2, f ||| (if a.2 ≠ 0 then flagMERR else 0))

/-- The N-rows of B that latches hold in a 16-bit format, each as its 32 blocks in K order. -/
def ringHalf (f : FFmt) (r : Vector Latch 8) : Array (Array (List Num)) :=
  let chunks := r.toList.map fun l => (List.range 64).map fun n => blocksOf 4 (halfRow f ((l.elems.drop (64 * n)).take 64))
  ((List.range 64).map fun n => (chunks.flatMap fun c => c.getD n []).toArray).toArray

/-- A BF16 or FP16 product into the bank. -/
def State.mulHalf (s : State) (cl : Nat) (x : Job) (f : FFmt) : State × Byte :=
  let s := s.aChecked cl x 4096 0
  let rs := (List.range 64).map fun m =>
    let (e, b) := s.engineRead (tcmKey (8 * cl + m / 8) (wf x.cmd[1] 0 16 + 512 * (m % 8))) 512
    ((blocksOf 32 (halfRow f e)).toArray, b)
  let a := (rs.map (·.1)).toArray
  let bad := (rs.filter (·.2)).length
  let b := ringHalf f (s.cluster cl).mx.ring
  let (k, fl) := (s.bank cl x.bank).each fun m n e =>
    let (v, g) := accHalf (m / 8) e.val (a.getD m #[]) (b.getD n #[])
    ({ e with val := v }, g)
  ((s.setBank cl x.bank k).countReads cl bad, fl ||| (if bad ≠ 0 then flagMERR else 0))

/-- The fill and the acceptance of a command of one cluster, and its effect: with an operand that waits, the row comes again; while
another command is current, the row comes when that ends. -/
def acceptMx (effect : Nat → Nat → Job → State → State × Byte) (s : State) : Host.Outcome State Fault Refusal :=
  let j := s.ctl.ev.a
  match s.job j with
  | none => .next s
  | some x =>
    let cl := x.core / 8
    let run (s : State) : State :=
      if s.aWaits cl x then s.pollRow j x
      else
        let (s, f) := effect cl j x s
        s.serve cl j x f
    if (s.cluster cl).mx.current = some j then .next (run s)
    else if (s.cluster cl).mx.selected ≠ some j then .next s
    else
      let s := s.fill cl cl j x
      if !(s.cluster cl).mx.filled then .next (s.pollRow j x)
      else if (s.cluster cl).mx.current.isSome then .next s
      else if s.modeBad cl x then .next (((s.discardFill cl).failJob j 0x05).reselect cl)
      else .next (run ((s.makeCurrent cl j).updJob j fun x => { x with accepted := true }))

/-- MMA.F4 (R243). -/
def execMmaF4 (s : State) : Host.Outcome State Fault Refusal :=
  acceptMx (fun cl _ x s => s.mulF4 cl cl x (s.cluster cl).mx.ring) s

/-- MMA.BF (R243). -/
def execMmaBf (s : State) : Host.Outcome State Fault Refusal :=
  acceptMx (fun cl _ x s => s.mulHalf cl x bf16) s

/-- MMA.H (R243). -/
def execMmaH (s : State) : Host.Outcome State Fault Refusal :=
  acceptMx (fun cl _ x s => s.mulHalf cl x fp16) s

/-- ACC.ZERO (R244). -/
def execAccZero (s : State) : Host.Outcome State Fault Refusal :=
  acceptMx (fun cl _ x s => (s.setBank cl x.bank { fp32 := x.mode }, 0)) s

/-- ACC.DRAIN (R244): the destination's lines are empty until it completes. -/
def execAccDrain (s : State) : Host.Outcome State Fault Refusal :=
  acceptMx (fun cl j x s =>
    let ctx := s.context cl x.core
    let b := s.bank cl x.bank
    let (bs, r) := drainBank b x.bank ctx
    let d := wf x.cmd[2] 0 24
    let ls := linesOf d bs.length
    let s := s.updCluster cl fun c => { c with
      empties := c.empties ++ ls.filter (!c.empties.contains ·),
      mx := { c.mx with ctxs := c.mx.ctxs.setIfInBounds (x.core % 8) (ctx.set 3 r.srg) } }
    let s : State := { s with mem := (s.mem.write (spadKey cl d) bs).clearPoison (spadKey cl d) bs.length }
    let s := s.updJob j fun x => { x with empties := ls }
    (if x.mode then s.setBank cl x.bank { fp32 := b.fp32 } else s, r.flags)) s

/-- FMT.SET (R241). -/
def execFmtSet (s : State) : Host.Outcome State Fault Refusal :=
  acceptMx (fun cl j x s =>
    let s := s.checkCodes cl (tcmKey x.core (wf x.cmd[1] 0 16)) 32
    let (bs, bad) := s.engineRead (tcmKey x.core (wf x.cmd[1] 0 16)) 32
    let s := s.countReads cl (b2n bad)
    let ws := wordsOf 4 bs
    let f : Byte := if bad then flagMERR else 0
    if badContext ws then (s.updJob j fun x => { x with err := 0x02 }, f)
    else
      let img : Vector Word 4 := #v[wordAt ws 0, wordAt ws 1, wordAt ws 2, wordAt ws 3]
      (s.updCluster cl fun c => { c with mx := { c.mx with ctxs := c.mx.ctxs.setIfInBounds (x.core % 8) img } }, f)) s

/-! ## QMMA (R245, R351) -/

/-- The error of the first failing member in token order, 0 when all pass. -/
def State.quadError (s : State) (ms : List Nat) (x : Job) : Nat :=
  (ms.map fun m => let e := s.mxCheck m x; if e ≠ 0 then e else if s.modeBad m x then 0x05 else 0).foldl
    (fun a e => if a = 0 then e else a) 0

/-- The joint product (R245): member (qr, qc) adds K half 0 and then half 1, with A from its row and B from its column; half 0 of
B stands in its ring and half 1 comes over the links during the compute (R351). -/
def State.quadProduct (s : State) (ms : List Nat) (x : Job) : State × Byte :=
  (List.range 4).foldl (fun (acc : State × Byte) i =>
    let m := ms.getD i 0
    let (s, f) := acc.1.mulF4 (ms.getD (i / 2 * 2) 0) m x (acc.1.cluster m).mx.ring
    let s := s.bChecked (ms.getD (2 + i % 2) 0) m x
    let (ls, n) := s.bLatches (ms.getD (2 + i % 2) 0) m x
    let (s, g) := (s.countReads (ms.getD (2 + i % 2) 0) n).mulF4 (ms.getD (i / 2 * 2 + 1) 0) m x ls
    (s, acc.2 ||| f ||| g ||| (if n ≠ 0 then flagMERR else 0))) (s, 0)

/-- The joint fill (R351): each member loads the half 0 operands of its column. -/
def State.quadFill (s : State) (ms : List Nat) (j : Nat) (x : Job) : State :=
  (List.range 4).foldl (fun s i => s.fill (ms.getD (i % 2) 0) (ms.getD i 0) j x) s

/-- An operand that the joint compute still reads waits: A of a member, or half 1 of B of a column. -/
def State.quadWaits (s : State) (ms : List Nat) (x : Job) : Bool :=
  (List.range 4).any fun i => s.aWaits (ms.getD i 0) x || s.bWaits (ms.getD (2 + i % 2) 0) (ms.getD i 0) x

/-- QMMA (R245, R351): joint fill, joint acceptance when all four engines are free and filled; the token moves on. -/
def execQmma (s : State) : Host.Outcome State Fault Refusal :=
  let j := s.ctl.ev.a
  match s.job j with
  | none => .next s
  | some x => match s.quadOf x with
    | none => .next s
    | some ms =>
      let run (s : State) : State :=
        if s.quadWaits ms x then s.pollRow j x
        else
          let (s, f) := s.quadProduct ms x
          ms.foldl (fun s m => s.updCluster m fun c => { c with mx := { c.mx with currentEnd := s.ctl.cycle + 256 } }) (s.serve (x.core / 8) j x f)
      if (s.cluster (x.core / 8)).mx.current = some j then .next (run s)
      else if !s.heldAtIssuer j then .next s
      else
        let s := s.quadFill ms j x
        if !(ms.all fun m => s.mayAccept m j) then .next (s.pollRow j x)
        else
          let e := s.quadError ms x
          if e ≠ 0 then
            let s := ms.foldl (fun s m => (s.discardFill m).reselect m) s
            .next ((s.failJob j e).moveToken ms)
          else
            let s := ms.foldl (fun s m => s.makeCurrent m j) s
            .next (run ((s.updJob j fun x => { x with accepted := true }).moveToken ms))

end Sys2Proof.Machine
end

