-- ==== Sys2Proof/Machine/Copy.lean ====
section
/-! DEFINITION. The copy hart (R246 to R251, R352, R353, R361): units of 128 bytes, seals, signals; and how a job reads and
writes its operands. -/

namespace Sys2Proof.Machine

/-! ## How a job reaches memory (R145, R248) -/

/-- The translation of a job's access; on a miss the walk is on its way and the job waits (R392). -/
def State.jobTranslate (s : State) (j : Nat) (x : Job) (va : Nat) (k : AccKind) : Except State (TlbEntry × State) :=
  let cl := x.core / 8
  match (s.cluster cl).lookup x.asid va k with
  | (some e, c) => .ok (e, s.setCluster cl c)
  | (none, c) =>
    .error (((s.setCluster cl c).updJob j fun x => { x with pending := 1 }).startWalk ⟨cl, x.asid, x.tenant, va, k, .job j, 0⟩)

/-- The lines that a range of `n` bytes meets: address and bytes in each. -/
def linePieces (va n : Nat) : Nat → List (Nat × Nat)
  | 0 => []
  | f + 1 => if n = 0 then [] else
    let k := min n (128 - va % 128)
    (va, k) :: linePieces (va + k) (n - k) f

/-- A job's read of global space through the cluster L1: bytes, whether a word was poisoned, or the state in which it
waits. -/
def State.jobLoad (s : State) (j : Nat) (x : Job) (tag : Byte) : List (Nat × Nat) → Except State (List Byte × Bool × State)
  | [] => .ok ([], false, s)
  | (va, n) :: rest =>
    match s.jobTranslate j x va .engineRead with
    | .error s => .error s
    | .ok (e, s) =>
      let cl := x.core / 8
      let m := byteMask (va % 128) n
      let held := match (s.cluster cl).l1Find x.asid (va / 128) with
        | some l => if l.valid &&& m = m then some l else none
        | none => none
      match held with
      | none => .error ((s.updJob j fun x => { x with pending := 1 }).toSlice
          { who := .job j, fill := true, va := va / 128 * 128, pa := e.phys va / 128 * 128, n := 128, asid := x.asid,
            tenant := x.tenant, key := e.key, ac := e.ac, cluster := cl, tag := tag })
      | some l =>
        match (s.updCluster cl fun c => c.l1Read l).jobLoad j x tag rest with
        | .error s => .error s
        | .ok (bs, bad, s) => .ok (l.bytes (va % 128) n ++ bs, bad || (l.scan.1.poisonAt (va % 128) n).isSome, s)

/-- A job's read of a cluster's memories, or of the image of its saved pond: the codes are checked (R324). -/
def State.jobBytes (s : State) (x : Job) (k n : Nat) : List Byte × Bool × State :=
  let s := if s.jobSaved x then s.homeScan k n else s.checkCodes (x.tcmCore / 8) k n
  let (bs, bad) := s.engineRead k n
  (bs, bad, s)

/-- A job's read through an operand's segment. Reads of scratchpad wait on empty lines that the job did not mark (R238). -/
def State.jobRead (s : State) (j : Nat) (x : Job) (g : Seg) (a n : Nat) : Except State (List Byte × Bool × State) :=
  let cl := x.tcmCore / 8
  match g.space with
  | .tcm => .ok (s.jobBytes x (s.jobKey x a) n)
  | .scratch =>
    if !s.jobSaved x && (s.cluster cl).empties.any fun l => !x.empties.contains l && overlap a n (128 * l) 128 then .error s
    else .ok (s.jobBytes x (s.jobSpad x a) n)
  | _ => s.jobLoad j x g.tag (linePieces a n (n / 128 + 2))

/-- The translations of the pieces of a job's write. -/
def State.jobMayWrite (s : State) (j : Nat) (x : Job) : List (Nat × Nat) → Except State State
  | [] => .ok s
  | (va, _) :: rest => match s.jobTranslate j x va .engineWrite with
    | .error s => .error s
    | .ok (_, s) => s.jobMayWrite j x rest

/-- A job's write through an operand's segment; a store to a sealed line is discarded at the home (R251). -/
def State.jobWrite (s : State) (j : Nat) (x : Job) (g : Seg) (a : Nat) (bs : List Byte) : Except State State :=
  let cl := x.core / 8
  let put (k : Nat) : State := { s with mem := (s.mem.write k bs).clearPoison k bs.length }
  match g.space with
  | .tcm => .ok (put (s.jobKey x a))
  | .scratch => .ok (put (s.jobSpad x a))
  | _ =>
    let ps := linePieces a bs.length (bs.length / 128 + 2)
    match s.jobMayWrite j x ps with
    | .error s => .error s
    | .ok s => .ok (ps.foldl (fun s p => s.storeLine cl x.asid p.1 ((bs.drop (p.1 - a)).take p.2) g.tag true) s)

/-- Poison that a job met (R251): FLG reports MERR and the event is counted. -/
def State.jobPoison (s : State) (j : Nat) (x : Job) (bad : Bool) : State :=
  if bad then (s.updJob j fun x => { x with flg := x.flg ||| flagMERR }).updCluster (x.core / 8) fun c =>
    { c with psnread := sat32 c.psnread }
  else s

/-! ## Units (R248, R353) -/

/-- Bytes of one range of a job: the length, a row or an element. -/
def Job.rangeBytes (x : Job) : Nat :=
  match x.ty with
  | 0x11 => x.width
  | 0x12 | 0x13 => x.esz
  | _ => x.len

/-- Ranges of a job. -/
def Job.ranges (x : Job) : Nat :=
  match x.ty with
  | 0x11 => x.rows
  | 0x12 | 0x13 => x.cnt
  | _ => 1

/-- Units of one range. A CP.2D of WIDTH 0, and a gather or scatter of ESZ 0, lies outside the ranges of R247, which names no outcome: it
moves nothing and reports no error: DESIGN CHOICE, unsafe, log 89. -/
def Job.perRange (x : Job) : Nat := (x.rangeBytes + 127) / 128

/-- Units of a job; a seal release moves nothing. -/
def Job.units (x : Job) : Nat := if x.ty = 0x10 && x.sgm = 2 then 0 else x.ranges * x.perRange

/-- A unit: its range, its offset there and its bytes. -/
def Job.unitAt (x : Job) (u : Nat) : Nat × Nat × Nat :=
  let o := 128 * (u % x.perRange)
  (u / x.perRange, o, min 128 (x.rangeBytes - o))

/-- Index `i` of a gather or scatter (R247); poisoned words read zero. -/
def State.jobIndex (s : State) (x : Job) (i : Nat) : Nat := leNat (s.mem.readClean (s.jobKey x (x.idx + 8 * i)) 8)

/-- The index of range `i` meets poison (R325). -/
def State.badIndex (s : State) (x : Job) (i : Nat) : Bool :=
  (x.ty == 0x12 || x.ty == 0x13) && (s.mem.firstPoison (s.jobKey x (x.idx + 8 * i)) 8).isSome

/-- The offsets of a range from the operands' segments: source and destination. -/
def State.rangeAt (s : State) (x : Job) (i : Nat) : Nat × Nat :=
  match x.ty with
  | 0x11 => (x.src.off + i * x.sstr, x.dst.off + i * x.dstr)
  | 0x12 => (x.src.off + s.jobIndex x i, x.dst.off + i * x.esz)
  | 0x13 => (x.src.off + i * x.esz, x.dst.off + s.jobIndex x i)
  | _ => (x.src.off, x.dst.off)

/-- An indexed element lies outside its segment (R22, R24, R248). -/
def State.outside (s : State) (x : Job) (i : Nat) : Bool :=
  let r := s.rangeAt x i
  let spad := s.spadSize (x.core / 8)
  match x.ty with
  | 0x12 => x.src.seg.beyond spad r.1 x.esz
  | 0x13 => x.dst.seg.beyond spad r.2 x.esz
  | _ => false

/-- Some unit from `u` on may still write the scratchpad line `l`. -/
def State.stillWrites (s : State) (x : Job) (u l : Nat) : Bool :=
  if x.ty = 0x13 then decide (u < x.units)
  else
    let b := x.dst.seg.base.toNat
    let meets (i o : Nat) : Bool := overlap (b + (s.rangeAt x i).2 + o) (x.rangeBytes - o) (128 * l) 128
    if x.units ≤ u then false
    else
      let i := u / x.perRange
      meets i (128 * (u % x.perRange)) || (List.range (x.ranges - i - 1)).any fun k => meets (i + 1 + k) 0

/-- The lines that a unit's write completed are full (R158). -/
def State.landed (s : State) (j : Nat) (x : Job) (a n u : Nat) : State :=
  if decide (x.dst.seg.space = .scratch) then
    let full := (linesOf a n).filter fun l => x.empties.contains l && !s.stillWrites x u l
    if full.isEmpty then s
    else
      let s := s.updCluster (x.core / 8) fun c => { c with empties := c.empties.filter (!full.contains ·) }
      (s.updJob j fun x => { x with empties := x.empties.filter (!full.contains ·) }).wakeCluster (x.core / 8) (· == .line)
  else s

/-- The bytes of a fill pattern from an offset (R248). -/
def patBytes (pat : Word) (o n : Nat) : List Byte :=
  (List.range n).map fun i => BitVec.ofNat 8 (field pat.toNat (8 * ((o + i) % 8)) 8)

/-- One unit of a job tried: read, then written; it is tried again while it waits. -/
def State.tryUnit (s : State) (j : Nat) (x : Job) : State :=
  let (i, o, n) := x.unitAt x.unit
  let s := if x.ty = 0x12 ∨ x.ty = 0x13 then (s.jobBytes x (s.jobKey x (x.idx + 8 * i)) 8).2.2 else s
  let badIdx := o == 0 && s.badIndex x i
  let next (s : State) : State := (s.updJob j fun x => { x with unit := x.unit + 1 }).jobPoison j x badIdx
  if s.outside x i then next (s.updJob j fun x => { x with err := 0x03 })
  else
    let r := s.rangeAt x i
    let src := x.src.seg.base.toNat + r.1 + o
    let dst := x.dst.seg.base.toNat + r.2 + o
    let got : Except State (List Byte × Bool × State) :=
      if x.ty = 0x14 then .ok (patBytes x.cmd[1] o n, false, s) else s.jobRead j x x.src.seg src n
    match got with
    | .error s => s
    | .ok (bs, bad, s) => match s.jobWrite j x x.dst.seg dst bs with
      | .error s => s
      | .ok s => (next (s.jobPoison j x bad)).landed j x dst n (x.unit + 1)

/-! ## Object requests of the hart (R249, R250, R361, R195) -/

/-- The scope of a job's object request: thread and core act as cluster (R195). -/
def Job.reqScope (x : Job) : Scope := scopeOf (max x.csc 2)

/-- An object request of a job; `ph` is the phase in which it awaits the answer. -/
def State.jobAsk (s : State) (j : Nat) (x : Job) (op : HomeOp) (ph : Nat) : State :=
  match s.jobTranslate j x x.obj .object with
  | .error s => s
  | .ok (e, s) =>
    (s.updJob j fun x => { x with phase := ph, pending := 1 }).toHome
      { who := .job j, op := op, va := x.obj, pa := e.phys x.obj, asid := x.asid, tenant := x.tenant, scope := x.reqScope,
        cluster := x.core / 8, key := e.key, ac := e.ac }

/-- The job is over; its completion follows. -/
def State.jobOver (s : State) (j : Nat) : State :=
  (s.updJob j fun x => { x with phase := 5 }).later 0 .jobCompletion j 0 0

/-- The object operation of CP.SIGNAL (R250). -/
def Job.signalOp (x : Job) : HomeOp :=
  match x.sgm with
  | 0 => .cntAdd 1
  | 1 => .barArrive
  | _ => .cntAdd (BitVec.ofNat 64 x.len)

/-- The units are done: a signal follows, or the job is over. -/
def State.unitsDone (s : State) (j : Nat) (x : Job) : State :=
  if x.ty = 0x15 then
    let cl := x.core / 8
    let s := s.updJob j fun x => { x with phase := 3 }
    if s.mustWait cl .device then (s.updJob j fun x => { x with pending := 1 }).releaseAct cl .device (.job j)
    else s.jobAsk j { x with phase := 3 } x.signalOp 4
  else s.jobOver j

/-- A job begins: its seal request, or its units. -/
def State.jobBegin (s : State) (j : Nat) (x : Job) : State :=
  if x.illegal then s.failJob j 0x04
  else if x.preErr ≠ 0 then (s.updJob j fun x => { x with res := BitVec.ofNat 64 x.preErr }).failJob j 0x0A
  else if x.ty = 0x10 && x.sgm = 2 && x.len ≠ 0 then s.failJob j 0x03
  else if (x.ty = 0x12 || x.ty = 0x13) && (x.idx % 8 != 0 || decide (0x7000 < x.idx + 8 * x.cnt)) then s.failJob j 0x03
  else (s.updJob j fun x => { x with phase := if x.ty = 0x10 && x.sgm != 0 then 1 else 2 }).kickJobs x j

/-- A job of the hart can go on. -/
def Job.movable (x : Job) : Bool := (x.phase == 1 || x.phase == 2 || x.phase == 3 || x.phase == 6) && x.pending == 0

/-- One turn of a job. A seal release releases at CSC before its request (R290). -/
def State.jobTurn (s : State) (j : Nat) (x : Job) : State :=
  match x.phase with
  | 1 =>
    let cl := x.core / 8
    let sc := scopeOf x.csc
    if x.sgm = 1 then s.jobAsk j x .copyTake 1
    else if s.mustWait cl sc then (s.updJob j fun x => { x with phase := 6, pending := 1 }).releaseAct cl sc (.job j)
    else s.jobAsk j x .copyRelease 1
  | 6 => s.jobAsk j x .copyRelease 1
  | 3 => s.jobAsk j x x.signalOp 4
  | _ => if x.unit < x.units then s.tryUnit j x else s.unitsDone j x

/-- The active jobs that can go on, in turn from the one after the last served. -/
def State.movableFrom (s : State) (cl : Nat) : List Nat :=
  let h := (s.cluster cl).copy
  let js := h.active.drop h.turn ++ h.active.take h.turn
  js.filter fun j => match s.job j with | some x => x.movable | none => false

/-- COPY_UNIT (R353): the hart serves the next active job; not while a page fault stops it. -/
def execCopyUnit (s : State) : Host.Outcome State Fault Refusal :=
  let cl := s.ctl.ev.a
  let h := (s.cluster cl).copy
  if !h.stopped.isEmpty then .next s
  else if s.ctl.cycle < h.nextAt then .next (s.at h.nextAt (.ev ⟨.copyUnit, cl, 0, 0, .none⟩))
  else match s.movableFrom cl with
    | [] => .next s
    | j :: _ => match s.job j with
      | none => .next s
      | some x =>
        let place := (h.active.findIdx? (· == j)).getD 0
        let s := s.updCluster cl fun c => { c with copy := { c.copy with
          turn := (place + 1) % h.active.length, nextAt := s.ctl.cycle + 2 } }
        let s := s.jobTurn j x
        if (s.movableFrom cl).isEmpty || s.scheduled .copyUnit cl then .next s
        else .next (s.later 2 .copyUnit cl 0 0)

/-- The answer to an object request of a job (R249, R250). -/
def State.copyReply (s : State) (j : Nat) (x : Job) (r : Reply) : State :=
  let s := s.updJob j fun x => { x with pending := 0, flg := if r.merr then x.flg ||| flagMERR else x.flg }
  if r.cause = 0x81 then s.failJob j 0x0B
  else if x.phase = 1 then
    if r.cause ≠ 0 || r.merr then s.failJob j 0x07
    else
      -- a seal take acquires at CSC (R290)
      let s := if x.sgm = 1 then s.acquireAct (x.core / 8) (scopeOf x.csc) else s
      let s := s.updJob j fun x => { x with
        phase := 2, res := r.value, isMatch := x.sgm == 2 || r.value.toNat == wf x.cmd[3] 32 32 }
      s.kickJobs x j
  else if r.cause ≠ 0 then (s.updJob j fun x => { x with res := BitVec.ofNat 64 r.cause }).failJob j 0x08
  else (s.updJob j fun x => { x with res := r.value }).jobOver j

/-- The row of a copy command: the job begins. -/
def copyRow (s : State) : Host.Outcome State Fault Refusal :=
  match s.job s.ctl.ev.a with
  | some x => .next (s.jobBegin s.ctl.ev.a x)
  | none => .next s

/-- CP.1D (R248, R249). -/
def execCp1d (s : State) : Host.Outcome State Fault Refusal := copyRow s
/-- CP.2D (R248). -/
def execCp2d (s : State) : Host.Outcome State Fault Refusal := copyRow s
/-- CP.GATHER (R248). -/
def execCpGather (s : State) : Host.Outcome State Fault Refusal := copyRow s
/-- CP.SCATTER (R248). -/
def execCpScatter (s : State) : Host.Outcome State Fault Refusal := copyRow s
/-- CP.FILL (R248). -/
def execCpFill (s : State) : Host.Outcome State Fault Refusal := copyRow s
/-- CP.SIGNAL (R250). -/
def execCpSignal (s : State) : Host.Outcome State Fault Refusal := copyRow s

end Sys2Proof.Machine
end

