-- ==== Sys2Proof/Machine/Groups.lean ====
section
/-! DEFINITION. Collectives (R252, R354 to R360) and GSTORE (R267): the group tables, rounds and their combining, deliveries,
the communication threads' jobs. -/

namespace Sys2Proof.Machine

/-! ## Group entries (R356) -/

/-- Fields of an entry. -/
def geState (e : Vector Word 4) : Nat := wf e[0] 62 2
def geOp (e : Vector Word 4) : Nat := wf e[0] 59 3
def geFmt (e : Vector Word 4) : Nat := wf e[0] 56 3
def geTen (e : Vector Word 4) : Nat := wf e[0] 48 8
def gePar (e : Vector Word 4) : Nat := wf e[0] 40 8
def geDlv (e : Vector Word 4) : Nat := 16 * wf e[0] 0 11
def geCtr (e : Vector Word 4) : Nat := wf e[1] 0 52

/-- The ports of a mask from bit `i` up. -/
def maskBits (w n base : Nat) : List Nat := ((List.range n).filter fun i => bit w i).map (base + ·)

/-- The child ports, ascending. -/
def geChildren (e : Vector Word 4) : List Nat := maskBits e[2].toNat 64 0 ++ maskBits (wf e[3] 0 9) 9 64

/-- The local contributors of an entry of a die router: core numbers within the die, ascending. -/
def geLocals (e : Vector Word 4) : List Nat :=
  let col := wf e[0] 36 4
  let row := wf e[0] 32 4
  let w := wf e[0] 28 4 + 1
  let h := wf e[0] 24 4 + 1
  (List.range h).flatMap fun r => (List.range w).flatMap fun c =>
    if row + r < 16 && col + c < 16 then maskBits (wf e[0] 16 8) 8 (8 * (16 * (row + r) + col + c)) else []

/-- Routers 0 to 7 are the dies', 8 and 9 the X-dies'. The contributors of an entry, as rounds know them. -/
def geKeys (r : Nat) (e : Vector Word 4) : List Nat :=
  (if r < 8 then geLocals e else []) ++ (geChildren e).map (0x10000 + ·)

/-- The router at a port of a router of this device; none at a Trodon port (R355). -/
def portRouter (r p : Nat) : Option Nat :=
  if r < 8 then (if p < 10 then some p else none)
  else if p < 64 then none
  else if p < 72 then some (p - 64)
  else some (17 - r)

/-- The port by which a router names another. -/
def portTo (r other : Nat) : Nat := if r < 8 then other else if other < 8 then 64 + other else 72

/-- A group table of a router. -/
def State.groupsAt (s : State) (r : Nat) : GroupRouter := if r < 8 then (s.die r).groups else (s.xdie (r - 8)).groups

/-- Its update. -/
def State.updGroups (s : State) (r : Nat) (f : GroupRouter → GroupRouter) : State :=
  if r < 8 then s.updDie r fun d => { d with groups := f d.groups } else s.updXdie (r - 8) fun x => { x with groups := f x.groups }

/-- A device reached through a Trodon port: the lowest whose mask names it. -/
def State.farDevice (s : State) (xd p : Nat) : Nat :=
  match (s.xdie xd).fwd.find? fun f => bit f.2.toNat (64 * xd + p) with
  | some (d, _) => d
  | none => 0

/-! ## Operators (R358) -/

/-- A group's element as the routers carry it: floats widened to FP32. -/
def widenIn (fmt : Nat) (v : Word) : Word × Byte :=
  match fmt with
  | 0 | 2 => (BitVec.ofNat 64 (v.toNat % 2 ^ 32), 0)
  | 1 => let (c, f) := widen bf16 fp32 (v.toNat % 2 ^ 16); (BitVec.ofNat 64 c, f)
  | _ => (v, 0)

/-- A delivered element in the group's format: BF16 rounded once. -/
def narrowOut (fmt : Nat) (v : Word) : Word :=
  if fmt = 1 then BitVec.ofNat 64 ((convert fp32 bf16 v.toNat).run { frm := rne, srg := 0 }).1 else v

/-- Op(v, y) (R358). -/
def groupOp (op fmt : Nat) (v y : Word) : Word × Byte :=
  if fmt ≤ 1 then
    match op with
    | 0 => let (c, r) := (fAdd fp32 (fp32.read v.toNat) (fp32.read y.toNat)).run { frm := rne, srg := 0 }
      (BitVec.ofNat 64 c, r.flags)
    | k => let (c, f) := fMinMax fp32 (k == 2) v.toNat y.toNat; (BitVec.ofNat 64 c, f)
  else
    let n := if fmt = 2 then 32 else 64
    let a := signed n v.toNat
    let b := signed n y.toNat
    let r : Nat := match op with
      | 0 => wrapInt n (a + b)
      | 1 => wrapInt n (min a b)
      | 2 => wrapInt n (max a b)
      | 3 => Nat.land v.toNat y.toNat % 2 ^ n
      | _ => Nat.lor v.toNat y.toNat % 2 ^ n
    (BitVec.ofNat 64 r, 0)

/-- A broadcast's participants keep the first value (R252). -/
def bcastSig : Nat := 0x21

/-- What the commands of a round must agree in: TYPE, CHUNK and COUNT (R252). -/
def Job.sig (x : Job) : Nat := x.ty + 2 ^ 8 * x.chunk + 2 ^ 24 * x.elems

/-- The values of two contributions combined, with the flags. -/
def combine2 (op fmt : Nat) (keep : Bool) (a b : List Word × Byte) : List Word × Byte :=
  if keep then (a.1, a.2 ||| b.2)
  else
    let rs := List.zipWith (groupOp op fmt) a.1 b.1
    (rs.map (·.1), rs.foldl (fun f r => f ||| r.2) (a.2 ||| b.2))

/-- The parts of a round in the order of the contributors (R357). -/
def inOrder (keys : List Nat) (ps : List Part) : List Part := keys.filterMap fun k => ps.find? (·.key == k)

/-- The round's value, its flags, the commands' signature and its error: 9 when the contributions differ in their number of
elements or the commands disagree. -/
def combineRound (e : Vector Word 4) (ps : List Part) : List Word × Byte × Nat × Nat :=
  match ps with
  | [] => ([], 0, 0, 0)
  | p :: t =>
    let sigs := (ps.map (·.sig)).filter (· != 0)
    let sig := sigs.headD 0
    let bad := ps.any (fun q => q.err != 0 || q.vals.length != p.vals.length) || sigs.any (· != sig)
    if bad then ([], 0, sig, 9)
    else
      let (v, f) := t.foldl (fun a q => combine2 (geOp e) (geFmt e) (sig % 256 == bcastSig) a (q.vals, q.flg)) (p.vals, p.flg)
      (v, f, sig, 0)

/-! ## Contributions (R357) -/

/-- A round with a part added. -/
def addPart (grp num : Nat) (p : Part) : List Round → List Round
  | [] => [{ group := grp, num := num, parts := [p] }]
  | r :: t => if r.group = grp && r.num = num then { r with parts := r.parts ++ [p] } :: t else r :: addPart grp num p t

/-- A round of a router. -/
def GroupRouter.round (g : GroupRouter) (grp num : Nat) : Option Round := g.rounds.find? fun r => r.group == grp && r.num == num

/-- A contribution or delivery sent to another device through a port of the tree (R357, R377): group, round, flags and error in
word 3, with whether the path leads to the first contributor and whether the round is of GSTOREs. It is unordered data on VC3
(R364, R377). -/
def State.groupPacket (s : State) (xd p op grp num : Nat) (sig err tenant sagt : Nat) (first store : Bool) (flg : Byte)
    (vals : List Word) (m : Msg) : State :=
  let c := s.ctl.nextMsg
  let arg : Word := BitVec.ofNat 64
    (grp + 2 ^ 12 * (num % 2 ^ 32) + 2 ^ 44 * flg.toNat + 2 ^ 52 * (err % 2 ^ 8) + 2 ^ 60 * b2n first + 2 ^ 61 * b2n store)
  (s.addMsg m).sendFabric xd sagt (s.farDevice xd p) tenant 3 false op 0 arg (bytesOf (BitVec.ofNat 64 sig :: vals)) c (64 * xd + p)

/-- A delivery on its way from a router to the contributor behind a port. -/
def State.deliverTo (s : State) (d : Delivery) (p num : Nat) (first : Bool) : State :=
  match portRouter d.router p with
  | some q => s.post s.ctl.lat.link .groupDelivery (.delivery { d with router := q, num := num, first := first, ack := .nobody })
  | none => s.groupPacket (d.router - 8) p 0x0A d.group num 0 d.err d.tenant d.sagt first d.store d.flg d.vals
      (.delivery { d with num := num, first := first, ack := .nobody })

/-- A round that has all its parts goes up to the parent, or is delivered at the root. -/
def State.closeRound (s : State) (r grp num : Nat) : State :=
  let g := s.groupsAt r
  let e := g.entry grp
  match g.round grp num with
  | some x =>
    let keys := geKeys r e
    if x.sent || !(keys.all fun k => x.parts.any (·.key == k)) then s
    else
      let ps := inOrder keys x.parts
      let (v, f, sig, err) := combineRound e ps
      let sagt := match ps with | p :: _ => p.sagt | [] => 0
      let s := s.updGroups r fun g => { g with rounds := g.rounds.map fun y =>
        if y.group = grp && y.num = num then { y with sent := true } else y }
      if gePar e = 0xFF then
        s.post s.ctl.lat.link .groupDelivery (.delivery ⟨r, grp, num, v, f, err, geTen e, true, sig == 0, sagt, .nobody⟩)
      else match portRouter r (gePar e) with
        | some q => s.post s.ctl.lat.link .groupContribution
            (.contribution ⟨q, grp, 0x10000 + portTo q r, v, f, .nobody, geTen e, num, sig, err, 0, sagt, .nobody⟩)
        | none => s.groupPacket (r - 8) (gePar e) 0x09 grp num sig err (geTen e) sagt false false f v
            (.contribution ⟨r, grp, 0, v, f, .nobody, geTen e, num, sig, err, 0, sagt, .nobody⟩)
  | none => s

/-- A contributor may be the first of its group's order: it is on every router of the tree that this device holds. A parent on
another device tells it at the delivery (R357). -/
def State.mayBeFirst (s : State) (grp : Nat) : Nat → Nat → Nat → Bool
  | 0, _, _ => false
  | n + 1, r, key =>
    let e := s.groupEntry r grp
    (geKeys r e).head? == some key &&
      (gePar e == 0xFF || (match portRouter r (gePar e) with
        | some q => s.mayBeFirst grp n q (0x10000 + portTo q r)
        | none => true))

/-- A CL job takes no result: a reduction's participant that cannot be the root, which has nothing to wait for once its parent has
taken its contribution (R252). -/
def State.givesOnly (s : State) (x : Job) : Bool :=
  x.ty == 0x20 && x.elems != 0 && !s.mayBeFirst x.group 10 (x.core / 2048) (x.core % 2048)

/-- A job's reply that a chunk has been lost or abandoned ends it. -/
def State.clFail (s : State) (a : Agent) (e : Nat) : State :=
  match a with
  | .job j => match s.job j with
    | some x => if x.phase < 5 then (s.updJob j fun x => { x with phase := 5, err := e }).later 0 .jobCompletion j 0 0 else s
    | none => s
  | _ => s

/-! ## Whose contribution it is (R253, R342, R354) -/

/-- Where the crew stands that a contribution was made for: its core, or, while its pond is saved, the pond, the crew and the core's
number. A job knows its core; a GSTORE names pond, crew and core in place of a chunk (see `State.storeId`). -/
def State.crewPlace (s : State) (who : Agent) (core chunk : Nat) : Except (Nat × Nat × Nat) Nat :=
  match who with
  | .job j => match s.job j with
    | some x => match s.pond x.pond with
      | some p => if p.isSaved then
          .error (x.pond, (clusterRow (x.tcmCore / 8) - p.row) * p.w + (clusterCol (x.tcmCore / 8) - p.col), x.tcmCore % 8)
        else .ok x.tcmCore
      | none => .ok core
    | none => .ok core
  | _ => match s.pond (chunk / 2 ^ 20) with
    | some p =>
      let n := chunk % 2 ^ 20 / 8
      if p.isSaved then .error (chunk / 2 ^ 20, n, chunk % 8) else .ok (8 * p.clusters.getD n 0 + chunk % 8)
    | none => .ok core

/-- What a GSTORE of a core names its crew by. -/
def State.storeId (s : State) (pond core : Nat) : Nat :=
  match s.pond pond with
  | some p => pond * 2 ^ 20 + ((clusterRow (core / 8) - p.row) * p.w + (clusterCol (core / 8) - p.col)) * 8 + core % 8
  | none => 0

/-- What is kept of a cluster of a saved pond, changed. -/
def State.updKept (s : State) (p n : Nat) (f : KeptCluster → KeptCluster) : State :=
  s.updPond p fun x => { x with kept := x.kept.mapIdx fun i k => if i = n then f k else k }

/-- What is kept of one of its cores, changed: counts, groups of open rounds, groups whose round gave no value. -/
def KeptCluster.updCore (k : KeptCluster) (j : Nat) (f : Tbl Nat × List Nat × List Nat → Tbl Nat × List Nat × List Nat) : KeptCluster :=
  { k with cores := k.cores.mapIdx fun i c => if i = j then (c.1, f c.2) else c }

/-- The interface's count of the crew that a contribution was made for. -/
def State.crewCount (s : State) (who : Agent) (core chunk : Nat) (d : Int) : State :=
  match s.crewPlace who core chunk with
  | .ok c => s.probeCount (c / 8) d
  | .error (p, n, _) => s.updKept p n fun k => { k with probe := { k.probe with count := k.probe.count + d } }

/-- The contributions of a crew's core to a group since the launch start, the next one's number (R354). -/
def State.groupCount (s : State) (who : Agent) (core chunk grp : Nat) : Nat :=
  match s.crewPlace who core chunk with
  | .ok c => (s.core c).groupRound.get 0 grp
  | .error (p, n, j) => match s.pond p with
    | some x => (((x.kept.getD n ⟨0, {}, {}, []⟩).cores.getD j ([], [], [], [])).2.1).get 0 grp
    | none => 0

/-- That count with one more. -/
def State.groupNext (s : State) (who : Agent) (core chunk grp : Nat) : State :=
  let v := s.groupCount who core chunk grp + 1
  match s.crewPlace who core chunk with
  | .ok c => s.updCore c fun k => { k with groupRound := k.groupRound.set grp v }
  | .error (p, n, j) => s.updKept p n fun k => k.updCore j fun c => (c.1.set grp v, c.2)

/-- A core's GSTORE of a group is over; one whose round gave no value makes the next raise cause 0x82 (R357). -/
def State.storeOver (s : State) (core chunk grp : Nat) (bad : Bool) : State :=
  let noted (l : List Nat) : List Nat := if !bad || l.contains grp then l else grp :: l
  match s.crewPlace .nobody core chunk with
  | .ok c => (s.updCore c fun k => { k with
      groupOpen := k.groupOpen.filter (· != grp), groupBad := noted k.groupBad }).wakeCluster (c / 8) (· == .group)
  | .error (p, n, j) => s.updKept p n fun k => k.updCore j fun c => (c.1, c.2.1.filter (· != grp), noted c.2.2)

/-- A local contributor learns that its contribution of a round is lost or abandoned. -/
def State.partLost (s : State) (core grp : Nat) (who : Agent) (chunk e : Nat) : State :=
  let s := s.crewCount who core chunk (-1)
  match who with
  | .job _ => s.clFail who e
  | _ => s.storeOver core chunk grp true

/-- A contribution is not taken: those whose values it holds learn it with an error (R359, R369). -/
def State.refuseContribution (s : State) (c : Contribution) (e : Nat) : State :=
  if c.key < 0x10000 then s.partLost (2048 * c.router + c.key) c.group c.who c.chunk e
  else s.deliverTo ⟨c.router, c.group, c.num, [], 0, e, c.tenant, false, false, c.sagt, .nobody⟩ (c.key - 0x10000) c.num false

/-- A round of a group is open on some router of the device. -/
def State.roundOpen (s : State) (grp num : Nat) : Bool := (List.range 10).any fun r => ((s.groupsAt r).round grp num).isSome

/-- GROUP_CONTRIBUTION (R357, R359, R369): a contribution reaches a router. -/
def execGroupContribution (s : State) : Host.Outcome State Fault Refusal :=
  let i := s.ctl.ev.a
  match s.msgs.find i with
  | some (.contribution c) =>
    let s := s.dropMsg i
    let e := s.groupEntry c.router c.group
    let done (s : State) : Host.Outcome State Fault Refusal := .next (s.ackFabric (4 * (c.router - 8)) c.ack {})
    if !member (s.routerMap c.router) c.tenant then
      done (((s.countTviol c.router).postMeq { tenant := c.tenant, cause := 0x81, kind := 4 }).refuseContribution c 0x0B)
    else if geState e = 0 || !(geKeys c.router e).contains c.key then done (s.refuseContribution c 0x09)
    else if geTen e ≠ c.tenant then
      done (((s.countTviol c.router).postMeq { tenant := c.tenant, cause := 0x81, kind := 4 }).refuseContribution c 0x0B)
    -- a core's contribution on its way when the group was marked retiring opens no round either (R360)
    else if geState e = 2 && decide (c.key < 0x10000) && !s.roundOpen c.group c.num then done (s.refuseContribution c 0x09)
    else
      let s := s.updGroups c.router fun g => { g with
        rounds := addPart c.group c.num ⟨c.key, c.vals, c.flg, c.who, c.num, c.sig, c.err, c.chunk, c.sagt⟩ g.rounds }
      let s := match c.who with
        | .job j => match s.job j with
          | some x => if s.givesOnly x then (s.updJob j fun x => { x with done := x.done + 1 }).kickJobs x j else s
          | none => s
        | _ => s
      done (s.closeRound c.router c.group c.num)
  | _ => .fault .noSuchHappening

/-! ## Deliveries (R357, R359) -/

/-- Bytes of an element in memory. -/
def elemBytes (fmt : Nat) (v : Word) : List Byte := leBytes (fmtBytes fmt) v.toNat

/-- A delivered element as its bytes: a broadcast's as its source holds it, any other in the group's format (R252, R358). -/
def Job.delivered (x : Job) (fmt : Nat) (v : Word) : List Byte := elemBytes fmt (if x.ty = bcastSig then v else narrowOut fmt v)

/-- A CL job takes a round's result: the flags whatever it does with the value (R358), and the value where it is written (R252). -/
def State.deliverJob (s : State) (j : Nat) (x : Job) (d : Delivery) (fmt chunk : Nat) (first : Bool) : State :=
  if d.err ≠ 0 then s.clFail (.job j) d.err
  else
    let gives := s.givesOnly x
    let s := s.updJob j fun x => { x with flg := x.flg ||| d.flg }
    if gives then s
    else if x.ty = 0x20 && x.elems != 0 && !first then (s.updJob j fun x => { x with done := x.done + 1 }).kickJobs x j
    else (s.updJob j fun x => { x with inbox := x.inbox ++ [(chunk, d.vals.flatMap (x.delivered fmt))] }).kickJobs x j

/-- A GSTORE's core takes the result: the value and the round number in its TCM, or in the saved image (R342, R359). -/
def State.deliverStore (s : State) (core chunk grp : Nat) (e : Vector Word 4) (d : Delivery) (num : Nat) : State :=
  let s := s.storeOver core chunk grp (d.err != 0)
  if d.err ≠ 0 then s
  else
    let a : Option Nat := match s.crewPlace .nobody core chunk with
      | .ok c => some (tcmKey c (geDlv e))
      | .error (p, n, j) => match s.pond p with
        | some x => (match x.state with
          | .saved area | .resuming _ _ area =>
            some (s.key (area + n * blockSize ((wf x.launch.w5 0 19 + 16383) / 16384 * 16384) + 0x8400 + 0x7000 * j + geDlv e))
          | _ => none)
        | none => none
    match a with
    | some a => { s with mem := (s.mem.write a (leBytes 8 (narrowOut (geFmt e) (wordAt d.vals 0)).toNat ++ leBytes 8 num)).clearPoison a 16 }
    | none => s

/-- The delivery counter of a die router's entry rises (R359). The access goes under the key that the slice holds the line
with. -/
def State.countDelivery (s : State) (r : Nat) (e : Vector Word 4) : State :=
  if geCtr e = 0 then s
  else
    s.toHome { who := .nobody, op := .cntAdd 1, va := 0, pa := geCtr e, tenant := geTen e, scope := .device, cluster := 256 * r,
               key := s.lineKey (s.key (geCtr e)) }

/-- A part of a delivered round takes the result: on towards another router, or at a local contributor. -/
def State.deliverPart (s : State) (d : Delivery) (e : Vector Word 4) (p : Part) : State :=
  let first := d.first && (geKeys d.router e).head? == some p.key
  if 0x10000 ≤ p.key then s.deliverTo d (p.key - 0x10000) p.num first
  else
    let core := 2048 * d.router + p.key
    let s := s.crewCount p.who core p.chunk (-1)
    match p.who with
    | .job j => match s.job j with
      | some x => s.deliverJob j x d (geFmt e) p.chunk first
      | none => s
    | _ => s.deliverStore core p.chunk d.group e d p.num

/-- GROUP_DELIVERY (R357, R359, R369): a round's result reaches a router. Every die router of a round of GSTOREs counts it. -/
def execGroupDelivery (s : State) : Host.Outcome State Fault Refusal :=
  let i := s.ctl.ev.a
  match s.msgs.find i with
  | some (.delivery d) =>
    let s := (s.dropMsg i).ackFabric (4 * (d.router - 8)) d.ack {}
    if !member (s.routerMap d.router) d.tenant then
      .next ((s.countTviol d.router).postMeq { tenant := d.tenant, cause := 0x81, kind := 4 })
    else
      let e := s.groupEntry d.router d.group
      match (s.groupsAt d.router).round d.group d.num with
      | some x =>
        let s := s.updGroups d.router fun g => { g with rounds := g.rounds.filter fun y => !(y.group == d.group && y.num == d.num) }
        let s := x.parts.foldl (fun s p => s.deliverPart d e p) s
        let stores := d.err = 0 && d.router < 8 && (d.store || x.parts.any fun p => decide (p.key < 0x10000) && p.who == .nobody)
        .next (if stores then s.countDelivery d.router e else s)
      | none => .next s
  | _ => .fault .noSuchHappening

/-! ## Retirement (R360) -/

/-- The rounds of a group at a router end without delivery. -/
def State.abandonRounds (s : State) (r grp : Nat) : State :=
  let g := s.groupsAt r
  let mine := g.rounds.filter (·.group == grp)
  let s := s.updGroups r fun g => { g with rounds := g.rounds.filter (·.group != grp) }
  mine.foldl (fun s x => x.parts.foldl (fun s p =>
    if 0x10000 ≤ p.key then s else s.partLost (2048 * r + p.key) grp p.who p.chunk 0x09) s) s

/-- The cores' counts of contributions to a group that is no more: a group that the host writes under its number later is another
(R354, R360; log 42). -/
def State.forgetGroup (s : State) (grp : Nat) : State :=
  let kept (k : KeptCluster) : KeptCluster := { k with cores := k.cores.map fun c => (c.1, c.2.1.erase grp, c.2.2.1, c.2.2.2) }
  let s : State := { s with cores := s.cores.map fun c => (c.1, { c.2 with groupRound := c.2.groupRound.erase grp }) }
  s.updDev fun d => { d with ponds := d.ponds.map fun p => (p.1, { p.2 with kept := p.2.kept.map kept }) }

/-- Every entry of a group's tree on this device is made invalid. -/
def State.retireGroup (s : State) (grp : Nat) : State :=
  (List.range 10).foldl (fun s r =>
    let e := s.groupEntry r grp
    if geState e = 2 then
      ((s.abandonRounds r grp).forgetGroup grp).updGroups r fun g => { g with
        entries := g.entries.set grp (e.set 0 (putField e[0] 62 2 0)) }
    else s) s

/-- A pond holds a contributor of a group. -/
def State.contributes (s : State) (p : Pond) (grp : Nat) : Bool :=
  p.clusters.any fun c =>
    let e := s.groupEntry (c / 256) grp
    geState e != 0 && (geLocals e).any fun k => k / 8 == c % 256

/-- Some pond that has started and not ended holds a contributor of a group. -/
def State.groupLives (s : State) (grp : Nat) : Bool :=
  s.dev.ponds.any fun p => p.2.isLive && s.contributes p.2 grp

/-- The groups marked retiring in some router. -/
def State.retiring (s : State) : List Nat :=
  ((List.range 10).flatMap fun r => ((s.groupsAt r).entries.filter fun e => geState e.2 == 2).map (·.1)).dedup

/-! ## CL jobs (R252, R354) -/

/-- Chunks of a job. -/
def Job.chunks (x : Job) : Nat := if x.elems = 0 then 1 else (x.elems + x.chunk - 1) / x.chunk

/-- Elements of a chunk. -/
def Job.chunkElems (x : Job) (k : Nat) : Nat := min x.chunk (x.elems - k * x.chunk)

/-- A contribution of a core to its die router; its round is the count of the group since the launch start (R354, R357),
which rises. -/
def State.contribute (s : State) (core grp : Nat) (vals : List Word) (flg : Byte) (who : Agent) (tenant sig chunk sagt : Nat) : State :=
  let n := s.groupCount who core chunk grp
  let s := s.groupNext who core chunk grp
  (s.crewCount who core chunk 1).post s.ctl.lat.link .groupContribution
    (.contribution ⟨core / 2048, grp, core % 2048, vals, flg, who, tenant, n, sig, 0, chunk, sagt, .nobody⟩)

/-- The values of a chunk's bytes with the flags of their widening; a broadcast's (`raw`) as they stand (R252). -/
def chunkVals (fmt : Nat) (raw : Bool) (n : Nat) (bs : List Byte) : List Word × Byte :=
  match n with
  | 0 => ([], 0)
  | n + 1 =>
    let z := fmtBytes fmt
    let v := BitVec.ofNat 64 (leNat (bs.take z))
    let (v, f) := if raw then (v, 0) else widenIn fmt v
    let (vs, g) := chunkVals fmt raw n (bs.drop z)
    (v :: vs, f ||| g)

/-- A contribution of a core would open a new round: none of the open rounds of the device lacks it (R360). -/
def State.opensRound (s : State) (who : Agent) (core chunk grp : Nat) : Bool := !s.roundOpen grp (s.groupCount who core chunk grp)

/-- The oldest delivered chunk is written; none when its write waits. -/
def State.clWrite (s : State) (j : Nat) (x : Job) (k : Nat) (bs : List Byte) (z : Nat) : Except State State :=
  let landed : Except State State :=
    if x.elems != 0 then s.jobWrite j x x.dst.seg (x.dst.seg.base.toNat + x.dst.off + z * (k * x.chunk)) bs else .ok s
  match landed with
  | .error s => .error s
  | .ok s => .ok (s.updJob j fun x => { x with inbox := x.inbox.drop 1, done := x.done + 1 })

/-- A job that waits for an empty line of the scratchpad looks again. -/
def State.clPoll (s : State) (j : Nat) (x : Job) : State :=
  match s.job j with
  | some y => if y.pending = 0 then s.later 4 .clChunk x.core j 0 else s
  | none => s

/-- One turn of a CL job: a delivered chunk is written, else the next chunk is sent while fewer than four are in flight. -/
def State.clTurn (s : State) (j : Nat) (x : Job) (e : Vector Word 4) : State :=
  let fmt := geFmt e
  let z := fmtBytes fmt
  match x.inbox with
  | (k, bs) :: _ => match s.clWrite j x k bs z with
    | .error s => s.clPoll j x
    | .ok s => s.later 1 .clChunk x.core j 0
  | [] =>
    if x.done = x.chunks then s.jobOver j
    else if x.sent < x.chunks && decide (x.sent < x.done + 4) then
      -- its chunks in rounds that are open are delivered first (R360)
      if geState e = 2 && s.opensRound (.job j) x.core 0 x.group then (if x.done < x.sent then s else s.clFail (.job j) 0x09)
      else
        let n := x.chunkElems x.sent
        let got := if n = 0 then .ok ([], false, s)
          else s.jobRead j x x.src.seg (x.src.seg.base.toNat + x.src.off + z * (x.sent * x.chunk)) (z * n)
        match got with
        | .error s => s.clPoll j x
        | .ok (bs, bad, s) =>
          let s := s.jobPoison j x bad
          let (vs, f) := chunkVals fmt (x.ty == bcastSig) n bs
          let s := s.updJob j fun x => { x with sent := x.sent + 1 }
          (s.contribute x.core x.group vs f (.job j) x.tenant x.sig x.sent (s.sagt (.job j) (x.core / 8))).later 1 .clChunk x.core j 0
    else s

/-- CL_CHUNK (R354). -/
def execClChunk (s : State) : Host.Outcome State Fault Refusal :=
  match (s.core s.ctl.ev.a).clCur with
  | none => .next s
  | some j => match s.job j with
    | none => .next s
    | some x =>
      if x.phase ≠ 2 || x.pending ≠ 0 then .next s
      else
        let e := s.groupEntry (x.core / 2048) x.group
        .next (if geState e = 0 then s.clFail (.job j) 0x09 else s.clTurn j x e)

/-- A CL command begins (R252, R354). -/
def clRow (s : State) : Host.Outcome State Fault Refusal :=
  let j := s.ctl.ev.a
  match s.job j with
  | none => .next s
  | some x =>
    if x.illegal then .next (s.failJob j 0x04)
    else if x.preErr ≠ 0 then .next ((s.updJob j fun x => { x with res := BitVec.ofNat 64 x.preErr }).failJob j 0x0A)
    else
        let e := s.groupEntry (x.core / 2048) x.group
        if geState e = 0 || geState e = 3 || !(geLocals e).contains (x.core % 2048) ||
            decide (4096 < min x.chunk x.elems * fmtBytes (geFmt e)) then .next (s.failJob j 0x09)
        else .next ((s.updJob j fun x => { x with phase := 2 }).later 0 .clChunk x.core j 0)

/-- CL.REDUCE (R252). -/
def execClReduce (s : State) : Host.Outcome State Fault Refusal := clRow s
/-- CL.BCAST (R252). -/
def execClBcast (s : State) : Host.Outcome State Fault Refusal := clRow s
/-- CL.ALLREDUCE (R252). -/
def execClAllreduce (s : State) : Host.Outcome State Fault Refusal := clRow s

/-! ## GSTORE (R267) -/

/-- GSTORE (R267). -/
def execGstore (gd : Guard) (ra rb : Reg) (s : State) : Host.Outcome State Fault Refusal :=
  perform gd s do
    let a ← readReg ra
    let b ← readReg rb
    let s ← get
    let core := s.me.core
    let grp := a.toNat % 2 ^ 12
    let tenant := s.agentTenant (.thread s.ctl.acting)
    let bad := (s.core core).groupBad.contains grp
    let e := s.groupEntry (core / 2048) grp
    if geState e = 0 then throw (.trap 0x82 0)
    if bad then
      throw (.leave (((s.updCore core fun c => { c with groupBad := c.groupBad.filter (· != grp) })).finish
        (.error (.trap 0x82 0))))
    if !(geLocals e).contains (core % 2048) || geTen e ≠ tenant then throw (.trap 0x82 0)
    if geState e = 2 && s.opensRound .nobody core (s.storeId s.me.ident.pond core) grp then throw (.trap 0x82 0)
    if (s.core core).groupOpen.contains grp then throw (.wait false .group id)
    releaseM .device
    let (v, f) := widenIn (geFmt e) b
    modify fun s => (s.updCore core fun c => { c with groupOpen := grp :: c.groupOpen }).contribute core grp [v] f .nobody tenant 0 (s.storeId s.me.ident.pond core)
      (s.sagt (.thread s.ctl.acting) (core / 8))
    leaveReply {} {}

end Sys2Proof.Machine
end

