-- ==== Sys2Proof/Machine/Packets.lean ====
section
/-! DEFINITION. The torus (R364 to R369), the receive rings and messages (R263 to R266, R371 to R373), remote accesses (R165,
R166), the phase probe and the phase end (R153, R268, R277, R374, R375). -/

namespace Sys2Proof.Machine

/-! ## The torus -/

/-- A buffer of a router: input × 4 + VC. -/
def TorusRouter.buf (r : TorusRouter) (k : Nat) : List Nat := r.bufs.get [] k

/-- The router of a cluster, and its update. -/
def State.router (s : State) (c : Nat) : TorusRouter := (s.cluster c).router
def State.updRouter (s : State) (c : Nat) (f : TorusRouter → TorusRouter) : State :=
  s.updCluster c fun k => { k with router := f k.router }

/-- A packet in flight. -/
def State.pkt (s : State) (i : Nat) : Option Pkt := match s.msgs.find i with | some (.torus p) => some p | _ => none

/-- The output of a packet at a cluster and the cluster there (R365). -/
def State.hopOf (s : State) (c : Nat) (p : Pkt) : Nat × Nat := (s.subMesh p.tenant).hop c p.dst

/-- The input at the next router: a packet that goes west comes in from the east (R367). -/
def inputAt (out : Nat) : Nat := match out with | 1 => 2 | 2 => 1 | 3 => 4 | 4 => 3 | _ => 0

/-- A packet goes on in its ring: it came along the row and leaves along it, or along the column. -/
def continues (inp out : Nat) : Bool := (inp == 1 || inp == 2) && (out == 1 || out == 2) || (inp == 3 || inp == 4) && (out == 3 || out == 4)

/-- A head packet that wants an output: input, VC, number, packet, whether it continues in its ring, whether it has the
buffers of R366. -/
structure Cand where
  inp : Nat
  vc : Nat
  id : Nat
  pkt : Pkt
  cont : Bool
  ok : Bool
  deriving DecidableEq, Repr

/-- A remote access waits in the network while its core's interface queue is full (R371). -/
def State.exitFree (s : State) (p : Pkt) : Bool :=
  match s.msgs.find p.msg with
  | some (.remote r) => decide ((s.core r.core).net.remote.length < 16)
  | _ => true

/-- The head packets of a router that want an output. -/
def State.cands (s : State) (c out : Nat) : List Cand :=
  (List.range 20).filterMap fun k =>
    match (s.router c).buf k with
    | [] => none
    | i :: _ => match s.pkt i with
      | none => none
      | some p =>
        let (o, nx) := s.hopOf c p
        if o ≠ out || decide (s.ctl.cycle < p.since) then none
        else
          let cont := continues (k / 4) out
          let free := 4 - ((s.router nx).buf (inputAt out * 4 + k % 4)).length
          let ok := if out = 0 then s.exitFree p else if cont then decide (1 ≤ free) else decide (2 ≤ free)
          some ⟨k / 4, k % 4, i, p, cont, ok⟩

/-- The promoted packet that has waited longest, the lower input on a tie. -/
def oldest : List Cand → Option Cand
  | [] => none
  | c :: t => match oldest t with
    | some d => if d.pkt.since < c.pkt.since then some d else some c
    | none => some c

/-- The first candidate at or after an input in round-robin order. -/
def nextInput (rr : Nat) (cs : List Cand) : Option Cand :=
  (firstBelow (fun i => cs.any (·.inp == (rr + i) % 5)) 5 0).bind fun i => cs.find? (·.inp == (rr + i) % 5)

/-- The eligible packets of a VC: one that continues in its ring before one that enters (R366). -/
def ofVc (cs : List Cand) (vc : Nat) : List Cand :=
  let v := cs.filter fun c => c.ok && c.vc == vc
  if v.any (·.cont) then v.filter (·.cont) else v

/-- The VCs in the order in which an output passes on from one (R367). -/
def vcAfter (vc : Nat) : List Nat :=
  match vc with
  | 1 => [0, 2, 3, 1]
  | 0 => [2, 3, 1, 0]
  | 2 => [3, 1, 0, 2]
  | _ => [1, 0, 2, 3]

/-- The grant of an output (R367): the packet and the output's state. A promoted packet that waits to enter a ring shuts its VC. -/
def TorusOut.grant (o : TorusOut) (out : Nat) (weights : Vector Nat 4) (cs : List Cand) : Option (Cand × TorusOut) :=
  match oldest (cs.filter fun c => c.pkt.promoted && c.ok) with
  | some c => some (c, o)
  | none =>
    let shut := (cs.filter fun c => c.pkt.promoted && !c.cont && out != 0).map (·.vc)
    let cs := cs.filter fun c => !shut.contains c.vc
    let pick (vc credit : Nat) : Option (Cand × TorusOut) :=
      (nextInput o.rr (ofVc cs vc)).map fun c => (c, { o with vc := vc, credit := credit - 1, rr := (c.inp + 1) % 5 })
    match (if 0 < o.credit then pick o.vc o.credit else none) with
    | some g => some g
    | none => match (vcAfter o.vc).find? fun v => !(ofVc cs v).isEmpty with
      | some v => pick v (weights.toList.getD v 1)
      | none => none

/-- A decision of an output is due when it is free. -/
def State.wantGrant (s : State) (c out : Nat) : State :=
  let o : TorusOut := (s.router c).outs.get {} out
  if o.scheduled then s
  else
    let s := s.updRouter c fun r => { r with outs := r.outs.set out { o with scheduled := true } }
    s.at (max s.ctl.cycle o.busyUntil) (.ev ⟨.packetGrant, c, out, 0, .none⟩)

/-- The head of a buffer begins to age (R368) and wants its output. -/
def State.newHead (s : State) (c k : Nat) : State :=
  match (s.router c).buf k with
  | [] => s
  | i :: _ => match s.pkt i with
    | none => s
    | some p =>
      let s : State := { s with msgs := s.msgs.set i (.torus { p with since := max s.ctl.cycle p.since, promoted := false }) }
      s.wantGrant c (s.hopOf c p).1

/-- PACKET_ARRIVAL (R364, R369): ev.a the cluster, ev.b the packet, ev.c the input. A packet from another router stands in
its buffer since its grant. -/
def execPacketArrival (s : State) : Host.Outcome State Fault Refusal :=
  let c := s.ctl.ev.a
  let i := s.ctl.ev.b
  match s.pkt i with
  | none => .next s
  | some p =>
    let k := s.ctl.ev.c * 4 + p.vc
    if member (s.router c).bitmap p.tenant then
      let s := if s.ctl.ev.c = 0 then s.updRouter c fun r => { r with bufs := r.bufs.set k (r.buf k ++ [i]) } else s
      .next (if ((s.router c).buf k).head? = some i then s.newHead c k else s)
    else
      let heads := ((s.router c).buf k).head? == some i
      let s := s.updRouter c fun r => { r with tviol := sat32 r.tviol, bufs := r.bufs.set k ((r.buf k).filter (· != i)) }
      let s := (s.dropMsg i).dropViolation p.tenant p.msg (some c)
      .next (if heads then s.newHead c k else s)

/-- A remote access enters its core's interface queue of 16 (R371). -/
def State.remoteIn (s : State) (i core : Nat) : State :=
  let s := s.updCore core fun c => { c with net := { c.net with remote := c.net.remote ++ [i] } }
  let served := s.ctl.agenda.any fun x => match x.2 with
    | .ev e => e.kind == .remoteAccessService && e.a == core && e.b == 0
    | .resume _ => false
  if served then s else s.later 1 .remoteAccessService core 0 0

/-- A packet leaves the torus: its message is taken up at the interface or enters the omega network. What VC1 brings takes the same time,
so that it is taken up in its order (R363). -/
def State.leaveTorus (s : State) (i : Nat) : State :=
  match s.msgs.find i with
  | some (.remote r) => s.remoteIn i r.core
  | some (.token p _) => (s.dropMsg i).later s.ctl.lat.slice .probeToken p 0 0
  | _ => s.arrive i

/-- PACKET_GRANT (R366 to R368): the heads that are passed over age on. -/
def execPacketGrant (s : State) : Host.Outcome State Fault Refusal :=
  let c := s.ctl.ev.a
  let out := s.ctl.ev.b
  let r := s.router c
  let o : TorusOut := { r.outs.get {} out with scheduled := false }
  let cs := s.cands c out
  let age (s : State) (x : Cand) : State :=
    let due := max s.ctl.cycle (x.pkt.since + r.agelim)
    -- a lower AGELIM makes it earlier
    if x.pkt.promoted || s.ctl.agenda.any (fun a => decide (a.1 ≤ due) && match a.2 with
        | .ev e => e.kind == .packetPromotion && e.a == c && e.b == x.id | .resume _ => false) then s
    else s.at due (.ev ⟨.packetPromotion, c, x.id, 4 * x.inp + x.vc, .none⟩)
  match o.grant out r.weights cs with
  | none =>
    let s := s.updRouter c fun r => { r with outs := r.outs.set out o }
    if cs.isEmpty then .next s
    else
      let s := cs.foldl age s
      let s := s.updRouter c fun r => { r with outs := r.outs.set out { o with scheduled := true } }
      .next (s.later 1 .packetGrant c out 0)
  | some (g, o') =>
    let s := s.updRouter c fun r => { r with
      bufs := r.bufs.set (4 * g.inp + g.vc) (r.buf (4 * g.inp + g.vc) |>.drop 1),
      outs := r.outs.set out { o' with busyUntil := s.ctl.cycle + g.pkt.flits } }
    let (_, nx) := s.hopOf c g.pkt
    let s := if out = 0 then (s.dropMsg g.id).leaveTorus g.pkt.msg
      else
        let k := inputAt out * 4 + g.vc
        let p := { g.pkt with promoted := false, since := s.ctl.cycle + s.ctl.lat.hop }
        let s : State := { s with msgs := s.msgs.set g.id (.torus p) }
        let s := s.updRouter nx fun r => { r with bufs := r.bufs.set k (r.buf k ++ [g.id]) }
        s.later s.ctl.lat.hop .packetArrival nx g.id (inputAt out)
    let s := (cs.filter (·.id != g.id)).foldl age (s.newHead c (4 * g.inp + g.vc))
    .next (if (cs.filter (·.id != g.id)).isEmpty then s else s.wantGrant c out)

/-- PACKET_PROMOTION (R368): the head that has waited AGELIM cycles is promoted for this hop. -/
def execPacketPromotion (s : State) : Host.Outcome State Fault Refusal :=
  let c := s.ctl.ev.a
  let i := s.ctl.ev.b
  let r := s.router c
  match s.pkt i with
  | some p =>
    if (r.buf s.ctl.ev.c).head? ≠ some i then .next s
    else if s.ctl.cycle < p.since + r.agelim then .next (s.at (p.since + r.agelim) (.ev ⟨.packetPromotion, c, i, s.ctl.ev.c, .none⟩))
    else .next { s with msgs := s.msgs.set i (.torus { p with promoted := true }) }
  | none => .next s

/-- A reply from a cluster's interface to an agent. -/
def State.replyFrom (s : State) (cl : Nat) (dst : Agent) (r : Reply) : State :=
  match dst with
  | .fabric _ _ _ _ _ => s.ackFabric (cl / 256) dst r
  | _ => match s.agentCluster dst with
    | some c =>
      let i := s.ctl.nextMsg
      (s.addMsg (.reply dst r)).inject cl c 1 (dataFlits r.data.length) (s.agentTenant dst) i
    | none => s

/-! ## Rings (R371 to R373) -/

/-- Where a message of `m` bytes goes in a ring with this tail and these bytes in use (R372): the place, the bytes that a
skip marker takes, or none. -/
def ringPlace (tail used m : Nat) : Option (Nat × Nat) :=
  let f := 2048 - used
  if m ≤ f && tail + m ≤ 2048 then some (tail, 0)
  else if m + (2048 - tail) ≤ f then some (0, 2048 - tail)
  else none

/-- A read that slot 1 or the interface makes in TCM: its codes are checked and its poison counted (R324, R326). -/
def State.tcmTouch (s : State) (core off n : Nat) : State :=
  let s := s.checkCodes (core / 8) (tcmKey core off) n
  if (s.mem.firstPoison (tcmKey core off) n).isSome then s.countPoison (core / 8) else s

/-- A message's words. -/
def NetMsg.words (m : NetMsg) : List Word := m.header :: m.payload

/-- A message put into a ring of a core: the handler ring, or the stream ring; none when it is refused. -/
def State.ringAdd (s : State) (core : Nat) (m : NetMsg) : Option State :=
  let n := (s.core core).net
  let kind := hdrKind m.header
  let z := 8 * (1 + m.payload.length)
  let base := tcmKey core (if kind = 0 then 0x6000 else 0x6800)
  let tail := if kind = 0 then n.hTail else n.sTail
  match ringPlace tail (if kind = 0 then n.hUsed else n.sUsed) z with
  | none => none
  | some (at', skip) =>
    let mem := if 0 < skip then s.mem.write (base + tail) (leBytes 8 (2 ^ 64 - 1)) else s.mem
    let mem := (mem.write (base + at') (bytesOf m.words)).clearPoison (base + at') z
    let n := if kind = 0 then { n with hTail := (at' + z) % 2048, hUsed := n.hUsed + skip + z, hSkip := n.hSkip + skip }
      else { n with sTail := (at' + z) % 2048, sUsed := n.sUsed + skip + z, sSkip := n.sSkip + skip }
    some ({ s with mem := mem }.updCore core fun c => { c with net := n })

/-- The task of a message has a crew on a cluster (R265); a message of slot 0 belongs to its header's tenant. -/
def State.hostsTask (s : State) (cl : Nat) (m : NetMsg) : Bool :=
  match (s.cluster cl).crew with
  | some c => match m.sender with
    | .thread t => if t < 32768 && t % 2 == 0 then c.tenant == hdrTen m.header else c.gtid == m.gtid
    | _ => if m.gtid.toNat % 2 ^ 24 = 0xFFFFFF then c.tenant == hdrTen m.header else c.gtid == m.gtid
  | none => false

/-- A refusal has come back to a message's interface (R373): it sends the message again after 64 × k cycles, or gives it up at the
64th. -/
def State.refused (s : State) (i : Nat) (m : NetMsg) (core : Nat) : State :=
  let k := m.refusals + 1
  if k = 64 then
    let s := s.probeCount (m.srcCore / 8) (-1)
    let s := if hdrKind m.header = 0 then s
      else s.updCore m.srcCore fun c => { c with net := { c.net with refdrop := sat32 c.net.refdrop } }
    let s := (s.dropMsg i).sentDone i m
    if m.asked then s.post 1 .replyArrival (.reply m.sender { cause := 0x80 }) else s
  else
    let s : State := { s with msgs := s.msgs.set i (.net { m with refusals := k } core) }
    let s := s.updCore m.srcCore fun c => { c with net := { c.net with
      retrying := i :: c.net.retrying.filter (· != i), sent := c.net.sent.filter (· != i) } }
    s.later (64 * k) .messageRetry i 0 0

/-- A message for another device leaves by the fabric; it stays under way until it is answered (R373, R377). -/
def State.messageOut (s : State) (i : Nat) (m : NetMsg) (core : Nat) : State :=
  let c := s.ctl.nextMsg
  let moved (l : List Nat) : List Nat := l.map fun x => if x = i then c else x
  let s := (s.dropMsg i).updCore m.srcCore fun k => { k with net := { k.net with retrying := moved k.net.retrying, sent := moved k.net.sent } }
  let task := match m.sender with
    | .thread t => if t < 32768 && t % 2 == 0 then hdrTen m.header * 2 ^ 24 + 0xFFFFFF else m.gtid.toNat
    | _ => m.gtid.toNat
  s.toFabric (m.srcCore / 2048) (s.sagt m.sender (m.srcCore / 8)) (hdrDev m.header) (hdrTen m.header)
    2 true (if hdrKind m.header = 0 then 0x07 else 0x08) 0 m.header (leBytes 8 task ++ bytesOf m.payload) (.net m core)

/-- MESSAGE_ARRIVAL (R263 to R265, R371 to R373). -/
def execMessageArrival (s : State) : Host.Outcome State Fault Refusal :=
  let i := s.ctl.ev.a
  match s.msgs.find i with
  | some (.net m core) =>
    let local' := !m.sender.isFar
    if local' && hdrDev m.header ≠ s.dev.id then .next (s.messageOut i m core)
    else
      let cl := core / 8
      let settle (s : State) (r : Reply) : State :=
        let s := s.dropMsg i
        let s := if m.asked then s.replyFrom cl m.sender r else s
        if local' then s.sentDone i m else s
      let bad := if hdrKind m.header ≠ 0 then 0
        else if !s.hostsTask cl m then 0x25
        else if 239 < hdrHnd m.header then 0x08
        else 0
      if bad ≠ 0 then .next (settle (s.probeCount (m.srcCore / 8) (if local' then -1 else 0)) { cause := bad })
      else match s.ringAdd core m with
        | some s =>
          let s := s.probeReceive cl
          let s := if hdrKind m.header = 0 then
              (if (s.core core).net.running.isSome || s.scheduled .handlerStart core then s else s.later 1 .handlerStart core 0 0)
            else if s.scheduled .streamMessageMove core then s else s.later 1 .streamMessageMove core 0 0
          .next (settle s {})
        | none =>
          if local' then
            let k := s.ctl.nextMsg
            .next ((s.addMsg (.refusal i)).inject cl (m.srcCore / 8) 1 1 (hdrTen m.header) k)
          else .next ((s.dropMsg i).replyFrom cl m.sender { cause := 0x80 })
  | _ => .fault .noSuchHappening

/-- MESSAGE_RETRY (R373): a refusal comes back, or the time of the next attempt has come. -/
def execMessageRetry (s : State) : Host.Outcome State Fault Refusal :=
  let i := s.ctl.ev.a
  match s.msgs.find i with
  | some (.refusal k) => match s.msgs.find k with
    | some (.net m core) => .next ((s.dropMsg i).refused k m core)
    | _ => .next (s.dropMsg i)
  | some (.net m _) => .next (s.sendMessage m i)
  | _ => .next s

/-- The offset of a ring's head message, past a skip marker; the bytes that the marker takes. -/
def ringHead (s : State) (base head skip : Nat) : Nat × Nat :=
  if 0 < skip && leNat (s.mem.read (base + head) 8) = 2 ^ 64 - 1 then (0, 2048 - head) else (head, 0)

/-- A ring message as the TCM holds it (R371): its words, and what their reading leaves. -/
def State.ringWords (s : State) (core ring at' : Nat) : List Word × State :=
  let word (s : State) (o : Nat) : Word := BitVec.ofNat 64 (leNat (s.mem.readClean (tcmKey core (ring + o % 2048)) 8))
  let s := s.tcmTouch core (ring + at' % 2048) 8
  let h := word s at'
  let rest := (List.range (min (hdrLen h) 8)).map fun i => at' + 8 + 8 * i
  let s := rest.foldl (fun s o => s.tcmTouch core (ring + o % 2048) 8) s
  (h :: rest.map fun o => word s o, s)

/-- STREAM_MESSAGE_MOVE (R264, R371): whole messages go into slot 0's receive queue as they fit. -/
def execStreamMessageMove (s : State) : Host.Outcome State Fault Refusal :=
  let core := s.ctl.ev.a
  let n := (s.core core).net
  if n.sUsed = 0 then .next s
  else
    let (h, skip) := ringHead s (tcmKey core 0x6800) n.sHead n.sSkip
    let (ws, s') := s.ringWords core 0x6800 h
    let z := 8 * ws.length
    if 64 < n.rx.length + ws.length then .next s
    else
      let s := s'
      let used := n.sUsed - skip - z
      let s := s.updCore core fun c => { c with net := { n with
        rx := n.rx ++ ws, sHead := (h + z) % 2048, sUsed := used, sSkip := n.sSkip - skip } }
      .next (if 0 < used && !s.scheduled .streamMessageMove core then s.later 1 .streamMessageMove core 0 0 else s)

/-! ## Handlers (R266) -/

/-- The state of slot 1 at a handler's entry: its TENANT is the header's, its pond the crew's (R18, R266). -/
def handlerThread (mark : Option (BitVec 32 × Nat)) (core : Nat) (crew : Crew) (pondId pc : Nat) (ws : List Word) (gs : List Seg) : Thread :=
  let gtid := BitVec.ofNat 32 (hdrTen (wordAt ws 0) * 2 ^ 24 + 0xFFFFFF)
  let t := Lr.thread crew.launch crew.pond pondId gtid pc 0 0xFFFFFFFF 0xFFFF 0xFFFFFFFF core
  { t with
    ctx := { t.ctx with
      g := #v[wordAt ws 0, wordAt ws 1, wordAt ws 2, wordAt ws 3, wordAt ws 4, wordAt ws 5, wordAt ws 6, wordAt ws 7, wordAt ws 8, 0],
      psw := putField (putField t.ctx.psw 36 2 2) 41 3 1 },
    segs := #v[gs.getD 0 {}, gs.getD 1 {}, gs.getD 2 {}, gs.getD 3 {}, gs.getD 4 {}, {}, {}, {}],
    run := .active, slot := some 1, aux := { t.aux with mark := mark } }

/-- HANDLER_START (R266): slot 1 takes the next message of its ring. -/
def execHandlerStart (s : State) : Host.Outcome State Fault Refusal :=
  let core := s.ctl.ev.a
  let tid := 2 * core + 1
  let n := (s.core core).net
  match (s.cluster (core / 8)).crew with
  | none => .next s
  | some crew =>
    if n.hUsed = 0 || n.running.isSome || (s.thread tid).run == .faulted then .next s
    else
      let (h, skip) := ringHead s (tcmKey core 0x6000) n.hHead n.hSkip
      let before := s
      let (ws, s) := s.ringWords core 0x6000 h
      let z := 8 * ws.length
      let hd := wordAt ws 0
      let s := s.kTouch core (hdrHnd hd)
      let entry := (s.kEntry core (hdrHnd hd)).toNat % 2 ^ 32
      let took (r : Option Word) (drop : Bool) (s : State) : State := s.updCore core fun c => { c with net := { n with
        hHead := (h + z) % 2048, hUsed := n.hUsed - skip - z, hSkip := n.hSkip - skip, running := r,
        refdrop := if drop then sat32 n.refdrop else n.refdrop } }
      if entry = 0 || entry % 4 != 0 then
        let s := took none true s
        let s := s.postRec { tenant := crew.tenant, cause := 0x08, kind := 4, asid := crew.asid, gtid := crew.gtid, core := core, addr := hd.toNat }
        .next (if (s.core core).net.hUsed = 0 then s else s.later 1 .handlerStart core 0 0)
      else
        let pid := match s.pond crew.pond with | some p => p.id.toNat | none => 0
        let mark := (s.thread tid).aux.mark
        let start := s.setThread tid (handlerThread mark core crew pid entry ws [])
        match start.loadSegs tid 0 5 with
        | (_, _, some (c, va)) =>
          let cl := core / 8
          if c = 0 then .next ((before.askFill cl (s.asidOf cl) (s.tenantOf cl) va 0).later s.ctl.lat.slice .handlerStart core 0 0)
          else .next ((start.updThread tid fun t => { t with cont := .none, word := 0 }).parkFault tid c va 0 none)
        | (gs, t, none) =>
          let t := (took (some hd) false t).setThread tid (handlerThread mark core crew pid entry ws gs)
          .next { t with mem := t.mem.write (tcmKey core (8 * 249)) (leBytes 8 (bindWord 1 (systemIdent crew.pond)).toNat) }

/-! ## Remote accesses (R165, R166) -/

/-- The checks of R165: the cause, 0 when all pass. -/
def State.remoteBad (s : State) (r : Remote) : Nat :=
  let cl := r.core / 8
  let off := if r.nibble then r.off / 2 else r.off
  let lim := match r.sp with | .tcm => 0x7000 | .scratch => s.spadSize cl
  match (s.cluster cl).crew with
  | some c =>
    if c.gtid ≠ r.gtid then 0x25
    else if lim < off + r.n then 0x20
    else if !r.nibble && r.off % r.n != 0 then 0x22
    else 0
  | none => 0x25

/-- REMOTE_ACCESS_SERVICE (R165, R166): slot 1 performs the oldest remote access of its core, or waits as a core's own access
does (R157, R158), and while a dump of the core runs (R421). With ev.b the number of a message and one more, an access of another
device enters the queue, or waits on, behind those that came before it, while that is full (R371, R379). -/
def execRemoteAccessService (s : State) : Host.Outcome State Fault Refusal :=
  let core := s.ctl.ev.a
  if s.ctl.ev.b ≠ 0 then
    let earlier := s.ctl.agenda.any fun x => match x.2 with
      | .ev e => e.kind == .remoteAccessService && e.a == core && decide (0 < e.b) && decide (e.b < s.ctl.ev.b)
      | .resume _ => false
    .next (if (s.core core).net.remote.length < 16 && !earlier then s.remoteIn (s.ctl.ev.b - 1) core
      else s.later 8 .remoteAccessService core s.ctl.ev.b 0)
  else
  match (s.core core).net.remote with
  | [] => .next s
  | i :: rest => match s.msgs.find i with
    | some (.remote r) =>
      let cl := core / 8
      let off := if r.nibble then r.off / 2 else r.off
      let bad := s.remoteBad r
      let waits := match r.sp with
        | .tcm => if r.val.isSome then (s.core core).storeWaits off r.n else (s.core core).loadWaits off r.n
        | .scratch => (s.cluster cl).lineWaits off r.n
      if (bad = 0 && waits) || (s.dev.dumps.find core).isSome then .next (s.later 8 .remoteAccessService core 0 0)
      else
        let s := (s.dropMsg i).updCore core fun c => { c with net := { c.net with remote := rest } }
        let s := if rest.isEmpty then s else s.later 8 .remoteAccessService core 0 0
        if bad ≠ 0 then .next (s.replyFrom cl r.who { cause := bad, addr := r.off % 2 ^ 57 })
        else
          let key := match r.sp with | .tcm => tcmKey core off | .scratch => spadKey cl off
          let s := if r.val.isNone then s.checkCodes cl key r.n else s
          let psn := (s.mem.firstPoison key r.n).isSome
          match r.val with
          | none =>
            let s := if psn then s.updCluster cl fun c => { c with psnread := sat32 c.psnread } else s
            .next (s.replyFrom cl r.who { data := s.mem.readClean key r.n, merr := psn, addr := r.off })
          | some v =>
            let bs := if r.nibble then
                let b := (s.mem.readByte key).toNat
                [BitVec.ofNat 8 (if r.off % 2 = 0 then b / 16 * 16 + v.toNat % 16 else b % 16 + 16 * (v.toNat % 16))]
              else leBytes r.n v.toNat
            let s : State := { s with mem := (s.mem.write key bs).clearPoison key bs.length }
            .next (s.replyFrom cl r.who {})
    | _ => .next (s.updCore core fun c => { c with net := { c.net with remote := rest } })

/-! ## Recycling (R277) -/

/-- One limbo node back on its cluster's free list; a home on another device is asked to do the same (R277). A poisoned node, whose
words the eft does not write, stays out (R325). -/
def State.recycle (s : State) (asid tenant cl off va : Nat) : State :=
  match s.walk asid tenant va .object with
  | .error (0, pa) => s.needs pa tenant cl
  | .error _ => s
  | .ok e =>
    let pa := e.phys va
    let head := (s.cluster cl).regs.nfl
    let listed (s : State) : State := s.updCluster cl fun c => { c with regs := { c.regs with nfl := BitVec.ofNat 64 off } }
    if !s.isLocal pa then
      (listed s).toHome { who := .nobody, op := .nRecycle head, va := va, pa := pa, asid := asid, tenant := tenant, scope := .device,
                          cluster := cl, key := e.key }
    else
      let k := s.key pa
      let s := (s.useKey (sliceOf k) (k / 128) e.key).homeScan k 32
      if (s.mem.firstPoison k 32).isSome then s.updCtr k fun c => { c with psnread := sat32 c.psnread }
      else listed ((s.putWord k head.toNat).setTags k 0 2)

/-- Every limbo node of a pond recycled. -/
def State.recycleAll (s : State) (p : Pond) : State :=
  p.clusters.foldl (fun s cl =>
    let ls := (s.cluster cl).pool.limbo
    let s := s.updCluster cl fun c => { c with pool := { c.pool with limbo := [] } }
    ls.foldl (fun s n => s.recycle p.asid p.tenant cl n.1 n.2) s) s

/-! ## The phase probe (R268, R375) -/

/-- A cluster's pool keeps its interface busy (R268, R276). -/
def State.ifBusy (s : State) (cl : Nat) : Bool :=
  let p := (s.cluster cl).pool
  !p.pairs.isEmpty || !p.waiting.isEmpty || decide (0 < p.busy)

/-- A retiring group of the pond has an open round (R360). -/
def State.roundsOpen (s : State) (p : Pond) : Bool :=
  s.retiring.any fun g => s.contributes p g && (List.range 10).any fun r => (s.groupsAt r).rounds.any (·.group == g)

/-- The pond is suspended (R340). -/
def Pond.suspended (p : Pond) : Bool := match p.state with | .preempting _ _ _ | .saved _ | .resuming _ _ _ => true | _ => false

/-- PROBE_TOKEN (R375): the token at its next interface. -/
def execProbeToken (s : State) : Host.Outcome State Fault Refusal :=
  let p := s.ctl.ev.a
  match s.pond p with
  | some x => match x.probe.token with
    | some (n, sum, black) =>
      if x.suspended || x.isEnded then .next s
      else
        let cls := x.clusters
        let cl := cls.getD n 0
        let i := (s.cluster cl).probe
        let busy := s.ifBusy cl
        let sum := sum + i.count
        let black := black || i.black || busy
        let s := s.updCluster cl fun c => { c with probe := { c.probe with black := busy } }
        let last := decide (cls.length ≤ n + 1)
        if last && !black && sum == 0 && !s.roundsOpen x then
          .next ((s.updPond p fun x => { x with probe := { x.probe with token := none } }).later s.ctl.lat.hop .phaseEnd p 0 0)
        else
          let t : Nat × Word × Bool := if last then (0, 0, false) else (n + 1, sum, black)
          let s := s.updPond p fun x => { x with probe := { x.probe with token := some t } }
          let k := s.ctl.nextMsg
          .next ((s.addMsg (.token p t.1)).inject cl (cls.getD t.1 0) 1 1 x.tenant k)
    | none => .next s
  | none => .next s

/-- The merge of a pond's entries at every home (R153, R301): at once on this device, asked of the homes of others. -/
def State.mergePond (s : State) (k : Nat) (p : Pond) : State :=
  let s := s.mergeLogs s.dev.id p.key
  let s := p.logDevs.foldl (fun s d => s.toHome
    { who := .nobody, op := .mergeLog p.key, va := 0, pa := d * 2 ^ 40, asid := p.asid, tenant := p.tenant, scope := .device,
      cluster := p.clusters.headD 0 }) s
  s.updPond k fun x => { x with logDevs := [] }

/-- Homes of other devices have not yet answered that they have merged a pond's entries. -/
def State.merging (s : State) (p : Pond) : Bool :=
  s.msgs.any fun m => match m.2 with | .home r => (match r.op with | .mergeLog n => n == p.key | _ => false) | _ => false

/-- The counter of a phase end or of a pond's end is incremented, or the record of cause 0x41 is posted (R268, R336). -/
def State.probeCounter (s : State) (r : HomeReq) (p : Pond) : State :=
  let r := { r with op := .phaseAdd p.gtid.toNat, who := .nobody }
  if !s.isLocal r.pa then s.toHome r
  else
    let k := s.reqKey r
    ((s.useKey (sliceOf k) (k / 128) r.key).homeScan k 32).homeOp k r

/-- Homes of other devices have not yet answered that they have recycled a node of a pond. -/
def State.recycling (s : State) (p : Pond) : Bool :=
  s.msgs.any fun m => match m.2 with
    | .home r => r.asid == p.asid && r.tenant == p.tenant && (match r.op with | .nRecycle _ => true | _ => false)
    | _ => false

/-- Steps 3 and 4 of a phase end (R268), and the next probe. -/
def State.phaseLast (s : State) (k : Nat) (p : Pond) (r : HomeReq) (rest : List HomeReq) : State :=
  let s := (s.retiring.filter fun g => s.contributes p g).foldl (fun s g => s.retireGroup g) s
  let s := s.probeCounter r p
  let s := s.updPond k fun x => { x with probe := { starts := rest, token := if rest.isEmpty then none else some (0, 0, false) } }
  if rest.isEmpty then s else s.later 1 .probeToken k 0 0

/-- A phase end as far as it can go: ev.b 0 at its beginning, 1 while other devices merge, 2 while they recycle. -/
def phaseEnd (s : State) : Host.Outcome State Fault Refusal :=
  let p := s.ctl.ev.a
  match s.pond p with
  | some x => match x.probe.starts with
    | [] => .next s
    | r :: rest =>
      -- the probe of a pond that is saved is suspended (R340)
      if x.suspended then .next (s.later 64 .phaseEnd p s.ctl.ev.b 0)
      else
        match (if s.ctl.ev.b = 0 then s.sealAway else none) with
        | some (pa, tenant) => .next (s.needs pa tenant 0)
        | none =>
          let s := if s.ctl.ev.b = 0 then s.mergePond p x else s
          if s.merging x then .next (s.later 8 .phaseEnd p 1 0)
          else
            let s := if s.ctl.ev.b < 2 then s.recycleAll x else s
            .next (if s.recycling x then s.later 8 .phaseEnd p 2 0 else s.phaseLast p x r rest)
  | none => .next s

/-- PHASE_END (R268): logs merged, nodes recycled, groups retired, the counter incremented, each after the last at every home; the next
probe begins. -/
def execPhaseEnd (s : State) : Host.Outcome State Fault Refusal := withTables phaseEnd s

end Sys2Proof.Machine
end

