-- ==== Sys2Proof/Machine/HostAgent.lean ====
section
/-! DEFINITION. The host agent of X-die 0 (R426 to R429): completion records, the order in which a function's commands run, and
the shape of a command's row. -/

namespace Sys2Proof.Machine

/-- A completion record put into a function's queue of 64 slots (R427); its MSI-X vector when the queue was empty (R426). With the queue full
the record waits for room, and the function's next command with it: DEDUCED, unsafe, log 58. -/
def State.putCompletion (s : State) (c : Completion) : State :=
  let n := (s.fn c.fn).mrq.length
  if 64 ≤ n then s.updFn c.fn fun f => { f with mrqWait := f.mrqWait ++ [c] }
  else (if n = 0 then s.raiseMsix c.fn 0 else s).updFn c.fn fun f => { f with mrq := f.mrq ++ [c] }

/-- BAR2 writes of a function that have not reached their homes (R426). -/
def State.barWrites (s : State) (fn : Nat) : Bool :=
  (s.msgs.any fun m => match m.2 with | .slice r => r.who == .host (256 + fn) 0 && r.write.isSome | _ => false) ||
    s.ctl.agenda.any fun x => match x.2 with
      | .ev e => e.kind == .bar2Access && e.a == fn && decide (0 < e.b) && (match e.arg with | .bar2 _ (some _) _ => true | _ => false)
      | .resume _ => false

/-- The stack that holds an address of this device is in self-refresh (R442), or its die pauses (R440), and serves nothing. -/
def State.stackShut (s : State) (pa : Nat) : Bool :=
  let d := s.die (sliceOf (s.key pa) / 256)
  s.isLocal pa && (d.refresh == 2 || d.paused)

/-- The part's own write must wait: a stack that serves nothing, or a page in its final pass (R401, R442). -/
def State.homeShut (s : State) (pa : Nat) : Bool := s.stackShut pa || (s.isLocal pa && (s.finalMove pa).isSome)

/-- The next command of a function starts, when no earlier one must complete first (R429) and what the host wrote through BAR2 before it
stands in memory (R426); a reserved OPC, or a reserved bit, is answered (R427, R428). -/
def State.nextCommand (s : State) (fn : Nat) : State :=
  let f := s.fn fn
  if f.busy || !f.mrqWait.isEmpty then s
  else match f.mcq with
    | [] => s
    | (h, c) :: rest =>
      if s.barWrites fn then s.later 8 .mcq fn 1 0 else
      let s := s.updFn fn fun f => { f with mcq := rest }
      match c, c.kind with
      | _, some k => (s.updFn fn fun f => { f with busy := true }).at (s.ctl.cycle + s.ctl.lat.host) (.ev ⟨k, 0, 0, 0, .cmd h c⟩)
      | .reserved opc, none => (s.putCompletion ⟨opc, 3, fn, h.tag, []⟩).later 1 .mcq fn 1 0
      | _, none => (s.putCompletion ⟨0, 3, fn, h.tag, []⟩).later 1 .mcq fn 1 0

/-- The command at work is over or needs no more order: the next one may start. -/
def State.cmdGo (s : State) (h : CmdHdr) : State := (s.updFn h.fn fun f => { f with busy := false }).nextCommand h.fn

/-- A command that completes before the next one starts has completed (R429). -/
def State.cmdEnd (s : State) (h : CmdHdr) (opc st : Nat) (ws : List Word) : State :=
  (s.putCompletion ⟨opc, st, h.fn, h.tag, ws⟩).cmdGo h

/-- The row of a command that completes at once: what it does, its status and its result words; `pf` for a command that only
the PF may issue (R428). A command that fails changes nothing. -/
def command (pf : Bool) (opc : Nat) (f : CmdHdr → HostCmd → State → Option (State × Nat × List Word)) (s : State) :
    Host.Outcome State Fault Refusal :=
  match s.ctl.ev.arg with
  | .cmd h c =>
    if pf && h.fn != 0 then .next (s.cmdEnd h opc 2 [])
    else match f h c s with
      | some (s, st, ws) => .next (s.cmdEnd h opc st ws)
      | none => .fault .noSuchHappening
  | _ => .fault .noSuchHappening

/-- A command with an operand out of range has status 0x03; else it is done. -/
def inRange (ok : Bool) (done : State) (s : State) : Option (State × Nat × List Word) :=
  some (if ok then (done, 0, []) else (s, 3, []))

end Sys2Proof.Machine
end

