-- ==== Sys2Proof/Machine/Replies.lean ====
section
/-! DEFINITION. The ends of waits (R40 to R42, R184): what a reply, an acknowledgement or a wake does to the agent it
reaches. -/

namespace Sys2Proof.Machine

/-- The accesses that R412 checks when an answer has come: those of the word, and what the home has met beside. -/
def Take.watched (t : Take) (r : Reply) : List (Nat × Nat × Nat) := t.watch ++ r.seen.map fun x => (x.1, x.2, 3)

/-- The results of a reply written (R13, R41), and what the instruction does after them. -/
def takeReply (t : Take) (r : Reply) : M Unit := do
  if r.merr then poisonSeen r.addr
  let s ← get
  let cl := s.myCluster
  let bs := if t.merge then s.mergeOwn cl (s.asidOf cl) t.addr r.data else r.data
  match t.tcm with
  | some off => do
    if !bs.isEmpty then tcmStore off bs
    match t.rd with
    | some rd => writeReg rd r.value
    | none => pure ()
  | none =>
    if !bs.isEmpty then takeLoad t bs
    else match t.rd with
      | some rd => writeReg rd r.value
      | none => pure ()
  match t.pd with
  | some pd => writePred pd r.flag
  | none => pure ()
  match r.cap, t.sd with
  | some g, some sd => modify fun s => s.setEntry s.ctl.acting sd g
  | _, _ => pure ()
  match r.scope.or t.acq with
  | some sc => acquireM sc
  | none => pure ()
  let s ← get
  if t.ote && field r.value.toNat 16 2 == 2 && pswOte s.me.ctx.psw then raiseAfter 0x42 r.addr
  watchAll (t.watched r)
  modify fun s => s.hopRecord s.ctl.acting

/-! ## RULE.GO (R279) -/

/-- An entry of the rule table of the acting thread's cluster (R278). -/
def State.ruleEntry (s : State) (tid x y : Nat) : Except (Nat × Nat) (Nat × State) :=
  let t := s.thread tid
  let cl := t.core / 8
  let a := t.segs[0].base.toNat + (s.cluster cl).regs.rtb.toNat + 4 * (128 * x + y)
  match s.globalNow cl (s.asidOf cl) (s.tenantOf cl) [(a, 4)] with
  | .ok (bs, s) => .ok (leNat bs, s)
  | .error e => .error e

/-- The end of RULE.GO: the agents are known. A gang's members each go to the handler of their own pair: DEDUCED, unsafe, log 86. -/
def State.ruleGo (s : State) (tid : Nat) (t : Take) (pair : Word) (r : Reply) : State :=
  let x := field r.value.toNat 0 7
  let y := field r.value.toNat 7 7
  let park (s : State) (c va : Nat) : State := (s.updThread tid fun u => { u with cont := .retry }).parkFault tid c va 0 none
  let done (s : State) (u v h : Nat) : State :=
    if h = 0 || h % 4 != 0 then s.trapBy tid 0x0B 0
    else
      let s := s.updCtl fun c => { c with acting := tid, retry := false, after := t.late, lock := [] }
      s.finish ((do
        writeReg (.g 0) (BitVec.ofNat 64 u)
        writeReg (.g 1) (BitVec.ofNat 64 v)
        writeReg (.g 2) pair
        writeReg (.g 7) ((s.me.ctx.pc + 4).setWidth 64)
        acquireM .device
        watchAll (t.watched r)
        pure (BitVec.ofNat 32 h) : M (BitVec 32)).run s)
  let u := 32 * field pair.toNat 0 32
  let v := 32 * field pair.toNat 32 32
  let fail (s : State) (c va : Nat) : State :=
    if c = 0 then
      -- the table's line is asked for, and the answer is looked at again later
      let th := s.thread tid
      let cl := th.core / 8
      let i := s.ctl.nextMsg
      ((s.addMsg (.reply (.thread tid) r)).later s.ctl.lat.slice .replyArrival i 1 0).askFill cl (s.asidOf cl) (s.tenantOf cl) va th.segs[0].tag
    else park s c va
  match s.ruleEntry tid x y with
  | .error (c, va) => fail s c va
  | .ok (h, s) =>
    if h ≠ 0 then done s u v h
    else match s.ruleEntry tid y x with
      | .error (c, va) => fail s c va
      | .ok (h, s) => done s v u h

/-! ## SEG.GIVE's second half (R161) -/

/-- The queue's home has checked it (R161): the release, and the write-back of the tag's lines, which are dropped; the put follows when
all of them are acknowledged (R304). -/
def State.giveOn (s : State) (tid sd : Nat) (t : Take) (r : HomeReq) : State :=
  let th := s.thread tid
  let cl := th.core / 8
  let asid := s.asidOf cl
  let g := th.segs.toList.getD sd {}
  let mine (l : L1Line) : Bool := l.asid == asid && l.tag == g.tag
  let s := s.writeBackLines cl (fun l => mine l || (scopeWide r.scope && l.dirty != 0)) .nobody []
  let s := s.updCluster cl fun c => { c with l1 := c.l1.filter (!mine ·) }
  (s.updThread tid fun u => { u with cont := .send r { t with next := none } }).awaitAll cl (.thread tid)

/-! ## Wakes of saved threads (R342) -/

/-- The other members of a saved thread's gang: those of its block that have its slot's number on its group of cores (R37, R341). -/
def State.savedMates (s : State) (tid : Nat) : List Nat :=
  let t := s.thread tid
  let n := 2 ^ pswGsz t.ctx.psw
  match s.savedPlace tid with
  | some (_, b, i) => (s.threads.filter fun x =>
      x.1 != tid && decide (32768 ≤ x.1) && x.2.ident.pond == t.ident.pond && pswGsz x.2.ctx.psw == pswGsz t.ctx.psw &&
      x.2.aux.savedAt / 256 == t.aux.savedAt / 256 && x.2.aux.savedAt % 8 / n == i % 8 / n &&
      s.tableAt b (x.2.aux.savedAt % 256) / 2 ^ 11 == s.tableAt b i / 2 ^ 11).map (·.1)
  | none => []

/-- A member of a disbanded gang in its save area: a ready one enters the FIFO, one that waits keeps waiting (R37, R262). -/
def State.savedFree (s : State) (tid : Nat) : State :=
  (s.updThread tid fun t => { t with ctx := { t.ctx with psw := putField (putField t.ctx.psw 38 2 0) 40 1 0 } }).savedSync tid
    ((s.thread tid).run == .ready)

/-- The completion of a saved thread's word applied to its saved context (R184, R342, R344): the thread is ready there, at its new
offset; its entry is free when it has ended by it, and its gang is disbanded with it. -/
def State.savedDo (s : State) (tid : Nat) (f : State → State) : State :=
  let mates := if (s.thread tid).inGang then s.savedMates tid else []
  let place := s.savedPlace tid
  let s := f s
  let (s, still) := match s.threads.find tid, place with
    | some t, _ => ((s.updThread tid fun t => { t with run := .ready }).savedSync tid true, t.inGang)
    | none, some (_, b, i) => (s.putBytes (b + 0x200 + 2 * i) (leBytes 2 0), false)
    | none, none => (s, false)
  if still then s else mates.foldl (fun s u => s.savedFree u) s

/-- What a wake writes for a saved thread: its payload goes into the saved TCM. Its first instruction acquires at device scope (R343). -/
def savedTake (b i : Nat) (t : Take) (r : Reply) : M Unit := do
  match t.tcm with
  | some off => modify fun s => if r.data.isEmpty then s else s.putBytes (b + 0x8400 + 0x7000 * (i % 8) + off) r.data
  | none => pure ()
  takeReply { t with tcm := none, acq := none } { r with data := if t.tcm.isSome then [] else r.data, scope := none }

/-- A wake of a saved thread (R342). -/
def State.savedWake (s : State) (tid i : Nat) (r : Reply) : State :=
  match (s.thread tid).cont, s.savedPlace tid with
  | .reply tk, some (_, b, e) =>
    let s' := s.dropMsg i
    match r.fault with
    | some (c, va, acc) => (((s'.setWriteRight tid (.give {}) true).updThread tid fun u => { u with cont := .retry }).parkFault tid c va acc none).savedSync
        tid false
    | none =>
      s'.savedDo tid fun s =>
        if r.cause ≠ 0 && !r.after then s.trapBy tid r.cause r.addr
        else if r.cause ≠ 0 then s.completeBy tid (some (r.cause, r.addr)) (pure ())
        else s.completeBy tid tk.late (savedTake b e tk r)
  | _, _ => s

/-! ## The rows -/

/-- A reply or a wake reaches a thread; where SEG.GIVE's put has not been made, the register has its write right again (R161). -/
def State.replyThread (s : State) (tid : Nat) (r : Reply) : State :=
  let t := s.thread tid
  match t.cont with
  | .reply tk =>
    let back := s.setWriteRight tid (.give {}) true
    match r.fault with
    | some (c, va, acc) => (back.updThread tid fun u => { u with cont := .retry }).parkFault tid c va acc none
    | none =>
      if r.cause ≠ 0 && !r.after then back.trapBy tid r.cause r.addr
      else if r.cause ≠ 0 then
        s.completeBy tid (some (match tk.late with | some (c, a) => if c < r.cause then (c, a) else (r.cause, r.addr) | none => (r.cause, r.addr)))
          (watchAll (tk.watched r))
      else match tk.next, tk.sd, tk.pair with
        | some q, some sd, _ => s.giveOn tid sd tk q
        | _, _, some pair => if r.merr then s.completeBy tid tk.late (poisonSeen r.addr) else s.ruleGo tid tk pair r
        | _, _, _ => s.completeBy tid tk.late (takeReply tk r)
  | .launch rd => s.completeBy tid none (writeReg rd r.value)
  | .second | .retry => if r.cause ≠ 0 then s.trapBy tid r.cause r.addr else s
  | .none => match t.run with
    | .waiting => if r.cause ≠ 0 then s.trapBy tid r.cause r.addr else s.rejoin tid
    | _ => s
  | _ => s

/-- A thread's payload waits on the range scoreboard (R157). -/
def State.replyWaits (s : State) (tid : Nat) (r : Reply) : Bool :=
  match (s.thread tid).cont with
  | .reply tk => match tk.tcm with
    | some off => !r.data.isEmpty && (s.core (s.thread tid).core).storeWaits off r.data.length
    | none => false
  | _ => false

/-- A reply reaches a job: the copy hart's object requests, a dropped contribution or access (R369). -/
def State.replyJob (s : State) (j : Nat) (r : Reply) : State :=
  match s.job j with
  | none => s
  | some x =>
    if x.eng = .cp && (x.phase == 1 || x.phase == 4) then s.copyReply j x r
    else if r.cause = 0x81 then (if x.eng = .cl then s.clFail (.job j) 0x0B else s.failJob j 0x0B)
    else s.jobGo j

/-- An answer to an agent of another device that comes from a home of a third one, or from this device's networks: noted where its
request is known (R382). -/
def State.answerFar (s : State) (dst : Agent) (r : Reply) : State :=
  match dst with
  | .fabric dev agent seq _ _ =>
    let known (d : Tbl Dedup) : Bool := (d.get {} (dev * 2 ^ 18 + agent)).seen.any (·.1 == seq)
    s.answer (match s.slices.find? (fun x => known x.2.dedup) with | some x => x.1 | none => 0) dst r false
  | _ => s

/-- What an answer does to an agent that is neither a thread nor a job: a home's operation goes on at its queue; the scheduler learns whether the
counter of a record's dependence has reached 1 (R331); OBJ.SET completes (R430), or,
above 255, a read of its window at another device is answered (R432). -/
def State.replyOther (s : State) (dst : Agent) (r : Reply) : State :=
  match dst with
  | .sched q =>
    if 4096 ≤ q then s.lineGo q else s.later 0 .dependenceMet q (if r.merr then 2 else if r.cause = 0 then 1 else 0) r.addr
  | .fabric _ _ _ _ _ => s.answerFar dst r
  | .home k => (s.slotReply k r).pumpObj k (s.slice (sliceOf k)).queue.length
  | .host fn tag =>
    if 256 ≤ fn then s.updDev fun d => { d with hostOut := r.data }
    else
      -- a home that meets poison makes nothing: cause 0x28 (R325)
      let c := if r.merr then 0x28 else r.cause
      s.cmdEnd ⟨fn, tag⟩ 0x16 (if c = 0 then 0 else 4) (if c = 0 then [] else [BitVec.ofNat 64 c])
  | _ => s

/-- REPLY_ARRIVAL (R42), the acknowledgement of a log append among them (R152). -/
def execReplyArrival : State → Host.Outcome State Fault Refusal := withTables fun s =>
  let i := s.ctl.ev.a
  match s.msgs.find i with
  | some (.reply (.thread tid) r) =>
    if (s.threads.find tid).isNone then .next (s.dropMsg i)
    else if s.isSavedThread tid then .next (s.savedWake tid i r)
    else if s.replyWaits tid r then .next (s.later 8 .replyArrival i 0 0)
    else .next ((s.dropMsg i).replyThread tid r)
  | some (.reply (.job j) r) => .next ((s.dropMsg i).replyJob j r)
  | some (.reply dst r) => .next ((s.dropMsg i).replyOther dst r)
  | some (.waitEnd a) => .next ((s.dropMsg i).goOn a)
  | some (.appended e tid) => .next ((s.dropMsg i).appendDone e tid)
  | _ => .fault .noSuchHappening

/-- WAKE (R184, R339): the tadpole, wherever it now is, gets its results and becomes ready. -/
def execWake : State → Host.Outcome State Fault Refusal := withTables fun s =>
  let i := s.ctl.ev.a
  match s.msgs.find i with
  | some (.wake (.thread tid) r) =>
    if (s.threads.find tid).isNone then .next (s.dropMsg i)
    else if s.isSavedThread tid then .next (s.savedWake tid i r)
    else if s.replyWaits tid r then .next (s.later 8 .wake i 0 0)
    else .next ((s.dropMsg i).replyThread tid r)
  | some (.wake (.job j) r) => .next ((s.dropMsg i).replyJob j r)
  | some (.wake dst r) => .next ((s.dropMsg i).replyOther dst r)
  | _ => .fault .noSuchHappening

end Sys2Proof.Machine
end

