-- ==== Sys2Proof/Machine/Scheduler.lean ====
section
/-! DEFINITION. The scheduler (R327 to R336): dependences, the choice of a queue, first-fit placement, the start and the end
of a pond. -/

namespace Sys2Proof.Machine

/-! ## Heads of queues (R331) -/

/-- A placement is due. -/
def State.kick (s : State) : State := if s.scheduled .pondPlacement 0 then s else s.later 1 .pondPlacement 0 0 0

/-- The task identifier of a record. -/
def QRec.gtid (r : QRec) : BitVec 32 := BitVec.ofNat 32 (r.tenant * 2 ^ 24 + Lr.taskn r.launch)

/-- The task of a record; TASK.SET cannot withdraw one (R428). -/
def State.recTask (s : State) (tenant : Nat) (l : LaunchRec) : TaskEntry := (s.taskOf tenant (Lr.taskn l)).getD ⟨0, 0⟩

/-- A segment of a record as the task's table now gives it, or the cause and address of a page fault; cause 0 for a line that another
device must send. -/
def State.recSeg (s : State) (who tenant : Nat) (l : LaunchRec) (i : Nat) : Except (Nat × Nat) Seg :=
  let t := s.recTask tenant l
  if Lr.sel l i = 0 then .ok {}
  else match s.taskWords who t.asid tenant (t.segtab + 32 * Lr.sel l i) 4 with
    | .ok ws => .ok (segOf ws)
    | .error x => .error x

/-- The request for a record's counter at an s4 offset. -/
def State.recCounter (s : State) (for' tenant : Nat) (l : LaunchRec) (off : Nat) (who : Agent) (op : HomeOp) :
    Except (Nat × Nat) HomeReq :=
  match s.recSeg for' tenant l 4 with
  | .error x => .error x
  | .ok g =>
    let asid := (s.recTask tenant l).asid
    let va := (g.base.toNat + off) % 2 ^ 57
    match s.walkBy for' asid tenant va .object with
    | .error (c, _) => .error (c, va)
    | .ok e => .ok { who := who, op := op, va := va, pa := e.phys va, segBase := g.base.toNat, segLimit := g.limit.toNat,
                     asid := asid, tenant := tenant, key := e.key, ac := e.ac }

/-- The scheduler's request on its way: the scheduler stands beside the homes and uses no torus; log 20. -/
def State.schedHome (s : State) (r : HomeReq) : State :=
  if s.isLocal r.pa then s.post (s.rowOf (.home r)).2 .eftOperation (.home r) else s.toHome r

/-- The record that a discarded launch record or a failed completion leaves (R331, R336). -/
def State.schedRec (s : State) (tenant : Nat) (l : LaunchRec) (c va acc : Nat) : FaultRec :=
  { tenant := tenant, cause := c, kind := 4, acc := acc, asid := (s.recTask tenant l).asid,
    gtid := BitVec.ofNat 32 (tenant * 2 ^ 24 + Lr.taskn l), addr := va }

/-- The head of a queue leaves it. -/
def State.popHead (s : State) (q : Nat) : State :=
  (((s.dropLines q).updQueue q fun k => { k with recs := k.recs.drop 1 }).unschedule .headBlocking q).kick

/-- The head of a queue changed. -/
def State.updHead (s : State) (q : Nat) (f : QRec → QRec) : State :=
  s.updQueue q fun k => { k with recs := match k.recs with | r :: t => f r :: t | [] => [] }

/-- The head is discarded with a record (R331). -/
def State.discardHead (s : State) (q : Nat) (r : QRec) (c va acc : Nat) : State :=
  (s.postRec (s.schedRec r.tenant r.launch c va acc)).popHead q

/-- A read for the head has failed: the head is discarded, or a line of another device is asked for, after which the head is looked at
again (R331). -/
def State.headFault (s : State) (q : Nat) (r : QRec) (c va acc : Nat) : State :=
  if c = 0 then s.askLine q (s.recTask r.tenant r.launch).asid r.tenant va else s.discardHead q r c va acc

/-- The constant image is read once (R331). -/
def State.readImage (s : State) (q : Nat) (r : QRec) : State :=
  match s.recSeg q r.tenant r.launch 0 with
  | .error (c, va) => s.headFault q r c va 0
  | .ok g =>
    match s.taskWords q (s.recTask r.tenant r.launch).asid r.tenant (g.base.toNat + Lr.kimg r.launch) 240 with
    | .error (c, va) => s.headFault q r c va 0
    | .ok ws =>
      let t := s.recTask r.tenant r.launch
      let s := (s.taskTouch q t.asid r.tenant (t.segtab + 32 * Lr.sel r.launch 0) 32).taskTouch q t.asid r.tenant
        (g.base.toNat + Lr.kimg r.launch) 1920
      (s.dropLines q).updHead q fun r => { r with image := some ws }

/-- A head is made ready as far as it can be now: its dependence is asked for, or its image read. -/
def State.prepareHead (s : State) (q : Nat) : State :=
  match (s.queue q).recs with
  | [] => s
  | r :: _ =>
    match r.dep with
    | .asked => s
    | .met => if r.image.isSome then s else s.readImage q r
    | .fresh =>
      if Lr.dep r.launch then
        match s.recCounter q r.tenant r.launch (Lr.depo r.launch) (.sched q) (.waitGe r.launch.w7) with
        | .error (c, va) => s.headFault q r c va 3
        | .ok h =>
          let t := s.recTask r.tenant r.launch
          let s := s.taskTouch q t.asid r.tenant (t.segtab + 32 * Lr.sel r.launch 4) 32
          ((s.dropLines q).updHead q fun r => { r with dep := .asked }).schedHome h
      else (s.updHead q fun r => { r with dep := .met }).readImage q r

/-- DEPENDENCE_MET (R331): ev.a the queue, ev.b 1 when the counter has reached the value and 2 when its home has met poison, which has
read nothing (R325): the dependence is asked for again; else the object at ev.c is no counter. -/
def execDependenceMet (s : State) : Host.Outcome State Fault Refusal :=
  let q := s.ctl.ev.a
  match (s.queue q).recs with
  | [] => .next s
  | r :: _ =>
    if r.dep ≠ .asked then .next s
    else if s.ctl.ev.b = 1 then .next (s.updHead q fun r => { r with dep := .met }).kick
    else if s.ctl.ev.b = 2 then .next ((s.updHead q fun r => { r with dep := .fresh }).later s.ctl.lat.hbm .pondPlacement 0 0 0)
    else .next (s.discardHead q r 0x41 s.ctl.ev.c 3)

/-! ## The choice of a queue (R332) -/

/-- The head of a queue when it is eligible. -/
def State.eligible (s : State) (q : Nat) : Option QRec :=
  match (s.queue q).recs with
  | r :: _ => if r.dep = .met && r.image.isSome then some r else none
  | [] => none

/-- The queues with a blocking head: order of becoming blocking, queue, tenant. -/
def State.blockers (s : State) : List (Nat × Nat × Nat) :=
  s.dev.queues.filterMap fun k => match k.2.recs with
    | r :: _ => r.blocking.map fun b => (b, k.1, r.tenant)
    | [] => none

/-- The queue whose blocking head a tenant's sub-mesh serves: the first that became blocking. -/
def State.firstBlocker (s : State) (tenant : Nat) : Option Nat :=
  (((s.blockers.filter fun b => b.2.2 == tenant).foldl (fun (m : Option (Nat × Nat)) b =>
    match m with
    | some x => if b.1 < x.1 then some (b.1, b.2.1) else m
    | none => some (b.1, b.2.1)) none)).map (·.2)

/-- No other head blocks this queue's (R332). -/
def State.mayPlace (s : State) (q tenant : Nat) : Bool :=
  match s.firstBlocker tenant with
  | some b => b == q
  | none => true

/-- SUB of a queue (R327). -/
def LaunchQueue.rect (k : LaunchQueue) : Rect := ⟨k.cfg.subCol, k.cfg.subRow, k.cfg.subW, k.cfg.subH⟩

/-- A cluster is claimed by the blocking head of another tenant's queue (R333): a head claims its sub-mesh. -/
def State.claimed (s : State) (tenant cl : Nat) : Bool :=
  s.blockers.any fun b => b.2.2 != tenant && s.firstBlocker b.2.2 == some b.2.1 && (s.queue b.2.1).rect.has cl

/-- Queues with an eligible head of a priority, in the order of service. -/
def State.rotation (s : State) (p : Nat) : List Nat :=
  let qs := s.dev.queues.keys.filter fun q => (s.queue q).cfg.prio == p && (s.eligible q).isSome
  let l := s.dev.served.toList.getD p 4095
  qs.filter (decide <| l < ·) ++ qs.filter (decide <| · ≤ l)

/-! ## Placement (R333) -/

/-- A cluster can take a crew of a tenant. -/
def State.clusterFree (s : State) (tenant cl : Nat) : Bool :=
  let c := s.cluster cl
  c.crew.isNone && c.powered && !c.withdrawn && !s.claimed tenant cl

/-- A rectangle of clusters is free. -/
def State.rectFree (s : State) (tenant : Nat) (r : Rect) : Bool :=
  (List.range (r.w * r.h)).all fun n => s.clusterFree tenant (clusterAt (r.col + n % r.w) (r.row + n / r.w))

/-- A rectangle lies within the 64 columns and 32 rows of the torus: it never wraps. -/
def Rect.onTorus (r : Rect) : Bool := decide (r.col + r.w ≤ 64) && decide (r.row + r.h ≤ 32)

/-- The first free rectangle of a size in a sub-mesh: ascending row, then ascending column. -/
def State.firstFit (s : State) (tenant : Nat) (sub : Rect) (w h : Nat) : Option (Nat × Nat) :=
  if sub.w < w || sub.h < h then none
  else
    let nc := sub.w - w + 1
    let at' (i : Nat) : Rect := ⟨sub.col + i % nc, sub.row + i / nc, w, h⟩
    (firstBelow (fun i => (at' i).onTorus && s.rectFree tenant (at' i)) (nc * (sub.h - h + 1)) 0).map
      fun i => (sub.col + i % nc, sub.row + i / nc)

/-- Steps 1 and 2 of R335 on one cluster: it is reserved, the cache loses its ways to the scratchpad, or every line when
the address space changes (R311, R312). -/
def State.reserveCluster (s : State) (pond : Nat) (p : Pond) (n cl : Nat) : State :=
  let c := s.cluster cl
  let size := Lr.spad p.launch
  let other := c.l1.any fun l => l.asid != p.asid
  let gone (l : L1Line) : Bool := other || decide ((327680 - size) / 16384 ≤ l.way)
  let s := s.writeBackLines cl gone .nobody []
  s.updCluster cl fun c => { c with
    l1 := c.l1.filter (!gone ·), icache := if other then [] else c.icache,
    crew := some ⟨pond, n, size, p.asid, p.tenant, p.gtid, p.launch⟩ }

/-- Every cluster of a pond with its crew number. -/
def State.eachCluster (s : State) (p : Pond) (f : State → Nat → Nat → State) : State :=
  (List.range (p.w * p.h)).foldl (fun s n => f s n (p.clusters.getD n 0)) s

/-- The next pond of a head takes a rectangle. -/
def State.placePond (s : State) (q : Nat) (r : QRec) (col row : Nat) : State :=
  let l := r.launch
  let k := s.ctl.nextPond
  let w := Lr.width l
  let h := Lr.height l
  let p : Pond :=
    { id := BitVec.ofNat 32 (Lr.pidb l + r.placed), queue := q, seq := r.seq, tenant := r.tenant, gtid := r.gtid,
      asid := (s.recTask r.tenant l).asid, launch := l, key := s.dev.placements.toNat, col := col, row := row, w := w, h := h,
      state := .starting, live := Lr.crew l * w * h, image := r.image.getD [] }
  let s := s.updCtl fun c => { c with nextPond := k + 1 }
  let s := s.updDev fun d => { d with
    placements := d.placements + 1, ponds := d.ponds.set k p, served := d.served.setIfInBounds (s.queue q).cfg.prio q }
  let s := (s.eachCluster p fun s n cl => s.reserveCluster k p n cl).later 1 .pondPlacement k 0 0
  if r.placed = Lr.npm1 l then s.popHead q
  else ((s.updHead q fun r => { r with placed := r.placed + 1, blocking := none }).unschedule .headBlocking q).kick

/-- A head that cannot be placed now becomes blocking 2^20 cycles later (R332). -/
def State.awaitBlocking (s : State) (q : Nat) (r : QRec) : State :=
  if r.blocking.isSome || s.scheduled .headBlocking q then s else s.later 1048576 .headBlocking q 0 0

/-- The queues are tried in turn until one pond is placed. -/
def State.tryQueues (s : State) : List Nat → State
  | [] => s
  | q :: qs =>
    match s.eligible q with
    | none => s.tryQueues qs
    | some r =>
      match (if s.mayPlace q r.tenant then s.firstFit r.tenant (s.queue q).rect (Lr.width r.launch) (Lr.height r.launch) else none) with
      | some (c, w) => s.placePond q r c w
      | none => (s.awaitBlocking q r).tryQueues qs

/-- HEAD_BLOCKING (R332). -/
def execHeadBlocking (s : State) : Host.Outcome State Fault Refusal :=
  let q := s.ctl.ev.a
  match s.eligible q with
  | some r =>
    if r.blocking.isSome then .next s
    else
      let n := s.ctl.nextId
      .next ((s.updCtl fun c => { c with nextId := n + 1 }).updHead q fun r => { r with blocking := some n }).kick
  | none => .next s

/-! ## The start of a pond (R335) -/

/-- The generator of a format context at launch start (R240). -/
def seedGen (seed : Word) (pondId n : Nat) : Word :=
  let v := seed ^^^ (BitVec.ofNat 64 (pondId * 2 ^ 32 + n) * 0x9E3779B97F4A7C15) ^^^ 0xA5A5A5A5A5A5A5A5
  if v = 0 then 1 else v

/-- A core at a pond's start: its worker slots and queues are empty, the rings that its zeroed TCM held with them. -/
def Core.start (c : Core) : Core :=
  { c with
    slots := #v[c.slots[0], c.slots[1], .empty, .empty, .empty, .empty, .empty, .empty], entries := [], reserved := 0, fifo := [],
    scb := [], tags := 0, groupRound := [], groupOpen := [], groupBad := [], noBind := false,
    net := { c.net with hHead := 0, hTail := 0, hUsed := 0, sHead := 0, sTail := 0, sUsed := 0, hSkip := 0, sSkip := 0 } }

/-- Bytes zeroed, with their poison. -/
def Memory.clear (m : Memory) (a n : Nat) : Memory := (m.zero a n).clearPoison a n

/-- Steps 3 to 5 of R335 on one cluster. -/
def State.startCluster (s : State) (k : Nat) (p : Pond) (n cl : Nat) : State :=
  let l := p.launch
  let gen (j : Nat) : Vector Word 4 := #v[0, 0x3F803F803F803F80, 0x3F803F803F803F80, seedGen l.w2 p.id.toNat (8 * n + j)]
  let s := s.updCluster cl fun c => { c with
    regs := { trapvec := BitVec.ofNat 32 (Lr.tvec l) }, spawnCtr := 0, pool := {}, empties := [], probe := {},
    mx := { c.mx with
      last := 7, banks := Vector.replicate 4 {}, token := 0, qdCount := 0,
      ctxs := #v[gen 0, gen 1, gen 2, gen 3, gen 4, gen 5, gen 6, gen 7] } }
  let s : State := { s with mem := s.mem.clear (spadKey cl 0) (Lr.spad l) }
  (List.range 8).foldl (fun s j =>
    let core := 8 * cl + j
    let m := s.mem.clear (tcmKey core 0x800) 0x6800
    let m := (m.clearPoison (tcmKey core 0) 2000).write (tcmKey core 0)
      (bytesOf (p.image ++ s.identity p core ++ [bindWord 0 (systemIdent k), bindWord 1 (systemIdent k)]))
    ({ s with mem := m } : State).updCore core Core.start) s

/-- Step 6 of R335 on one cluster: the tadpoles in ascending crew rank (R334). -/
def State.fillCluster (s : State) (k : Nat) (p : Pond) (n cl : Nat) : State :=
  let size := Lr.crew p.launch
  (List.range size).foldl (fun s j =>
    let t := Lr.thread p.launch k p.id.toNat p.gtid (Lr.entry p.launch) 0 (n * size + j) j (n * size + j) (8 * cl + j % 8)
    s.placeThread { t with aux := { t.aux with firstAcq := some .device } }) s

/-- Write-backs of some cluster of a pond are in flight. -/
def State.pondWbs (s : State) (p : Pond) : Bool := p.clusters.any fun cl => s.wbInFlight cl

/-- Steps 3 to 6 of R335 once the caches are emptied. -/
def State.startPond (s : State) (k : Nat) (p : Pond) : State :=
  if s.pondWbs p then s.later 8 .pondPlacement k 0 0
  else
    let s := s.eachCluster p fun s n cl => s.startCluster k p n cl
    let s := s.eachCluster p fun s n cl => s.fillCluster k p n cl
    s.updPond k fun x => { x with state := .running, image := [] }

/-- POND_PLACEMENT (R331 to R335): with ev.a 0 the scheduler readies the heads and places one pond; else the start of pond
ev.a goes on. -/
def execPondPlacement (s : State) : Host.Outcome State Fault Refusal :=
  let k := s.ctl.ev.a
  if k = 0 then
    let s := s.dev.queues.keys.foldl (fun s q => s.prepareHead q) s
    .next (s.tryQueues ((List.range 4).flatMap fun p => s.rotation p))
  else match s.pond k with
    | some p => match p.state with
      | .starting => .next (s.startPond k p)
      | _ => .next s
    | none => .next s

/-! ## The end of a pond (R336) -/

/-- Clusters have become free: heads and resumed ponds try again (R332, R344). -/
def State.clustersFreed (s : State) : State :=
  (s.dev.ponds.foldl (fun s p => match p.2.state with
    | .resuming _ _ _ => if s.scheduled .resume p.1 then s else s.later 1 .resume p.1 0 0
    | _ => s) s).kick

/-- A log append of a pond has not reached its home. -/
def State.appending (s : State) (p : Pond) : Bool :=
  let mine (e : LogEntry) : Bool := e.keyDev == s.dev.id && e.keyCount == p.key
  (s.msgs.any fun m => match m.2 with | .append e _ => mine e | _ => false) ||
    s.slices.any fun x => x.2.logWait.any fun e => mine e.1

/-- The request for a pond's completion counter, if it names one. -/
def State.doneCounter (s : State) (k : Nat) (p : Pond) : Option (Except (Nat × Nat) HomeReq) :=
  if Lr.don p.launch then some (s.recCounter (pondAsker k) p.tenant p.launch (Lr.dono p.launch) .nobody (.cntAdd 1)) else none

/-- The completion increment of a pond, or the record that it cannot be made. -/
def State.signalPond (s : State) (p : Pond) (d : Option (Except (Nat × Nat) HomeReq)) : State :=
  match d with
  | some (.ok r) => s.probeCounter r p
  | some (.error (c, va)) => s.postRec (s.schedRec p.tenant p.launch c va 3)
  | none => s

/-- A pond gives up its clusters, and its groups with the last contributor are retired (R360). A PREEMPT that it ends under finds no pond:
DESIGN CHOICE, safe, log 25. -/
def State.freePond (s : State) (k : Nat) (p : Pond) : State :=
  let mine (cl : Nat) : Bool := match (s.cluster cl).crew with | some c => c.pond == k | none => false
  let s := s.eachCluster p fun s _ cl => if mine cl then s.updCluster cl fun c => { c with crew := none, pool := {} } else s
  let s := s.updPond k fun x => { x with state := .ended }
  let s := match p.state with
    | .preempting fn tag _ => (s.eachCluster p fun s _ cl =>
        (List.range 8).foldl (fun s j => s.updCore (8 * cl + j) fun c => { c with noBind := false }) s).putCompletion ⟨0x0D, 4, fn, tag, []⟩
    | _ => s
  (s.retiring.filter fun g => s.contributes p g && !s.groupLives g).foldl (fun s g => s.retireGroup g) s

/-- The end of a pond as far as it can go; with ev.b 1 other devices have been asked to merge its entries. A saved pond ends when it has been
resumed (R344), and one that a reset has aborted leaves memory as it is (R433). -/
def pondEnd (s : State) : Host.Outcome State Fault Refusal :=
  let k := s.ctl.ev.a
  match s.pond k with
  | some p =>
    if p.isEnded || decide (0 < p.live) || s.jobs.any (fun j => j.2.pond == k && !j.2.finished) then .next s
    else if p.aborted then .next ((s.freePond k p).clustersFreed)
    else if p.isSaved then .next s
    else if s.appending p then .next (s.later 8 .pondEnd k 0 0)
    else
      match (if s.ctl.ev.b = 0 then s.sealAway else none) with
      | some (pa, tenant) => .next (s.needs pa tenant 0)
      | none =>
        let s := if s.ctl.ev.b = 0 then s.mergePond k p else s
        if s.merging p then .next (s.later 8 .pondEnd k 1 0)
        else match s.doneCounter k p with
          | some (.error (0, va)) =>
            .next ((s.askLine (pondAsker k) (s.recTask p.tenant p.launch).asid p.tenant va).later 8 .pondEnd k 1 0)
          | d => .next ((((s.dropLines (pondAsker k)).freePond k p).signalPond p d).clustersFreed)
  | none => .next s

/-- POND_END (R336). -/
def execPondEnd (s : State) : Host.Outcome State Fault Refusal := withTables pondEnd s

end Sys2Proof.Machine
end

