-- ==== Sys2Proof/Machine/Preempt.lean ====
section
/-! DEFINITION. Pre-emption and resumption of ponds (R45, R214, R340 to R344), core dumps (R421 to R423). -/

namespace Sys2Proof.Machine

/-! ## Unbinding (R45, R214, R340) -/

/-- The entries of a thread in its core's special-function queue are gone: the one in service is abandoned and the next starts
a cycle later (R214). -/
def State.abandonSfu (s : State) (tid : Nat) : State :=
  let core := (s.thread tid).core
  let q := (s.core core).sfu
  let rest := q.filter fun e => e.tid != tid
  let headGone := match q with | e :: _ => e.tid == tid | [] => false
  let s := s.updCore core fun c => { c with sfu := rest }
  if headGone then (s.unschedule .sfuOperationFinish core).sfuService core (s.ctl.cycle + 1) else s

/-- A thread whose binding is not complete leaves its slot for the head of the FIFO, from which it came. -/
def State.unseat (s : State) (tid : Nat) : State :=
  if (s.thread tid).slot.isSome then (s.freeSlot tid).updCore (s.thread tid).core fun c => { c with fifo := tid :: c.fifo } else s

/-- A thread leaves its slot, ready, to execute its present word anew. -/
def State.unbind (s : State) (tid : Nat) : State :=
  let s := s.updThread tid fun t => { t with run := .ready, cont := .none, aux := { t.aux with snap := none } }
  (s.freeSlot tid).updCore (s.thread tid).core fun c => { c with fifo := c.fifo ++ [tid] }

/-- A wait that no reply ends: the word is executed anew after the resumption. A blocking ISSUE has pushed its job, and its boundary comes
with the job's completion (R45). -/
def Thread.restartable (t : Thread) : Bool :=
  match t.cont with
  | .observe _ => t.word.toNat % 2 ^ 9 == 0x010
  | .depart c => decide (16384 ≤ c)
  | .retry | .second => (match t.aux.why with | .scb | .line | .kick | .pool | .group => true | _ => false)
  | _ => false

/-- A worker thread at its boundary (R45): none while it awaits a reply. A gang leaves as one unit and keeps its slot's
number (R340 step 3). -/
def State.unbindThread (s : State) (tid : Nat) : Option State :=
  let t := s.thread tid
  if t.inGang then
    let drop (s : State) (u : Nat) : State := match (s.thread u).run with
      | .sfu => (s.abandonSfu u).updThread u fun t => { t with run := .waiting, cont := .retry, aux := { t.aux with why := .none } }
      | _ => s
    if (s.gangOf tid).all fun u => (s.thread u).abandoned ||
        (match (s.thread u).run with | .active | .parked | .faulted | .ready | .sfu => true | _ => false)
      then some ((s.gangOf tid).foldl drop s)
    else none
  else match t.run with
    | .active => some (s.unbind tid)
    | .sfu => some ((s.abandonSfu tid).unbind tid)
    | .forming _ => some (s.unbind tid)
    | .ready => some (s.unseat tid)
    | .parked | .faulted | .idle => some s
    | .waiting => if t.restartable then some (s.unbind tid) else none
    | .moving => none

/-- The worker threads of a pond. -/
def State.pondThreads (s : State) (k : Nat) : List Nat :=
  (s.threads.filter fun t => decide (32768 ≤ t.1) && t.2.ident.pond == k).map (·.1)

/-- Every thread that can unbind does so; whether all have. -/
def State.unbindAll (s : State) (tids : List Nat) : State × Bool :=
  tids.foldl (fun x tid => match x.1.unbindThread tid with | some s => (s, x.2) | none => (x.1, false)) (s, true)

/-! ## The save area (R341) -/

/-- Bytes of one range copied to another with their poison. -/
def Memory.copyRange (m : Memory) (src dst n : Nat) : Memory :=
  ((m.cells.filter fun c => decide (src ≤ c.1) && decide (c.1 < src + n)).foldl
    (fun x c => x.writeByte (c.1 - src + dst) c.2) (m.clear dst n)).copyPoison src dst n

/-- The elements of a bank as (offset, value) pairs, and the flag bits. -/
def State.saveBank (s : State) (b k : Nat) (x : Bank) : State :=
  let s := x.elems.foldl (fun s e => s.putBytes (b + 0x40400 + 32768 * k + 8 * e.1) (leBytes 8 e.2.val.toNat)) s
  let s := x.elems.foldl (fun s e =>
    let i := 4096 * k + e.1
    let old := (s.mem.readByte (b + 0x60400 + i / 4)).toNat
    if e.2.nan || e.2.satd then
      s.putBytes (b + 0x60400 + i / 4) [BitVec.ofNat 8 (old + (b2n e.2.nan + 2 * b2n e.2.satd) * 4 ^ (i % 4))]
    else s) s
  s.putBytes (b + 0x61400 + k) [BitVec.ofNat 8 (b2n x.fp32)]

/-- A bank read back from a block. -/
def State.loadBank (s : State) (b k : Nat) : Bank :=
  let at' (i : Nat) : Nat × Elem :=
    let f := (s.mem.readByte (b + 0x60400 + (4096 * k + i) / 4)).toNat / 4 ^ (i % 4)
    (i, ⟨BitVec.ofNat 64 (leNat (s.mem.read (b + 0x40400 + 32768 * k + 8 * i) 8)), f % 2 == 1, f / 2 % 2 == 1⟩)
  { fp32 := (s.mem.readByte (b + 0x61400 + k)).toNat % 2 == 1,
    elems := ((List.range 4096).map at').filter fun e => e.2 != ({} : Elem) }

/-- The header words of a block (R341), in the order of the rule: log 25. -/
def State.headerWords (s : State) (p : Pond) (n cl : Nat) : List Word :=
  let c := s.cluster cl
  let w (n : Nat) : Word := BitVec.ofNat 64 n
  [w p.id.toNat, w (s.dev.id * 2 ^ 36 + p.key), w n, w (Lr.spad p.launch), c.regs.migthr.setWidth 64, c.regs.rtb.setWidth 64, c.regs.nfl,
    c.regs.trapvec.setWidth 64, w c.mx.token, w c.mx.qdCount] ++
    ((List.range 8).map fun j => w (s.core (8 * cl + j)).tags.toNat) ++ [w c.spawnCtr]

/-- One tadpole saved: its block entry with the poison of its context (R408), its place noted, its slot given up. -/
def State.saveThread (s : State) (p : Pond) (b n cl tid : Nat) : State :=
  let t := s.thread tid
  let j := t.core % 8
  let i := 8 * t.aux.entry + j
  let pos := ((s.core t.core).fifo.findIdx? (· == tid)).getD 0
  let gang := t.slot.getD 0
  let s := s.saveTadpole p b i t
  let s : State := { s with mem := s.mem.copyPoison (ctxKey t.core t.aux.entry) (b + 0x400 + 128 * i) 128 }
  let s := s.putBytes (b + 0x200 + 2 * i) (leBytes 2 (tableEntry gang t.stateCode pos j))
  let s := s.updCore (8 * cl + j) fun c => { c with slots := c.slots.map fun x => if (x.tid == some tid) then .empty else x }
  s.updThread tid fun t => { t with
    slot := none, run := if t.run = .active then .ready else t.run,
    aux := { t.aux with savedAt := 256 * n + i, mark := none, migReq := none, snap := none } }

/-- One crew block written (R341); the word VALID last. -/
def State.saveCluster (s : State) (k : Nat) (p : Pond) (area n cl : Nat) : State :=
  let b := s.blockKey p area n
  let s : State := { s with mem := s.mem.clear b (blockSize (Lr.spad p.launch)) }
  let s := s.putBytes b (bytesOf (s.headerWords p n cl))
  let s := (s.cluster cl).mx.ctxs.toList.zipIdx.foldl (fun s x => s.putBytes (b + 0x100 + 32 * x.2) (bytesOf x.1.toList)) s
  let mine := (s.pondThreads k).filter fun tid => (s.thread tid).core / 8 == cl
  let s := mine.foldl (fun s tid => s.saveThread p b n cl tid) s
  let m := (List.range 8).foldl (fun m j => m.copyRange (tcmKey (8 * cl + j) 0) (b + 0x8400 + 0x7000 * j) 0x7000) s.mem
  let s : State := { s with mem := m.copyRange (spadKey cl 0) (b + 0x62400) (Lr.spad p.launch) }
  let s := (s.cluster cl).mx.banks.toList.zipIdx.foldl (fun s x => s.saveBank b x.2 x.1) s
  let c := s.cluster cl
  let kept : KeptCluster := ⟨c.regs.trapvec, c.probe, c.pool, (List.range 8).map fun j =>
    let x := s.core (8 * cl + j)
    (x.scb, x.groupRound, x.groupOpen, x.groupBad)⟩
  let s := s.updPond k fun x => { x with kept := x.kept ++ [kept] }
  let s := (List.range 8).foldl (fun s j => s.updCore (8 * cl + j) fun c => { c with
    entries := [], fifo := [], scb := [], noBind := false }) s
  let s := s.updCluster cl fun c => { c with crew := none, pool := {}, probe := {} }
  s.putBytes (b + 248) (leBytes 8 1)

/-! ## PREEMPT (R340) -/

/-- The pond that a command names. -/
def State.namedPond (s : State) (q seq pond : Nat) : Option (Nat × Pond) :=
  s.dev.ponds.find? fun p => p.2.queue == q && p.2.seq == seq && p.2.id.toNat == pond && !p.2.isEnded

/-- The waits of R340 step 4: replies, migrations, appends, MX, QD and CP jobs. -/
def State.pondQuiet (s : State) (k : Nat) (p : Pond) : Bool :=
  !s.appending p && !(s.jobs.any fun j => j.2.pond == k && !j.2.finished && decide (j.2.eng ≠ .cl)) &&
    (s.pondThreads k).all fun tid => decide ((s.thread tid).aux.appends = 0)

/-- The save goes on (R340): threads unbind, the caches are written back, the area is written and the clusters are freed. -/
def State.saveOn (s : State) (k : Nat) (p : Pond) (fn : Nat) (tag : BitVec 32) (area : Nat) : State :=
  let (s, out) := s.unbindAll (s.pondThreads k)
  let again (s : State) : State := s.later 8 .preempt k 0 0
  if !out || !s.pondQuiet k p || s.stackShut area then again s
  else
    let dirty := p.clusters.any fun cl => (s.cluster cl).l1.any fun l => l.dirty != 0
    if dirty then again (p.clusters.foldl (fun s cl => s.writeBackLines cl (fun l => l.dirty != 0) .nobody []) s)
    else if s.pondWbs p then again s
    else
      let s := s.eachCluster p fun s n cl => s.saveCluster k p area n cl
      let s := s.updPond k fun x => { x with state := .saved area }
      (s.putCompletion ⟨0x0D, 0, fn, tag, []⟩).clustersFreed

/-- PREEMPT (R340, R344, R445): with ev.a a pond the save goes on. -/
def execPreempt (s : State) : Host.Outcome State Fault Refusal :=
  match s.ctl.ev.arg with
  | .cmd h (.preempt q seq pond area) =>
    if h.fn ≠ 0 then .next (s.cmdEnd h 0x0D 2 [])
    else if area % 4096 ≠ 0 then .next (s.cmdEnd h 0x0D 3 [])
    else match s.namedPond q seq pond with
      | some (k, p) => match p.state with
        | .running =>
          let s := s.updPond k fun x => { x with state := .preempting h.fn h.tag area, kept := [] }
          let s := s.eachCluster p fun s _ cl => (List.range 8).foldl (fun s j => s.updCore (8 * cl + j) fun c => { c with noBind := true }) s
          .next ((s.cmdGo h).later 0 .preempt k 0 0)
        | _ => .next (s.cmdEnd h 0x0D 4 [])
      | none => .next (s.cmdEnd h 0x0D 4 [])
  | .none =>
    let k := s.ctl.ev.a
    match s.pond k with
    | some p => match p.state with
      | .preempting fn tag area => .next (s.saveOn k p fn tag area)
      | _ => .next s
    | none => .next s
  | _ => .fault .noSuchHappening

/-! ## RESUME (R343) -/

/-- A saved tadpole with its tables and the poison of its context read back, on its new core. -/
def State.loadThread (s : State) (p : Pond) (b cl tid : Nat) : State :=
  let i := (s.thread tid).aux.savedAt % 256
  let e := s.tableAt b i
  let tr := s.mem.read (b + 0x62400 + Lr.spad p.launch + 64 * i) 64
  let s : State := { s with mem := s.mem.copyPoison (b + 0x400 + 128 * i) (ctxKey (8 * cl + e % 8) (i / 8)) 128 }
  s.updThread tid fun t => { t with
    ctx := Ctx.ofBytes (s.mem.read (b + 0x400 + 128 * i) 128), trap := TrapRegs.ofBytes tr, ident := Ident.ofBytes t.ident.pond tr,
    core := 8 * cl + e % 8,
    run := match e / 256 % 8 with | 2 => .parked | 3 => .faulted | _ => if t.abandoned then .waiting else .ready,
    aux := { t.aux with
      entry := i / 8,
      firstAcq := some .device } }

/-- The threads of a block, by entry of its state table. -/
def State.blockThreads (s : State) (k n : Nat) : List Nat :=
  (List.range 256).filterMap fun i => (s.pondThreads k).find? fun tid => (s.thread tid).aux.savedAt == 256 * n + i

/-- The queues and slots of a core of a resumed crew: each gang member takes its saved slot, where its binding follows; the other ready
tadpoles enter the FIFO in saved order. -/
def State.loadCore (s : State) (b : Nat) (core : Nat) (tids : List Nat) : State :=
  let entry (tid : Nat) : Nat := s.tableAt b ((s.thread tid).aux.savedAt % 256)
  let mine := tids.filter fun tid => (s.thread tid).core == core
  let gang := mine.filter fun tid => (s.thread tid).inGang
  let queue := (List.range 32).flatMap fun pos => mine.filter fun tid => entry tid / 256 % 8 == 1 && entry tid / 8 % 32 == pos
  let s := s.updCore core fun c => { Core.start c with entries := mine, fifo := queue, noBind := true }
  gang.foldl (fun s tid => s.seat tid core (entry tid / 2 ^ 11 % 8) 0) s

/-- A crew block restored on a cluster (R343). -/
def State.loadCluster (s : State) (k : Nat) (p : Pond) (area n cl : Nat) : State :=
  let b := s.blockKey p area n
  let w (i : Nat) : Nat := leNat (s.mem.read (b + 8 * i) 8)
  let ctx (j : Nat) : Vector Word 4 :=
    let x := fun i => BitVec.ofNat 64 (leNat (s.mem.read (b + 0x100 + 32 * j + 8 * i) 8))
    #v[x 0, x 1, x 2, x 3]
  let kept := p.kept.getD n ⟨0, {}, {}, []⟩
  let s := s.updCluster cl fun c => { c with
    regs := ⟨BitVec.ofNat 16 (w 4), BitVec.ofNat 32 (w 7), BitVec.ofNat 64 (w 6), BitVec.ofNat 57 (w 5)⟩, spawnCtr := w 18,
    pool := kept.pool, probe := kept.probe, empties := [],
    mx := { c.mx with
      banks := #v[s.loadBank b 0, s.loadBank b 1, s.loadBank b 2, s.loadBank b 3], token := w 8, qdCount := w 9,
      last := 7, ctxs := #v[ctx 0, ctx 1, ctx 2, ctx 3, ctx 4, ctx 5, ctx 6, ctx 7] } }
  let tids := s.blockThreads k n
  let s := tids.foldl (fun s tid => s.loadThread p b cl tid) s
  let s : State := { s with mem := s.mem.copyRange (b + 0x62400) (spadKey cl 0) (Lr.spad p.launch) }
  (List.range 8).foldl (fun s j =>
    let core := 8 * cl + j
    let m := s.mem.copyRange (b + 0x8400 + 0x7000 * j) (tcmKey core 0) 0x7000
    let s : State := { s with mem := m.write (tcmKey core (8 * 240)) (bytesOf ((s.identity p core).take 4)) }
    let s := s.loadCore b core tids
    let (scb, rounds, opened, bad) := kept.cores.getD j ([], [], [], [])
    s.updCore core fun c => { c with
      scb := scb.filter fun e => (s.job e.job).isSome, groupRound := rounds, groupOpen := opened, groupBad := bad,
      tags := BitVec.ofNat 5 (w (10 + j)) }) s

/-- A job of a resumed pond reaches the TCM of its new cluster. -/
def Job.movedTo (old new : Pond) (x : Job) : Job :=
  let cl := x.tcmCore / 8
  let n := (clusterRow cl - old.row) * old.w + (clusterCol cl - old.col)
  { x with place := 8 * new.clusters.getD n 0 + x.tcmCore % 8 + 1 }

/-- Wakes that were kept while the pond was saved are taken up again. -/
def State.keptWakes (s : State) (k : Nat) : State :=
  let mine (tid : Nat) : Bool := decide (32768 ≤ tid) && (s.thread tid).ident.pond == k
  s.msgs.foldl (fun s m => match m.2 with
    | .wake (.thread tid) _ => if mine tid && !s.scheduled .wake m.1 then s.later 1 .wake m.1 0 0 else s
    | .reply (.thread tid) _ => if mine tid && !s.scheduled .replyArrival m.1 then s.later 1 .replyArrival m.1 0 0 else s
    | _ => s) s

/-- A saved pond is placed again, if a rectangle is free. -/
def State.resumeOn (s : State) (k : Nat) (p : Pond) (fn : Nat) (tag : BitVec 32) (area : Nat) : State :=
  -- a blocking head of the tenant takes the clusters that become free (R332)
  match (if (s.firstBlocker p.tenant).isSome || s.stackShut area then none else s.firstFit p.tenant (s.queue p.queue).rect p.w p.h) with
  | none =>
    let s := s.updPond k fun x => { x with state := .resuming fn tag area }
    if s.stackShut area then s.later 64 .resume k 0 0 else s
  | some (c, r) =>
    let new : Pond := { p with col := c, row := r, state := .running, kept := [] }
    let s := s.eachCluster new fun s n cl => s.reserveCluster k new n cl
    let s := s.eachCluster new fun s n cl => s.loadCluster k { new with kept := p.kept } area n cl
    -- popped pairs stand in the pools of the new clusters (R276)
    let s := (s.pondThreads k).foldl (fun s tid => s.updThread tid fun t => { t with aux := { t.aux with
      popped := t.aux.popped.map fun c => new.clusters.getD (p.clusters.idxOf c) c } }) s
    let s := s.updDev fun d => { d with ponds := d.ponds.set k new }
    let s : State := { s with jobs := s.jobs.map fun j => if j.2.pond = k then (j.1, j.2.movedTo p new) else j }
    let s := if p.probe.token.isSome then s.later 1 .probeToken k 0 0 else s
    (s.keptWakes k).later 8 .resume k fn tag.toNat

/-- A resumed pond begins once its caches are emptied (R343). -/
def State.resumeEnd (s : State) (k : Nat) (p : Pond) (fn tag : Nat) : State :=
  if s.pondWbs p then s.later 8 .resume k fn tag
  else
    let s := s.eachCluster p fun s _ cl => (List.range 8).foldl (fun s j => s.updCore (8 * cl + j) fun c => { c with noBind := false }) s
    -- a pond whose last tadpole ended while it was saved ends now (R336, R344)
    (s.checkPondEnd k).putCompletion ⟨0x0E, 0, fn, BitVec.ofNat 32 tag, []⟩

/-- RESUME (R343, R344): with ev.a a pond the resumption goes on. -/
def execResume (s : State) : Host.Outcome State Fault Refusal :=
  match s.ctl.ev.arg with
  | .cmd h (.resume area) =>
    if h.fn ≠ 0 then .next (s.cmdEnd h 0x0E 2 [])
    else match s.dev.ponds.find? fun p => p.2.state == .saved area with
      | some (k, p) => .next ((s.resumeOn k p h.fn h.tag area).cmdGo h)
      | none => .next (s.cmdEnd h 0x0E 4 [])
  | .none =>
    let k := s.ctl.ev.a
    match s.pond k with
    | some p => match p.state with
      | .resuming fn tag area => .next (s.resumeOn k p fn tag area)
      | .running => .next (s.resumeEnd k p s.ctl.ev.b s.ctl.ev.c)
      | _ => .next s
    | none => .next s
  | _ => .fault .noSuchHappening

/-! ## DUMP (R421 to R423) -/

/-- The image from offset 0x100 on (R422). -/
def State.dumpImage (s : State) (core : Nat) (d : DumpState) : List Byte :=
  let c := s.core core
  let pad (n : Nat) (bs : List Byte) : List Byte := bs ++ List.replicate (n - bs.length) 0
  let pos (tid : Nat) : Nat := (c.fifo.findIdx? (· == tid)).getD 0
  let rows (n : Nat) (f : Nat → List Byte) : List Byte := (List.range 32).flatMap fun e =>
    match c.entries.find? fun u => (s.thread u).aux.entry == e with
    | some u => f u
    | none => List.replicate n 0
  let table := rows 2 fun u => leBytes 2 (tableEntry ((s.thread u).slot.getD 0) (s.thread u).stateCode (pos u) core)
  let trap := rows 64 fun u => (s.thread u).trapBytes
  let tads := rows 128 fun u => (s.thread u).ctx.bytes
  let fmt := bytesOf ((s.cluster (core / 8)).mx.ctxs.toList.getD (core % 8) #v[0, 0, 0, 0]).toList
  let scb := c.scb.flatMap fun e => leBytes 8 (e.dst * 2 ^ 32 + e.dstLen) ++ leBytes 8 (e.src * 2 ^ 32 + e.srcLen)
  pad 256 d.latched ++ pad 256 table ++ pad 2048 trap ++ pad 4096 tads ++ fmt ++ pad 256 scb ++ List.replicate 992 0 ++
    s.mem.readClean (tcmKey core 0) 0x7000 ++ pad 4096 tads

/-- A dump's write of up to 128 bytes: the state, or the cause of the walk; cause 0 with what must be waited for. -/
def State.dumpWrite (s : State) (d : DumpState) (va : Nat) (bs : List Byte) : Except (Nat × Nat) State :=
  let ten := field (s.dev.asids.get 0 d.asid).toNat 52 8
  match s.walk d.asid ten va .hostWrite with
  | .error x => .error x
  | .ok e => if s.homeShut (e.phys va) then .error (0, e.phys va) else .ok (s.partWrite d.asid ten va e bs)

/-- Units of 128 bytes in ascending order: how many bytes were written, and the fault that stopped it. -/
def State.dumpUnits (s : State) (d : DumpState) (va : Nat) (bs : List Byte) : Nat → State × Nat × Option (Nat × Nat)
  | 0 => (s, 0, none)
  | n + 1 =>
    if bs.isEmpty then (s, 0, none)
    else match s.dumpWrite d va (bs.take 128) with
      | .error (0, pa) => (s.needs pa (field (s.dev.asids.get 0 d.asid).toNat 52 8) 0, 0, none)
      | .error (c, _) => (s, 0, some (c, va))
      | .ok s' =>
        let r := s'.dumpUnits d (va + 128) (bs.drop 128) n
        (r.1, (bs.take 128).length + r.2.1, r.2.2)

/-- The dump written (R423): its status and the valid length. -/
def State.dumpRun (s : State) (core : Nat) (d : DumpState) : State × Nat × Nat :=
  let req := 0xA000
  let trunc := decide (d.size < req)
  let n := min d.size req
  let word3 (valid fault : Nat) : Word := BitVec.ofNat 64 (valid * 2 ^ 32 + fault * 4 + b2n trunc * 2)
  let head (valid : Nat) (f : Option (Nat × Nat)) : List Byte :=
    bytesOf [BitVec.ofNat 64 (2 ^ 56 + core * 2 ^ 42 + s.dev.id * 2 ^ 30), BitVec.ofNat 64 d.start,
      BitVec.ofNat 64 (req * 2 ^ 32 + d.size), word3 valid (b2n f.isSome),
      BitVec.ofNat 64 (match f with | some x => x.2 | none => 0), BitVec.ofNat 64 (match f with | some x => x.1 | none => 0)] ++
      List.replicate 208 0
  let first (s : State) (bs : List Byte) : Except (Nat × Nat) State := match s.dumpWrite d d.va (bs.take 128) with
    | .error x => .error x
    | .ok s => s.dumpWrite d (d.va + 128) (bs.drop 128)
  let wait (s : State) (pa : Nat) : State := s.needs pa (field (s.dev.asids.get 0 d.asid).toNat 52 8) 0
  match first s (head 0 none) with
  | .error (0, pa) => (wait s pa, 4, 0)
  | .error _ => (s, 4, 0)
  | .ok s =>
    let (s, len, f) := s.dumpUnits d (d.va + 256) ((s.dumpImage core d).take (n - 256)) 400
    let valid := 256 + len
    match s.dumpWrite d d.va ((head valid f).take 128) with
    | .error (0, pa) => (wait s pa, 4, 0)
    | .error _ => (s, 4, 0)
    | .ok s => (s, if f.isSome then 2 else if trunc then 1 else 0, valid)

/-- A dump's answer: the completion entry in host memory and the completion record. -/
def State.dumpAnswer (s : State) (d : DumpState) (st valid : Nat) : State :=
  let s : State := { s with mem := s.mem.write (hostKey d.entry) (leBytes 8 st ++ leBytes 8 valid) }
  s.putCompletion ⟨0x10, 0, d.fn, d.tag, [BitVec.ofNat 64 st, BitVec.ofNat 64 valid]⟩

/-- A dump's end: the core binds again. -/
def State.dumpEnd (s : State) (core : Nat) (d : DumpState) (st valid : Nat) : State :=
  let saving := match (s.cluster (core / 8)).crew with
    | some c => (match s.pond c.pond with | some p => (match p.state with | .preempting _ _ _ => true | _ => false) | none => false)
    | none => false
  let s := (s.updDev fun x => { x with dumps := x.dumps.erase core }).updCore core fun c => { c with noBind := saving }
  s.dumpAnswer d st valid

/-- A gang member on the dumped core at its boundary: it leaves its slot's thread, to bind to the same slot again; its special-function
operation is abandoned, to be executed anew by it alone (R214, R421). The gang issues nothing meanwhile. -/
def State.dumpMember (s : State) (core tid : Nat) : Option State :=
  let t := s.thread tid
  let aside (s : State) : Option State := some (match t.slot with | some k => s.seat tid core k 0 | none => s)
  if t.abandoned then aside s
  else match t.run with
    | .sfu => aside ((s.abandonSfu tid).updThread tid fun t => { t with run := .waiting, cont := .retry, aux := { t.aux with why := .none } })
    | .active | .parked | .faulted | .ready => aside s
    | _ => none

/-- The worker threads of a core that a dump unbinds: those in its slots, and those whose special-function operation is in its queue. -/
def State.dumpThreads (s : State) (core : Nat) : List Nat :=
  (s.core core).entries.filter fun tid => (s.thread tid).slot.isSome || (s.thread tid).run == .sfu

/-- Every one of a core's threads leaves its slot that can (R421); whether all have. -/
def State.dumpUnbind (s : State) (core : Nat) : State × Bool :=
  (s.dumpThreads core).foldl (fun x tid =>
    match (if (x.1.thread tid).inGang then x.1.dumpMember core tid else x.1.unbindThread tid) with
    | some s => (s, x.2)
    | none => (x.1, false)) (s, true)

/-- Bytes that a dump has sent to another device have not been acknowledged there. -/
def State.dumpAway (s : State) (d : DumpState) : Bool :=
  s.msgs.any fun m => match m.2 with
    | .slice r => r.who == .nobody && r.write.isSome && !s.isLocal r.pa && r.asid == d.asid && decide (d.va ≤ r.va) && decide (r.va < d.va + d.size)
    | _ => false

/-- A dump goes on: the core's worker threads leave their slots, then the image is written; with ev.b its status and 1 its writes to another
device are awaited. -/
def State.dumpOn (s : State) (core : Nat) (d : DumpState) : State :=
  if 0 < s.ctl.ev.b then
    (if s.dumpAway d then s.later 8 .dump core s.ctl.ev.b s.ctl.ev.c else s.dumpEnd core d (s.ctl.ev.b - 1) s.ctl.ev.c)
  else
    let (s, out) := s.dumpUnbind core
    if !out then s.later 8 .dump core 0 0
    else
      let (s, st, valid) := s.dumpRun core d
      if s.dumpAway d then s.later 8 .dump core (st + 1) valid else s.dumpEnd core d st valid

/-- DUMP (R421): with ev.a a core the dump goes on. -/
def execDump : State → Host.Outcome State Fault Refusal := withTables fun s =>
  match s.ctl.ev.arg with
  | .cmd h (.dump core asid va size entry) =>
    if h.fn ≠ 0 then .next (s.cmdEnd h 0x10 2 [])
    else if 16384 ≤ core || va % 256 ≠ 0 || 8192 ≤ asid then .next (s.cmdEnd h 0x10 3 [])
    else if (s.dev.dumps.find core).isSome then .next (s.cmdEnd h 0x10 4 [])
    else
      let d : DumpState := ⟨asid, va, size, entry, h.fn, h.tag, s.ctl.cycle, (s.thread (2 * core)).ctx.bytes ++ (s.thread (2 * core + 1)).ctx.bytes⟩
      if size < 256 then .next ((s.dumpAnswer d 3 0).cmdGo h)
      else
        let s := (s.updDev fun x => { x with dumps := x.dumps.set core d }).updCore core fun c => { c with noBind := true }
        .next ((s.cmdGo h).later 0 .dump core 0 0)
  | .none =>
    match s.dev.dumps.find s.ctl.ev.a with
    | some d => .next (s.dumpOn s.ctl.ev.a d)
    | none => .next s
  | _ => .fault .noSuchHappening

end Sys2Proof.Machine
end

