-- ==== Sys2Proof/Machine/Commands.lean ====
section
/-! DEFINITION. The management commands that set the tables of the part, answer faults, submit launches, create objects and
read counters (R427 to R432, R437, R438, R443, R444), and the host's accesses through the BARs (R424 to R426). -/

namespace Sys2Proof.Machine

/-! ## BAR0 (R425, R426) -/

/-- MCQ (R426): ev.a the function. The command is put or lost; with ev.b 1 the host agent looks at the queue again. -/
def execMcq (s : State) : Host.Outcome State Fault Refusal :=
  let fn := s.ctl.ev.a
  match s.ctl.ev.arg with
  | .cmd h c =>
    if !s.dev.boot.bootok then .next s
    else if (s.fn fn).mcq.length < 64 then
      .next ((s.updFn fn fun f => { f with mcq := f.mcq ++ [(⟨fn, h.tag⟩, c)] }).nextCommand fn)
    else .next (s.updFn fn fun f => { f with mcqFull := true })
  | _ => .next (s.nextCommand fn)

/-- The host reads bytes. -/
def State.toHost (s : State) (bs : List Byte) : State := s.updDev fun d => { d with hostOut := bs }

/-- The 64 bytes of a completion record (R427). -/
def Completion.bytes (c : Completion) : List Byte :=
  bytesOf (BitVec.ofNat 64 (c.opc * 2 ^ 56 + c.status * 2 ^ 48 + c.fn * 2 ^ 32 + c.tag.toNat) :: (List.range 7).map fun i => wordAt c.words i)

/-- MRQ (R425, R426): ev.a the function. A completion that waits takes the place that becomes free, and the next command may start. -/
def execMrq (s : State) : Host.Outcome State Fault Refusal :=
  let fn := s.ctl.ev.a
  match (s.fn fn).mrq with
  | [] => .next (s.toHost (List.replicate 64 0))
  | c :: rest =>
    let s := s.updFn fn fun f => { f with mrq := rest ++ f.mrqWait.take 1, mrqWait := f.mrqWait.drop 1 }
    .next ((s.nextCommand fn).toHost c.bytes)

/-- MEQ (R425, R426): ev.a the function; the PF alone has the register, and the offset reads as zero in the others. -/
def execMeq (s : State) : Host.Outcome State Fault Refusal :=
  match (if s.ctl.ev.a = 0 then s.dev.meq else []) with
  | [] => .next (s.toHost (List.replicate 64 0))
  | r :: rest => .next ((s.updDev fun d => { d with meq := rest }).toHost (bytesOf r.words))

/-- HSTAT (R425): ev.a the function, ev.b 0. With ev.b 1 the host reads ev.c bytes of BAR0 where no register is to be read (MCQ and every
offset without a register), which are zero; with ev.b 2 it writes where no register is to be written (MRQ, MEQ, HSTAT and every offset
without a register), which is ignored. -/
def execHstat (s : State) : Host.Outcome State Fault Refusal :=
  let fn := s.ctl.ev.a
  let b := s.dev.boot
  let v := b.berr.toNat * 2 ^ 8 + b2n b.sigl * 2 ^ 5 + b2n b.sige * 2 ^ 4 + b2n (s.fn fn).mcqFull * 4 + b2n b.recovery * 2 + b2n b.bootok
  if s.ctl.ev.b = 0 then .next ((s.updFn fn fun f => { f with mcqFull := false }).toHost (leBytes 8 v))
  else if s.ctl.ev.b = 1 then .next (s.toHost (List.replicate s.ctl.ev.c 0))
  else .next s

/-! ## BAR2 (R424, R432) -/

/-- The answer to an access that is not performed. -/
def State.bar2Fail (s : State) (fn c va : Nat) (wr : Bool) (len : Nat) : State :=
  let s := s.postMeq { tenant := fn, cause := c, kind := 4, acc := b2n wr, asid := ((s.fn fn).win.map (·.1)).getD 0, addr := va }
  if wr then s else s.toHost (List.replicate len 0xFF)

/-- An earlier BAR2 access of the function waits: one with a lower number, or any when this one has none. -/
def State.barAhead (s : State) (fn n : Nat) : Bool :=
  s.ctl.agenda.any fun x => match x.2 with
    | .ev e => e.kind == .bar2Access && e.a == fn && decide (0 < e.b) && (n == 0 || decide (e.b < n))
    | .resume _ => false

/-- A BAR2 access waits with its number, so that the function's accesses keep their order at the homes (R295, R424). -/
def State.barWait (s : State) : State :=
  let e := s.ctl.ev
  let n := s.ctl.nextId + 1
  if e.b = 0 then (s.updCtl fun c => { c with nextId := n }).at (s.ctl.cycle + 8) (.ev { e with b := n }) else s.at (s.ctl.cycle + 8) (.ev e)

/-- BAR2_ACCESS (R424, R432): ev.a the function, ev.b the number of an access that has waited; one access of at most a 128-byte line. -/
def execBar2Access (s : State) : Host.Outcome State Fault Refusal :=
  let fn := s.ctl.ev.a
  let who := hostAsker (256 + fn)
  match s.ctl.ev.arg with
  | .bar2 off wr len =>
    if s.barAhead fn s.ctl.ev.b then .next s.barWait
    else match (s.fn fn).win with
    | none => .next (s.bar2Fail fn 0x2C off wr.isSome len)
    | some (asid, base, size) =>
      let va := base + off
      let ten := field (s.dev.asids.get 0 asid).toNat 52 8
      if size < off + len then .next (s.bar2Fail fn 0x2C va wr.isSome len)
      else match s.walkBy who asid ten va (if wr.isSome then .hostWrite else .hostRead) with
        | .error (0, pa) => .next (s.askTable who asid ten 0 pa).barWait
        | .error (c, _) => .next ((s.dropLines who).bar2Fail fn c va wr.isSome len)
        | .ok e =>
          let pa := e.phys va
          let s := s.dropLines who
          if !s.isLocal pa then
            .next (s.toSlice
              { who := .host (256 + fn) 0, fill := false, write := wr, va := va, pa := pa, n := len, asid := asid,
                tenant := fn, key := e.key, ac := e.ac, cluster := 0 })
          else if (if wr.isSome then s.homeShut pa else s.stackShut pa) then .next s.barWait
          else match wr with
            | some bs => .next (s.partWrite asid fn va e bs)
            | none =>
              let a := s.key pa
              let s := (s.useKey (sliceOf a) (a / 128) e.key).homeScan a len
              let s := if (s.mem.firstPoison a len).isSome then
                  s.updSlice (sliceOf a) fun x => { x with ctr := { x.ctr with psnread := sat32 x.ctr.psnread } } else s
              .next (s.toHost (s.mem.readHome a len))
  | _ => .fault .noSuchHappening

/-! ## Tables (R327, R317, R386, R428) -/

/-- A queue configuration is in range (R327, R474). -/
def queueOk (c : QueueCfg) : Bool :=
  decide (c.owner < 256) && decide (c.prio < 4) && decide (1 ≤ c.cap) && decide (c.cap ≤ 256) &&
    decide (c.subCol < 256) && decide (c.subRow < 256) && decide (c.subW < 256) && decide (c.subH < 256) &&
    (!c.en || (decide (c.subCol + c.subW ≤ 64) && decide (c.subRow + c.subH ≤ 32) && decide (1 ≤ c.subW) && decide (1 ≤ c.subH)))

/-- QUEUE_SET (R327, R328, R474). -/
def execQueueSet : State → Host.Outcome State Fault Refusal := command true 0x01 fun _ c s =>
  match c with
  | .queueSet q cfg =>
    let put (k : LaunchQueue) : LaunchQueue := { k with cfg := cfg, seq := if cfg.en && !k.cfg.en then 0 else k.seq }
    inRange (decide (q < 4096) && queueOk cfg) ((s.updQueue q put).kick) s
  | _ => none

/-- The appends that wait at a die's slices take the room of a larger log area (R320). -/
def State.dieLogRoom (s : State) (die : Nat) : State :=
  (s.slices.keys.filter (· / 256 == die)).foldl (fun s sl => s.logRoom sl (s.slice sl).logWait.length) s

/-- SLICE_SET (R317, R320). -/
def execSliceSet : State → Host.Outcome State Fault Refusal := command true 0x02 fun _ c s =>
  match c with
  | .sliceSet die overflow log lim =>
    inRange (decide (die < 8) && decide (overflow ≤ 2 ^ 24) && overflow % 65536 == 0 && decide (log ≤ 2 ^ 26) && log % 2 ^ 20 == 0 &&
        decide (1 ≤ lim) && decide (lim ≤ 16))
      ((s.updDie die fun d => { d with cfg := ⟨overflow, log, lim⟩ }).dieLogRoom die) s
  | _ => none

/-- ASID_SET (R386). -/
def execAsidSet : State → Host.Outcome State Fault Refusal := command true 0x03 fun _ c s =>
  match c with
  | .asidSet asid e =>
    inRange (decide (asid < 8192) && wf e 60 3 == 0 && wf e 0 12 == 0) (s.updDev fun d => { d with asids := d.asids.set asid e }) s
  | _ => none

/-- TASK_SET (R329, R428). -/
def execTaskSet : State → Host.Outcome State Fault Refusal := command true 0x04 fun _ c s =>
  match c with
  | .taskSet tenant taskn asid segtab =>
    inRange (decide (tenant < 256) && decide (taskn < 0xFFFFFF) && decide (asid < 8192))
      (s.updDev fun d => { d with tasks := d.tasks.set (tenant * 2 ^ 24 + taskn) ⟨asid, segtab.toNat⟩ }) s
  | _ => none

/-- FQ_SET (R396). -/
def execFqSet : State → Host.Outcome State Fault Refusal := command true 0x08 fun _ c s =>
  match c with
  | .fqSet tenant addr cap =>
    inRange (decide (tenant < 256) && decide (1 ≤ cap)) (s.updDev fun d => { d with fqs := d.fqs.set tenant ⟨addr, cap⟩ }) s
  | _ => none

/-! ## Keys (R438) -/

/-- KEY_LOAD_DATA (R438). -/
def execKeyLoadData : State → Host.Outcome State Fault Refusal := command true 0x05 fun _ c s =>
  match c with
  | .keyLoadData k key =>
    if !(s.fn 0).ide then some (s, 2, [])
    else inRange (decide (k < 256)) (s.updDev fun d => { d with staged := d.staged.set k key }) s
  | _ => none

/-- The lines filled under an index as they read under its new key; the slices drop them (R323, R438), and a move copies them again
(R445). -/
def State.rekey (s : State) (k : Nat) (old new : Key) : State :=
  let s' := s.slices.foldl (fun s sl => (sl.2.enc.filter fun l => l.2 == k).foldl (fun s l =>
    (s.recipher l.1 (s.cipher old l.1) (s.cipher new l.1)).moveDirty (128 * l.1)) s) s
  { s' with slices := s'.slices.map fun x => (x.1, { x.2 with lines := x.2.lines.filter fun l => x.2.enc.get 0 l != k }) }

/-- KEY_LOAD_TWEAK (R438). -/
def execKeyLoadTweak : State → Host.Outcome State Fault Refusal := command true 0x05 fun _ c s =>
  match c with
  | .keyLoadTweak k key =>
    if !(s.fn 0).ide then some (s, 2, [])
    else if 256 ≤ k then some (s, 3, [])
    else match s.dev.staged.find k with
      | none => some (s, 4, [])
      | some data =>
        let old := s.keyAt k
        let new : Key := ⟨data, key⟩
        let s := if old = new then s else s.rekey k old new
        some (s.updDev fun d => { d with keys := d.keys.set k new, staged := d.staged.erase k }, 0, [])
  | _ => none

/-- IDE_ENABLE (R424): ev.a the function, ev.b 1 to enable. -/
def execIdeEnable (s : State) : Host.Outcome State Fault Refusal :=
  .next (s.updFn s.ctl.ev.a fun f => { f with ide := s.ctl.ev.b == 1 })

/-! ## Routes and groups (R356, R360, R367 to R369, R378) -/

/-- Packets that waited for a port leave when their device now has one (R378). -/
def State.retryHeld (s : State) (xd : Nat) : State :=
  let held := (s.xdie xd).held
  let s := s.updXdie xd fun x => { x with held := [] }
  held.foldl (fun s i => match s.msgs.find i with
    | some (.fabric k) =>
      if (s.xdie xd).fwd.get 0 k.p.ddev = 0 then s.updXdie xd fun x => { x with held := x.held ++ [i] } else s.fabricOut i
    | _ => s) s

/-- ROUTE_SET (R367 to R369, R378). -/
def execRouteSet : State → Host.Outcome State Fault Refusal := command true 0x06 fun _ c s =>
  match c with
  | .routeSet (.bitmap r m) =>
    let set : State :=
      if r < 2048 then s.updRouter r fun x => { x with bitmap := m }
      else if r < 2058 then s.updGroups (r - 2048) fun g => { g with bitmap := m }
      else s.updPort (r - 2058) fun p => { p with bitmap := m }
    inRange (decide (r < 2058 + 128)) set s
  | .routeSet (.forward xd dev mask) =>
    inRange (decide (xd < 2) && decide (dev < 4096)) ((s.updXdie xd fun x => { x with fwd := x.fwd.set dev mask }).retryHeld xd) s
  | .routeSet (.vcWeights cl a b d e) =>
    inRange (decide (cl < 2048) && [a, b, d, e].all fun w => decide (1 ≤ w) && decide (w ≤ 15))
      (s.updRouter cl fun x => { x with weights := #v[a, b, d, e] }) s
  | .routeSet (.agelim cl n) => inRange (decide (cl < 2048) && decide (n < 2 ^ 16)) (s.updRouter cl fun x => { x with agelim := n }) s
  | _ => none

/-- A group entry that the host may write to a router (R356, R358). -/
def groupEntryOk (r : Nat) (e : Vector Word 4) : Bool :=
  let op := geOp e
  let fmt := geFmt e
  decide (geState e < 3) && wf e[0] 11 5 == 0 && wf e[1] 52 12 == 0 && wf e[3] 9 55 == 0 && decide (fmt < 4) &&
    (decide (op < 3) || (decide (op < 5) && decide (2 ≤ fmt))) &&
    (if r < 8 then geDlv e == 0 || (decide (0x800 ≤ geDlv e) && decide (geDlv e ≤ 0x6FF0))
     else wf e[0] 0 40 == 0 && e[1] == 0)

/-- GROUP_SET_WRITE (R356). -/
def execGroupSetWrite : State → Host.Outcome State Fault Refusal := command true 0x07 fun _ c s =>
  match c with
  | .groupSetWrite r i a b d e =>
    let x : Vector Word 4 := #v[a, b, d, e]
    if 10 ≤ r || 4096 ≤ i || !groupEntryOk r x then some (s, 3, [])
    else if geState (s.groupEntry r i) ≠ 0 then some (s, 4, [])
    else
      let s := s.updGroups r fun g => { g with entries := g.entries.set i x }
      some (if geState x = 2 && !s.groupLives i then s.retireGroup i else s, 0, [])
  | _ => none

/-- GROUP_SET_RETIRE (R360). -/
def execGroupSetRetire : State → Host.Outcome State Fault Refusal := command true 0x07 fun _ c s =>
  match c with
  | .groupSetRetire r i =>
    if 10 ≤ r || 4096 ≤ i then some (s, 3, [])
    else
      let e := s.groupEntry r i
      if geState e ≠ 1 then some (s, 4, [])
      else
        let s := s.updGroups r fun g => { g with entries := g.entries.set i (e.set 0 (putField e[0] 62 2 2)) }
        some (if s.groupLives i then s else s.retireGroup i, 0, [])
  | _ => none

/-! ## Faults answered (R398) -/

/-- The tenant of what is parked. -/
def State.parkedTenant (s : State) (p : Parked) : Nat :=
  match p with
  | .thread tid => tenantOfGtid (s.thread tid).ctx.gtid
  | .handler tid => s.tenantOf (tid / 16)
  | .copyJob j | .clJob j => match s.job j with | some x => x.tenant | none => 0

/-- FPK cleared (R398); a sampled load goes on without the time spent parked (R419). -/
def State.clearFpk (s : State) (tid : Nat) : State :=
  s.updThread tid fun t => { t with
    ctx := { t.ctx with trw := putField t.ctx.trw 8 1 0 },
    aux := { t.aux with sample := t.aux.sample.map fun x => { x with since := s.ctl.cycle } } }

/-- A copy job that had parked, and may be gone, stops its hart no more: the hart accepts and serves again (R251, R353). -/
def State.unstop (s : State) (j : Nat) : State :=
  match s.clusters.find? fun c => c.2.copy.stopped.contains j with
  | some (cl, _) =>
    let s := s.updCluster cl fun c => { c with copy := { c.copy with stopped := c.copy.stopped.filter (· != j) } }
    let s := (s.copyAccept cl).kickFreed (8 * cl)
    if s.scheduled .copyUnit cl then s else s.later 0 .copyUnit cl 0 0
  | none => s

/-- The word that faulted is issued again in full: the thread goes to its core's FIFO; a thread that keeps its slot takes its next issue
cycle there (R44). A gang's word goes on in the member that faulted. -/
def State.issueAgain (s : State) (tid : Nat) : State :=
  if (s.thread tid).inGang && (s.thread tid).cont != .none then s.resumeNow tid
  else (s.updThread tid fun t => { t with cont := .none, aux := { t.aux with snap := none } }).rejoin tid

/-- Action 0: the work goes on where it faulted. -/
def State.reissue (s : State) (f : FaultTok) : State :=
  match f.who with
  | .copyJob j => (s.unstop j).jobGo j
  | .clJob j => s.jobGo j
  | .handler tid =>
    let s := s.clearFpk tid
    if tid % 2 = 1 && (s.core (tid / 2)).net.running.isNone then
      (s.updThread tid fun t => t.idleAgain tid).later 1 .handlerStart (tid / 2) 0 0
    else s.issueAgain tid
  | .thread tid =>
    if (s.threads.find tid).isNone then s
    else
      let s := s.clearFpk tid
      let saved := s.isSavedThread tid
      match f.after with
      | some (r, t) =>
        -- a saved thread is ready, and its step goes to the home after the resumption (R342, R344)
        if saved then (s.updThread tid fun x => { x with cont := .send r t, run := .ready }).savedSync tid true
        else (s.updThread tid fun x => { x with cont := .reply t, run := .waiting }).toHome r
      | none => if saved then s.savedReady tid else s.issueAgain tid

/-- The ring head of a handler that could not start is consumed; it is the message that the handler's trap names (R266). -/
def State.dropRingHead (s : State) (core : Nat) : State :=
  let n := (s.core core).net
  let base := tcmKey core 0x6000
  let (h, skip) := ringHead s base n.hHead n.hSkip
  let (ws, s) := s.ringWords core 0x6000 h
  let z := 8 * ws.length
  s.updCore core fun c => { c with net := { n with running := some (wordAt ws 0), hHead := (h + z) % 2048, hUsed := n.hUsed - skip - z, hSkip := n.hSkip - skip } }

/-- Action 1: the cause is delivered. -/
def State.deliver (s : State) (f : FaultTok) : State :=
  match f.who with
  | .copyJob j => (s.unstop j).failJob j 0x03
  | .clJob j => s.clFail (.job j) 0x03
  | .handler tid =>
    let s := s.clearFpk tid
    if tid % 2 = 1 && (s.core (tid / 2)).net.running.isNone then ((s.dropRingHead (tid / 2)).trapBy tid f.cause f.addr)
    else s.trapBy tid f.cause f.addr
  | .thread tid =>
    if (s.threads.find tid).isNone then s
    else
      let s := s.clearFpk tid
      if s.isSavedThread tid then
        let act (s : State) : State := if f.after.isSome then s.completeBy tid (some (f.cause, f.addr)) (pure ()) else s.trapBy tid f.cause f.addr
        s.savedDo tid act
      else if f.after.isSome then s.completeBy tid (some (f.cause, f.addr)) (pure ())
      else s.trapBy tid f.cause f.addr

/-- A fault is answered by the function of its tenant, the PF being tenant 0's (R424, R428); a stale token is counted at X-die 0 (R398). -/
def faultAnswer (tok : Nat) (act : State → FaultTok → State) (h : CmdHdr) (s : State) : State × Nat × List Word :=
  match s.dev.tokens.find tok with
  | none => (s.updXdie 0 fun x => { x with fqstale := sat32 x.fqstale }, 0, [])
  | some f =>
    if s.parkedTenant f.who ≠ h.fn then (s, 2, [])
    else (act (s.updDev fun d => { d with tokens := d.tokens.erase tok }) f, 0, [])

/-- FAULT_ANSWER_REISSUE (R398). -/
def execFaultAnswerReissue : State → Host.Outcome State Fault Refusal := command false 0x09 fun h c s =>
  match c with
  | .faultAnswerReissue tok => some (faultAnswer tok State.reissue h s)
  | _ => none

/-- FAULT_ANSWER_DELIVER (R398). -/
def execFaultAnswerDeliver : State → Host.Outcome State Fault Refusal := command false 0x09 fun h c s =>
  match c with
  | .faultAnswerDeliver tok => some (faultAnswer tok State.deliver h s)
  | _ => none

/-! ## Launches, windows, objects, pages (R330, R430 to R432) -/

/-- LAUNCH (R330); a table entry that another device holds is asked for first. -/
def execLaunch (s : State) : Host.Outcome State Fault Refusal :=
  match s.ctl.ev.arg with
  | .cmd h (.launch q l) =>
    let who := hostAsker h.fn
    match s.entryAway who h.fn l with
    | some (asid, va) => .next ((s.askLine who asid h.fn va).at (s.ctl.cycle + 8) (.ev s.ctl.ev))
    | none =>
      let r := s.refusal who h.fn q l
      let s := (s.recordTouch who h.fn l).dropLines who
      if r ≠ 0 then .next (s.cmdEnd h 0x14 1 [BitVec.ofNat 64 r])
      else
        let (s, n) := s.accept h.fn q l
        .next (s.cmdEnd h 0x14 0 [BitVec.ofNat 64 n])
  | _ => .fault .noSuchHappening

/-- FUNC_SET (R432). -/
def execFuncSet : State → Host.Outcome State Fault Refusal := command true 0x18 fun _ c s =>
  match c with
  | .funcSet fn asid base size =>
    inRange (decide (fn < 256) && decide (asid < 8192) && base % 65536 == 0 && decide (base < 2 ^ 57) && size % 65536 == 0 &&
        decide (65536 ≤ size) && decide (size ≤ 2 ^ 36))
      (s.updFn fn fun f => { f with win := some (asid, base, size) }) s
  | _ => none

/-- The device takes another ID, which the tweak of its lines names (R323): what was filled under the old one reads through both. -/
def State.reIdentify (s : State) (id : Nat) : State :=
  let s' := s.updDev fun d => { d with id := id }
  s.slices.foldl (fun x sl => sl.2.enc.foldl (fun x l => x.recipher l.1 (s.cipher (s.keyAt l.2) l.1) (s'.cipher (s.keyAt l.2) l.1)) x) s'

/-- DEV_SET (R432). -/
def execDevSet : State → Host.Outcome State Fault Refusal := command true 0x19 fun _ c s =>
  match c with
  | .devSet id =>
    if 4096 ≤ id then some (s, 3, [])
    else if s.dev.ponds.any (fun p => p.2.isLive) || s.ports.any (fun p => p.2.up) then some (s, 4, [])
    else some (s.reIdentify id, 0, [])
  | _ => none

/-- Granules of an object type (R169). -/
def typeGranules (ty : Nat) : Nat := if ty = 4 || ty = 6 || ty = 7 then 2 else 1

/-- OBJ_SET (R430): the home's answer completes it. -/
def execObjSet : State → Host.Outcome State Fault Refusal := withTables fun s =>
  match s.ctl.ev.arg with
  | .cmd h (.objSet asid va ty img) =>
    let ten := field (s.dev.asids.get 0 asid).toNat 52 8
    let n := typeGranules ty
    if ty = 0 || 7 < ty || va % (16 * n) ≠ 0 || 8192 ≤ asid then .next (s.cmdEnd h 0x16 3 [])
    else if h.fn ≠ 0 && ten ≠ h.fn then .next (s.cmdEnd h 0x16 2 [])
    else match s.walk asid ten va .object with
      | .error (0, pa) => .next (s.needs pa ten 0)
      | .error (c, _) => .next (s.cmdEnd h 0x16 4 [BitVec.ofNat 64 c])
      | .ok e => .next (s.schedHome
          { who := .host h.fn h.tag, op := .init ty (wordsOf (2 * n) (s.mem.read (hostKey img) (16 * n))), va := va, pa := e.phys va,
            asid := asid, tenant := ten, key := e.key, ac := e.ac })
  | _ => .fault .noSuchHappening

/-- Records of the overflow area that an object's waiters use (R319). -/
def ObjState.records (o : ObjState) : Nat := (o.waiters.map fun w => b2n w.payload + b2n (!w.inl)).sum

/-- Everything that a home keeps of a page is gone (R431). -/
def State.zeroPage (s : State) (a n key : Nat) : State :=
  let within (x : Nat) : Bool := decide (a ≤ x) && decide (x < a + n)
  let m := s.mem.clear a n
  { s with
    mem := { m with tags := m.tags.filter fun t => !within (16 * t.1) }
    slices := s.slices.map fun x => (x.1, { x.2 with
      overflow := x.2.overflow - ((x.2.objs.filter fun o => within o.1).map (·.2.records)).sum,
      objs := x.2.objs.filter fun o => !within o.1, lines := x.2.lines.filter fun l => !within (128 * l),
      enc := x.2.enc.filter fun l => !within (128 * l.1) })
    dev := { s.dev with zeroed := (a, n, key, s.keyAt key) :: s.dev.zeroed.filter fun z => z.1 != a || z.2.1 != n } }

/-- PAGE_ZERO (R431); a stack in self-refresh zeroes when it serves again (R442). -/
def execPageZero : State → Host.Outcome State Fault Refusal := withTables (command true 0x17 fun _ c s =>
  match c with
  | .pageZero pa size key =>
    inRange ((size == 2 ^ 16 || size == 2 ^ 21 || size == 2 ^ 30) && pa % size == 0 && decide (key < 256) && s.isLocal pa)
      (if s.stackShut pa then s.needs pa 0 0 else s.zeroPage (localOf pa) size key) s
  | _ => none)

/-! ## Attestation (R437) -/

/-- The words that both signatures of a report cover (R437): log 17. -/
def State.reportWords (s : State) (fn : Nat) (nonce : BitVec 256) : List Word :=
  let b := s.dev.boot
  [BitVec.ofNat 64 s.dev.id, b.serial, BitVec.ofNat 64 b.svn, b.svnf] ++
    b.meas.toList.flatMap (fun m => (List.range 6).map fun i => BitVec.ofNat 64 (field m.toNat (64 * i) 64)) ++
    [BitVec.ofNat 64 fn, BitVec.ofNat 64 (b2n (s.dev.keys.find fn).isSome)] ++
    (List.range 4).map fun i => BitVec.ofNat 64 (field nonce.toNat (64 * i) 64)

/-- Bytes written through a function's window, word by word: the state, or the cause of the walk; cause 0 with what must be waited for. -/
def State.windowWrite (s : State) (asid : Nat) : Nat → List Word → Except (Nat × Nat) State
  | _, [] => .ok s
  | va, w :: ws =>
    let ten := field (s.dev.asids.get 0 asid).toNat 52 8
    match s.walk asid ten va .hostWrite with
    | .error x => .error x
    | .ok e =>
      if s.homeShut (e.phys va) then .error (0, e.phys va)
      else State.windowWrite (s.partWrite asid ten va e (leBytes 8 w.toNat)) asid (va + 8) ws

/-- Bytes that the part has sent through a space to another device, within a range, have not been acknowledged there. -/
def State.partsAway (s : State) (asid va n : Nat) : Bool :=
  s.msgs.any fun m => match m.2 with
    | .slice r => r.who == .nobody && r.write.isSome && !s.isLocal r.pa && r.asid == asid && decide (va ≤ r.va) && decide (r.va < va + n)
    | _ => false

/-- A report made (R437), or the status and the word that say why not: the report, then 12 words of the ECDSA P-384 signature, 411 of the HSS
signature and 256 of the certificate, all free: log 17. -/
def State.attest (s : State) (fn : Nat) (nonce : BitVec 256) (va : Word) : State × Nat × List Word :=
  let ws := s.reportWords fn nonce
  if 2 ^ 30 ≤ s.dev.boot.lmsCount then (s, 5, [])
  else match (s.fn fn).win with
    | none => (s, 4, [0x2C])
    | some (asid, base, size) =>
      let off := va.toNat - base
      let sig (n k : Nat) : List Word := (List.range n).map fun i => Config.signature ws k i
      let all := ws ++ sig 12 0 ++ sig 411 (1 + s.dev.boot.lmsCount) ++ sig 256 (2 ^ 31)
      if va.toNat < base || size < off + 8 * all.length || va.toNat % 8 ≠ 0 then (s, 3, [])
      else match s.windowWrite asid va.toNat all with
        | .error (0, pa) => (s.needs pa (field (s.dev.asids.get 0 asid).toNat 52 8) 0, 0, [])
        | .error (c, _) => (s, 4, [BitVec.ofNat 64 c])
        | .ok s => (s.updDev fun d => { d with boot := { d.boot with lmsCount := d.boot.lmsCount + 1 } }, 0, [va])

/-- What a function has written through its window to another device has not all been acknowledged there. -/
def State.windowAway (s : State) (fn : Nat) (va : Word) : Bool :=
  match (s.fn fn).win with | some (asid, _, size) => s.partsAway asid va.toNat size | none => false

/-- ATTEST (R437): with ev.b 1 the report has been made; its completion follows every effect, at other devices too (R429). -/
def execAttest : State → Host.Outcome State Fault Refusal := withTables fun s =>
  match s.ctl.ev.arg with
  | .cmd h (.attest nonce va) =>
    let (s, st, ws) := if s.ctl.ev.b = 1 then (s, 0, [va]) else s.attest h.fn nonce va
    .next (if s.ctl.need.isSome then s
      else if st = 0 && s.windowAway h.fn va then s.at (s.ctl.cycle + 8) (.ev { s.ctl.ev with b := 1 })
      else s.cmdEnd h 0x15 st ws)
  | _ => .fault .noSuchHappening

/-! ## Debugging and tracing set (R410, R414, R418, R419) -/

/-- DEBUG_SET (R410, R414, R418, R419). -/
def execDebugSet : State → Host.Outcome State Fault Refusal := command true 0x0F fun _ c s =>
  match c with
  | .debugSet (.entry i ws) => inRange (decide (i < 1024)) (s.updDev fun d => { d with dbg := d.dbg.set i ws }) s
  | .debugSet (.chorus cfg ring size) =>
    let on := bit cfg.toNat 63
    let was := bit s.dev.chorus.cfg.toNat 63
    let s' := s.updDev fun d => { d with chorus := { d.chorus with
      cfg := cfg, ring := ring, ringSize := size, high := if on && !was then 0 else d.chorus.high } }
    let s' := if on && !was && !s.scheduled .chorusTick 0 then s'.later (max 65536 (wf cfg 16 32)) .chorusTick 0 0 0 else s'
    inRange (wf cfg 48 15 == 0) s' s
  | .debugSet (.traceRing cl ring size) =>
    let s' := s.updCluster cl fun c => { c with trace := { c.trace with ring := ring, ringSize := size } }
    let s' := if !(s.cluster cl).trace.recs.isEmpty && !s.scheduled .traceDrain cl then s'.later 8 .traceDrain cl 0 0 else s'
    inRange (decide (cl < 2048)) s' s
  | .debugSet (.sper cl n) =>
    inRange (decide (cl < 2048) && decide (n < 65536)) (s.updCluster cl fun c => { c with trace := { c.trace with sper := n, count := 0 } }) s
  | _ => none

/-! ## Withdrawal and counters (R443, R444) -/

/-- WITHDRAW (R443). -/
def execWithdraw : State → Host.Outcome State Fault Refusal := command true 0x12 fun _ c s =>
  match c with
  | .withdraw cl on =>
    let s' := s.updCluster cl fun c => { c with withdrawn := on }
    inRange (decide (cl < 2048)) (if on then s' else s'.clustersFreed) s
  | _ => none

/-- A counter set and the state with it cleared (R326, R383, R444); none for a unit that does not exist. -/
def State.counterSet (s : State) (u : CntUnit) : Option (List (BitVec 32) × State) :=
  match u with
  | .slice n =>
    let c := (s.slice n).ctr
    if n < 2048 then some ([c.discard, c.objerr, c.mrgdrop, c.corr, c.uncorr, c.psnread, c.combined, c.chained, c.logfull],
      s.updSlice n fun x => { x with ctr := {} }) else none
  | .cluster n =>
    let c := s.cluster n
    if n < 2048 then some ([c.corr, c.uncorr, c.psnread, c.multihit],
      s.updCluster n fun x => { x with corr := 0, uncorr := 0, psnread := 0, multihit := 0 }) else none
  | .port n =>
    let p := s.port n
    if n < 128 then some ([p.crcerr, p.retry, p.down, p.resent, p.dup, p.tviol, p.badop],
      s.updPort n fun x => { x with crcerr := 0, retry := 0, down := 0, resent := 0, dup := 0, tviol := 0, badop := 0 }) else none
  | .router n =>
    if n < 2048 then some ([(s.router n).tviol], s.updRouter n fun x => { x with tviol := 0 })
    else if n < 2058 then some ([(s.groupsAt (n - 2048)).tviol], s.updGroups (n - 2048) fun x => { x with tviol := 0 })
    else none
  | .interface c =>
    if c < 16384 then some ([(s.core c).net.refdrop], s.updCore c fun x => { x with net := { x.net with refdrop := 0 } }) else none
  | .cdie n =>
    let d := s.die n
    if n < 8 then some ([d.fqdrop, d.fqstale], s.updDie n fun x => { x with fqdrop := 0, fqstale := 0 }) else none
  | .xdie n =>
    let x := s.xdie n
    if n < 2 then some ([x.fqstale, x.meqdrop], s.updXdie n fun y => { y with fqstale := 0, meqdrop := 0 }) else none

/-- Counters packed two to a result word: log 25. -/
def packCounters : List (BitVec 32) → List Word
  | [] => []
  | [a] => [a.setWidth 64]
  | a :: b :: t => BitVec.ofNat 64 (a.toNat + b.toNat * 2 ^ 32) :: packCounters t

/-- CNT_READ (R444). -/
def execCntRead : State → Host.Outcome State Fault Refusal := command true 0x13 fun _ c s =>
  match c with
  | .cntRead u clear =>
    match s.counterSet u with
    | some (cs, s') => some (if clear then s' else s, 0, packCounters cs)
    | none => some (s, 3, [])
  | _ => none

end Sys2Proof.Machine
end

