-- ==== Sys2Proof/Machine/Moves.lean ====
section
/-! DEFINITION. Shootdowns (R395) and live page moves (R400, R401). -/

namespace Sys2Proof.Machine

/-! ## Shootdowns (R395) -/

/-- A line or an entry that a shootdown concerns: an address range of a space, or everything that the old page of a move
maps. -/
def State.shootHits (s : State) (cl : Nat) (h : Shoot) (asid va n : Nat) : Bool :=
  match h.move with
  | none => asid == h.asid && decide (va < h.va + h.len) && decide (h.va < va + n)
  | some m => match s.dev.moves.find m with
    | some x => match tlbFind (s.cluster cl).tlb asid va with
      | (some e, _) => decide (localOf x.old ≤ localOf (e.phys va)) && decide (localOf (e.phys va) < localOf x.old + x.size)
      | (none, _) => false
    | none => false

/-- A TLB entry that a shootdown removes: any that overlaps the range, whatever its size. -/
def State.shootEntry (s : State) (h : Shoot) (e : TlbEntry) : Bool :=
  match h.move with
  | none => e.asid == h.asid && decide (e.va < h.va + h.len) && decide (h.va < e.va + 2 ^ e.size)
  | some m => match s.dev.moves.find m with
    | some x => decide (localOf e.pa < localOf x.old + x.size) && decide (localOf x.old < localOf e.pa + 2 ^ e.size)
    | none => false

/-- Every cluster is told. -/
def State.startShoot (s : State) (h : Shoot) : State :=
  let i := s.ctl.nextId
  let s := (s.updCtl fun c => { c with nextId := i + 1 }).updDev fun d => { d with shoots := d.shoots.set i { h with left := 2048 } }
  (List.range 2048).foldl (fun s cl => s.later s.ctl.lat.link .shootdownCluster i cl 0) s

/-- A word of host memory written. -/
def State.hostWord (s : State) (a v : Nat) : State := { s with mem := s.mem.write (hostKey a) (leBytes 8 v) }

/-- The counter of a shootdown rises by one, with release. -/
def State.shootCount (s : State) (pa : Nat) : State :=
  let r : HomeReq := { who := .nobody, op := .cntAdd 1, va := 0, pa := pa }
  if !s.isLocal pa then s.toHome r
  else ((s.ownKey (s.key pa)).homeScan (s.key pa) 16).homeOp (s.key pa) r

/-- An increment of a shootdown's counter is on its way to another device. -/
def State.countAway (s : State) (pa : Nat) : Bool :=
  !s.isLocal pa && s.msgs.any fun m => match m.2 with
    | .home r => r.who == .nobody && r.pa == pa && r.op == .cntAdd 1
    | _ => false

/-- Every cluster has done its part: the end of the shootdown, and of the move that it belongs to, once the counter's home has acknowledged
(R429). -/
def State.shootEnd (s : State) (i : Nat) (h : Shoot) : State :=
  if s.countAway h.ctr then s.later 8 .shootdownCluster i 0 3
  else
    let s := s.updDev fun d => { d with shoots := d.shoots.erase i }
    match h.move with
    | none => s.putCompletion ⟨0x0A, 0, h.fn, h.tag, []⟩
    | some m => match s.dev.moves.find m with
      | some x =>
        ((s.hostWord x.status 0).updDev fun d => { d with moves := d.moves.erase m }).putCompletion ⟨0x0B, 0, h.fn, h.tag, []⟩
      | none => s

/-- A cluster has done its part (R395 step 4). -/
def State.shootDone (s : State) (i : Nat) (h : Shoot) : State :=
  let h' := { h with left := h.left - 1 }
  let s := (s.shootCount h.ctr).updDev fun d => { d with shoots := d.shoots.set i h' }
  if h'.left = 0 then s.shootEnd i h' else s

/-- SHOOTDOWN (R395). -/
def execShootdown (s : State) : Host.Outcome State Fault Refusal :=
  match s.ctl.ev.arg with
  | .cmd h (.shootdown asid va len ctr) =>
    if h.fn ≠ 0 then .next (s.cmdEnd h 0x0A 2 [])
    else if 8192 ≤ asid || 2 ^ 57 < va + len then .next (s.cmdEnd h 0x0A 3 [])
    else .next ((s.startShoot ⟨asid, va, len, ctr, 2048, h.fn, h.tag, none⟩).cmdGo h)
  | _ => .fault .noSuchHappening

/-- SHOOTDOWN_CLUSTER (R395): ev.a the shootdown, ev.b the cluster, ev.c 1 once the write-backs of the range are acknowledged, 2 once those
of the release are, 3 when every cluster is done. The X-die answers for a gated cluster (R441). The clean bytes of the range leave the L1 with
the TLB entries, and fills on their way are not put there: no access through a new mapping may read what stood there before (R286): DEDUCED,
log 74. -/
def execShootdownCluster (s : State) : Host.Outcome State Fault Refusal :=
  let i := s.ctl.ev.a
  let cl := s.ctl.ev.b
  let c := s.ctl.ev.c
  let own (n : Nat) : Agent := .shoot (2 * i + n) cl
  match s.dev.shoots.find i with
  | none => .next s
  | some h =>
    if c = 3 then .next (s.shootEnd i h)
    -- the counter's home must serve
    else if s.homeShut h.ctr then .next (s.later 8 .shootdownCluster i cl c)
    else if !(s.cluster cl).isOn || c = 2 then .next (s.shootDone i h)
    else
      let s := if c = 0 then
          s.writeBackLines cl (fun l => l.dirty != 0 && s.shootHits cl h l.asid (128 * l.va) 128) .nobody [own 0]
        else s
      if s.awaits (own 0) then .next s
      else
        let hit (l : L1Line) : Bool := s.shootHits cl h l.asid (128 * l.va) 128
        let t := s.updCluster cl fun c => { c with
          tlb := c.tlb.filter fun e => !s.shootEntry h e,
          l1 := (c.l1.map fun l => if hit l then { l with valid := l.valid &&& l.dirty } else l).filter fun l => l.valid != 0,
          icache := c.icache.filter fun l => !s.shootHits cl h l.asid (128 * l.va) 128 }
        let t := t.staleFills fun r _ => r.cluster == cl && s.shootHits cl h r.asid (r.va / 128 * 128) 128
        -- step 4 releases at device scope
        let t := (t.writeBackLines cl (fun l => l.dirty != 0) .nobody []).awaitWbs cl (own 1)
        .next (if t.awaits (own 1) then t else t.shootDone i h)

/-! ## Page moves (R400, R401) -/

/-- Something that keeps a page from being moved (R400). -/
def State.moveBusy (s : State) (old size : Nat) : Bool :=
  let a := localOf old
  let within (k : Nat) : Bool := decide (a ≤ k) && decide (k < a + size)
  let pending (e : LogEntry) : Bool :=
    within (localOf e.pa) || (match e.split with | some (_, p, _) => within (localOf p) | none => false)
  s.slices.any (fun x => x.2.objs.any (fun o => within o.1 && (!o.2.waiters.isEmpty || o.2.reading)) ||
    x.2.rsv.any (fun r => within (localOf r.pa)) ||
    x.2.log.any pending || x.2.logWait.any fun w => pending w.1) ||
  s.mem.tags.any fun t =>
    within (16 * t.1) && t.2.first && (t.2.ty == 7 ||
      (t.2.ty == 3 && s.word (16 * t.1) % 2 ^ 32 != s.word (16 * t.1) / 2 ^ 32) ||
      (t.2.ty == 6 && field (s.word (16 * t.1 + 8)) 46 2 != 0))

/-- Some bytes of a page copied with tags, marks and poison (R401). -/
def State.copyBlock (s : State) (src dst n : Nat) : State :=
  let s := (List.range (n / 256)).foldl (fun s i => s.homeScan (src + 256 * i) 256) s
  let m := s.mem.copyRange src dst n
  let tags := (s.mem.tags.filter fun t => decide (src ≤ 16 * t.1) && decide (16 * t.1 < src + n)).foldl
    (fun (x : Memory) t => x.setTag (16 * t.1 - src + dst) t.2)
    { m with tags := m.tags.filter fun t => decide (16 * t.1 < dst) || decide (dst + n ≤ 16 * t.1) }
  { s with mem := tags }

/-- Cycles that a home takes to copy a sub-block; log 3. -/
def copyCycles : Nat := 10

/-- MOVE_START (R400): the first copy begins. A page moves within the device: log 25. -/
def execMoveStart (s : State) : Host.Outcome State Fault Refusal :=
  match s.ctl.ev.arg with
  | .cmd h (.moveStart old new large leaf ctr status) =>
    let size := if large then 2 ^ 21 else 2 ^ 16
    if h.fn ≠ 0 then .next (s.cmdEnd h 0x0B 2 [])
    else if old % size ≠ 0 || new % size ≠ 0 || !s.isLocal old || !s.isLocal new || old = new || leaf % 8 ≠ 0 then .next (s.cmdEnd h 0x0B 3 [])
    else if s.stackShut old || s.stackShut new then .next (s.at (s.ctl.cycle + 8) (.ev s.ctl.ev))
    else if s.moveBusy old size then .next ((s.hostWord status 1).cmdEnd h 0x0B 4 [])
    else
      let i := s.ctl.nextId
      let m : Move := { old := old, new := new, size := size, leaf := leaf, ctr := ctr, status := status, fn := h.fn, tag := h.tag }
      let s := (s.updCtl fun c => { c with nextId := i + 1 }).updDev fun d => { d with moves := d.moves.set i m }
      let s := s.copyBlock (localOf old) (localOf new) size
      .next ((s.cmdGo h).later (copyCycles * (size / 256)) .movePass i 0 0)
  | _ => .fault .noSuchHappening

/-- The dirty sub-blocks of a move recopied. -/
def State.recopy (s : State) (i : Nat) (m : Move) : State :=
  let s := m.dirty.foldl (fun s b => s.copyBlock (localOf m.old + 256 * b) (localOf m.new + 256 * b) 256) s
  s.updDev fun d => { d with moves := d.moves.set i { m with dirty := [] } }

/-- The physical address of a byte of a page as it is after the page's move. -/
def Move.target (m : Move) (pa : Nat) : Nat :=
  if decide (localOf m.old ≤ localOf pa) && decide (localOf pa < localOf m.old + m.size) then
    pa - localOf pa + (localOf pa - localOf m.old + localOf m.new) else pa

/-- A log entry's addresses after a move (R298). -/
def LogEntry.movedBy (e : LogEntry) (m : Move) : LogEntry :=
  { e with pa := m.target e.pa, split := e.split.map fun x => (x.1, m.target x.2.1, x.2.2) }

/-- What the homes keep beside the bytes goes with a page: the objects' state, reservations, log entries, the key indexes of its lines and
how its zeros were enciphered (R298, R401). -/
def State.rehome (s : State) (m : Move) : State :=
  let a := localOf m.old
  let within (k : Nat) : Bool := decide (a ≤ k) && decide (k < a + m.size)
  let onto (k : Nat) : Bool := decide (localOf m.new ≤ k) && decide (k < localOf m.new + m.size)
  let old := s.slices
  let leave (x : Slice) : Slice := { x with
    overflow := x.overflow - ((x.objs.filter fun o => within o.1).map (·.2.records)).sum,
    objs := x.objs.filter fun o => !within o.1, rsv := x.rsv.filter fun r => !within r.pa, dead := x.dead.filter fun d => !within d.pa,
    log := x.log.filter fun e => !within (localOf e.pa), logWait := x.logWait.map fun w => (w.1.movedBy m, w.2),
    lines := x.lines.filter fun l => !within (128 * l) && !onto (128 * l),
    enc := x.enc.filter fun l => !within (128 * l.1) && !onto (128 * l.1) }
  let zeros := s.dev.zeroed.filterMap fun z =>
    let lo := max z.1 a
    let hi := min (z.1 + z.2.1) (a + m.size)
    if lo < hi then some (m.target lo, hi - lo, z.2.2) else none
  let s : State := { s with
    slices := s.slices.map fun x => (x.1, leave x.2), dev := { s.dev with zeroed := zeros ++ s.dev.zeroed } }
  let put (s : State) (k : Nat) (f : Slice → Slice) : State := s.updSlice (sliceOf (m.target k)) f
  old.foldl (fun s x =>
    let y := x.2
    let s := (y.objs.filter fun o => within o.1).foldl (fun s o => put s o.1 fun z =>
      { z with objs := z.objs.set (m.target o.1) o.2, overflow := z.overflow + o.2.records }) s
    let s := (y.rsv.filter fun r => within r.pa).foldl (fun s r => put s r.pa fun z => { z with rsv := z.rsv ++ [{ r with pa := m.target r.pa }] }) s
    let s := (y.dead.filter fun r => within r.pa).foldl (fun s r => put s r.pa fun z => { z with dead := z.dead ++ [{ r with pa := m.target r.pa }] }) s
    let s := (y.log.filter fun e => within (localOf e.pa)).foldl (fun s e => put s (localOf e.pa) fun z => { z with log := z.log ++ [e.movedBy m] }) s
    (y.enc.filter fun l => within (128 * l.1)).foldl (fun s l => put s (128 * l.1) fun z => { z with enc := z.enc.set (m.target (128 * l.1) / 128) l.2 }) s) s

/-- An operation on an object of a page is half done: a record of a chain, or the answer of a slot's home, is on its way. -/
def State.pageBusy (s : State) (m : Move) : Bool :=
  s.slices.any fun x => x.2.objs.any fun o =>
    decide (localOf m.old ≤ o.1) && decide (o.1 < localOf m.old + m.size) && (o.2.reading || o.2.slotWait.isSome)

/-- Writes that were parked are applied where the page now is, in arrival order. -/
def State.releaseParked (s : State) (ms : List Nat) : State := ms.foldl (fun s i => match s.msgs.find i with
  | some m => s.later 0 (s.rowOf m).1 i 0 0
  | none => s) s

/-- The final pass has ended in time: the leaf is written, the homes forward, the shootdown starts (R401). -/
def State.moveOver (s : State) (i : Nat) (m : Move) : State :=
  let s := (s.recopy i m).rehome m
  let k := s.key m.leaf
  -- PA is bits [51:16] of the entry, and the reserved bits above it are zero (R390)
  let s := if s.isLocal m.leaf then (s.ownKey k).putWord k (putNat (s.word k) 16 36 (m.new / 2 ^ 16))
    else s.toSlice { who := .nobody, fill := false, write := some (leBytes 5 (m.new / 2 ^ 16 % 2 ^ 36)), va := 0, pa := m.leaf + 2, n := 5, asid := 8192 }
  let s := s.updDev fun d => { d with
    forwards := (m.old, m.new, m.size) :: d.forwards, moves := d.moves.set i { m with final := false, dirty := [], parked := [] } }
  (s.releaseParked m.parked).startShoot ⟨0, 0, 0, m.ctr, 2048, m.fn, m.tag, some i⟩

/-- MOVE_PASS (R401): ev.a the move. -/
def execMovePass (s : State) : Host.Outcome State Fault Refusal :=
  let i := s.ctl.ev.a
  match s.dev.moves.find i with
  | none => .next s
  | some m =>
    let n := copyCycles * m.dirty.length
    -- a stack in self-refresh copies nothing (R442)
    if s.stackShut m.old || s.stackShut m.new || s.stackShut m.leaf then .next (s.later 8 .movePass i 0 0)
    else if m.final then
      if m.finalStart + 3800 < s.ctl.cycle then .next s
      else if s.pageBusy m then .next (s.later 1 .movePass i 0 0)
      else .next (s.moveOver i m)
    else if 64 < m.dirty.length && m.pass < 8 then
      let s := s.recopy i m
      .next ((s.updDev fun d => { d with moves := d.moves.set i { m with dirty := [], pass := m.pass + 1 } }).later n .movePass i 0 0)
    else
      let s := s.updDev fun d => { d with moves := d.moves.set i { m with final := true, finalStart := s.ctl.cycle } }
      .next ((s.later n .movePass i 0 0).later 3801 .finalPassTimeout i 0 0)

/-- FINAL_PASS_TIMEOUT (R401): a final pass that runs on is abandoned and the parked writes reach the old page. -/
def execFinalPassTimeout (s : State) : Host.Outcome State Fault Refusal :=
  let i := s.ctl.ev.a
  match s.dev.moves.find i with
  | some m =>
    if m.final then
      let s := s.updDev fun d => { d with moves := d.moves.erase i }
      .next (((s.releaseParked m.parked).hostWord m.status 2).putCompletion ⟨0x0B, 0, m.fn, m.tag, [2]⟩)
    else .next s
  | none => .next s

/-- MOVE_END (R401): forwarding ends. -/
def execMoveEnd : State → Host.Outcome State Fault Refusal := command true 0x0C fun _ c s =>
  match c with
  | .moveEnd old =>
    if s.dev.forwards.any fun f => f.1 == old then
      some (s.updDev fun d => { d with forwards := d.forwards.filter fun f => f.1 != old }, 0, [])
    else some (s, 4, [])
  | _ => none

end Sys2Proof.Machine
end

