-- ==== Sys2Proof/Machine/Power.lean ====
section
/-! DEFINITION. Power and operating states (R439 to R442), trace buffers (R418, R420), the chorus (R414 to R417), boot (R434 to
R436) and resets (R433, R442). -/

namespace Sys2Proof.Machine

/-! ## Trace buffers (R418, R420) -/

/-- A gating goes on once the buffer is emptied (R441): caches written back, then dropped; the cluster is gated. -/
def State.gateOn (s : State) (cl : Nat) : State :=
  let c := s.cluster cl
  match c.gatingCmd with
  | none => s
  | some (fn, tag) =>
    if c.l1.any fun l => l.dirty != 0 then
      (s.writeBackLines cl (fun l => l.dirty != 0) .nobody []).later 8 .traceDrainTimeout cl 1 0
    else if s.wbInFlight cl then s.later 8 .traceDrainTimeout cl 1 0
    else
      let s := s.updCluster cl fun c => { c with l1 := [], icache := [], tlb := [], gatingCmd := none, gatedAt := s.ctl.cycle }
      s.putCompletion ⟨0x11, 0, fn, tag, []⟩

/-- TRACE_DRAIN (R418, R420): ev.a the cluster; one record goes into the ring, when it has room. -/
def execTraceDrain (s : State) : Host.Outcome State Fault Refusal :=
  let cl := s.ctl.ev.a
  let t := (s.cluster cl).trace
  match t.recs with
  | [] =>
    let s := s.updCluster cl fun c => { c with trace := { c.trace with draining := false } }
    .next (if t.gating.isSome && s.scheduled .traceDrainTimeout cl then (s.unschedule .traceDrainTimeout cl).gateOn cl else s)
  | r :: rest =>
    let q : HostRing := ⟨t.ring, t.ringSize⟩
    if t.ringSize = 0 then .next s
    else if t.ringSize ≤ s.ringUsed q then .next (s.later 8 .traceDrain cl 0 0)
    else
      let s := s.updCluster cl fun c => { c with trace := { c.trace with recs := rest } }
      .next ((s.ringPut q r.toList).later 8 .traceDrain cl 0 0)

/-- TRACE_DRAIN_TIMEOUT (R420): ev.a the cluster. The records that remain are dropped and counted; with ev.b 1 the write-backs
of the gating are looked at again. -/
def execTraceDrainTimeout (s : State) : Host.Outcome State Fault Refusal :=
  let cl := s.ctl.ev.a
  let t := (s.cluster cl).trace
  if s.ctl.ev.b = 1 || t.gating.isNone then .next (s.gateOn cl)
  else
    let s := s.updCluster cl fun c => { c with trace := { t with recs := [], dropped := t.dropped + t.recs.length, draining := false } }
    .next ((s.unschedule .traceDrain cl).gateOn cl)

/-! ## POWER (R439 to R442) -/

/-- Cycles of the pause of an operating-point change, at most 20 µs (R440); log 3. -/
def pauseCycles : Nat := 10000

/-- The counts in cycles of a die that pauses from now on do not advance in the pause: what is due there is due later by
it, and so are the ends that its engines and page moves hold (R440, R445). A quantum counts cycles of the core, of which the pause has
none. -/
def State.pauseDie (s : State) (d : Nat) : State :=
  let put (a : List (Nat × Happen)) (x : Nat × Happen) : List (Nat × Happen) :=
    insertDue (if s.dieOf x.2 = some d then x.1 + pauseCycles else x.1) x.2 a
  let s' := s.updCtl fun c => { c with agenda := s.ctl.agenda.foldl put [] }
  { s' with
    cores := s'.cores.map fun x => if x.1 / 2048 = d then (x.1, { x.2 with sfuStart := x.2.sfuStart + pauseCycles }) else x
    clusters := s'.clusters.map fun x => if x.1 / 256 = d
      then (x.1, { x.2 with mx := { x.2.mx with
        fillEnd := x.2.mx.fillEnd + pauseCycles, currentEnd := x.2.mx.currentEnd + pauseCycles } }) else x
    dev := { s'.dev with moves := s'.dev.moves.map fun x => if dieOfPa (localOf x.2.old) = d
      then (x.1, { x.2 with finalStart := x.2.finalStart + pauseCycles }) else x } }

/-- POWER_OPERATING_POINT (R440): the die pauses; the command completes when the pause ends. -/
def execPowerOperatingPoint (s : State) : Host.Outcome State Fault Refusal :=
  match s.ctl.ev.arg with
  | .cmd h (.powerOperatingPoint die point) =>
    if h.fn ≠ 0 then .next (s.cmdEnd h 0x11 2 [])
    else if 8 ≤ die || 4 ≤ point then .next (s.cmdEnd h 0x11 3 [])
    else if (s.die die).paused then .next (s.cmdEnd h 0x11 4 [])
    else .next (((s.pauseDie die).updDie die fun d => { d with point := point, paused := true }).later pauseCycles .operatingPointPauseEnd die h.fn h.tag.toNat)
  | _ => .fault .noSuchHappening

/-- OPERATING_POINT_PAUSE_END (R440): ev.a the die; its clock has not advanced. -/
def execOperatingPointPauseEnd (s : State) : Host.Outcome State Fault Refusal :=
  let d := s.ctl.ev.a
  .next ((s.updDie d fun d => { d with paused := false, lostCycles := d.lostCycles + pauseCycles }).cmdEnd
    ⟨s.ctl.ev.b, BitVec.ofNat 32 s.ctl.ev.c⟩ 0x11 0 [])

/-- POWER_CLUSTER (R420, R441). -/
def execPowerCluster (s : State) : Host.Outcome State Fault Refusal :=
  match s.ctl.ev.arg with
  | .cmd h (.powerCluster cl gate) =>
    let c := s.cluster cl
    if h.fn ≠ 0 then .next (s.cmdEnd h 0x11 2 [])
    else if 2048 ≤ cl then .next (s.cmdEnd h 0x11 3 [])
    else if gate then
      if c.crew.isSome || !c.powered then .next (s.cmdEnd h 0x11 4 [])
      else
        let s := s.updCluster cl fun c => { c with
          powered := false, gatingCmd := some (h.fn, h.tag), trace := { c.trace with gating := some s.ctl.cycle, dropped := 0 } }
        let s := s.later 4096 .traceDrainTimeout cl 0 0
        let s := if s.scheduled .traceDrain cl then s else s.later 0 .traceDrain cl 0 0
        .next (s.cmdGo h)
    else if c.powered || c.gatingCmd.isSome || s.scheduled .clusterPowerUp cl then .next (s.cmdEnd h 0x11 4 [])
    else .next (s.later s.ctl.lat.host .clusterPowerUp cl h.fn h.tag.toNat)
  | _ => .fault .noSuchHappening

/-- CLUSTER_POWER_UP (R420, R441): ev.a the cluster; its first record is a gap record, and a count of lost records stays for the next
(R418). The command completes. -/
def execClusterPowerUp (s : State) : Host.Outcome State Fault Refusal :=
  let cl := s.ctl.ev.a
  let t := (s.cluster cl).trace
  let gap : Vector Word 8 := #v[BitVec.ofNat 64 (2 * 2 ^ 60 + s.ctl.cycle % 2 ^ 48), BitVec.ofNat 64 (t.dropped * 2 ^ 32),
    BitVec.ofNat 64 (t.gating.getD 0), BitVec.ofNat 64 s.ctl.cycle, 0, 0, 0, 0]
  let s := s.updCluster cl fun c => { c with
    powered := true, l1 := [], icache := [], tlb := [],
    trace := { t with recs := [gap], dropped := 0, gating := none, draining := true } }
  let s := s.later 8 .traceDrain cl 0 0
  .next (s.clustersFreed.cmdEnd ⟨s.ctl.ev.b, BitVec.ofNat 32 s.ctl.ev.c⟩ 0x11 0 [])

/-- POWER_HBM_REFRESH (R442): a stack that leaves self-refresh serves what waited. -/
def execPowerHbmRefresh : State → Host.Outcome State Fault Refusal := command true 0x11 fun _ c s =>
  match c with
  | .powerHbmRefresh stack mode =>
    let held := (s.die stack).held
    let s' := s.updDie stack fun d => { d with refresh := mode, held := if mode = 2 then d.held else [] }
    let s' := if mode = 2 then s' else held.foldl (fun s i => match s.msgs.find i with
      | some m => s.later 0 (s.rowOf m).1 i 0 0
      | none => s) s'
    inRange (decide (stack < 8) && decide (mode < 3)) s' s
  | _ => none

/-- POWER_LINK_WIDTH (R439): link 0 is PCI Express, link 1 + p Trodon port p. -/
def execPowerLinkWidth : State → Host.Outcome State Fault Refusal := command true 0x11 fun _ c s =>
  match c with
  | .powerLinkWidth link width =>
    if link = 0 then inRange (width == 16 || width == 8 || width == 4) (s.updDev fun d => { d with hostWidth := width }) s
    else inRange (decide (link ≤ 128) && (width == 1 || width == 2)) (s.updPort (link - 1) fun p => { p with lanes := width }) s
  | _ => none

/-! ## The chorus (R414 to R417) -/

/-- The run-state code of a slot's thread (R415). -/
def State.chorusState (s : State) (x : Slot) (tid : Nat) : Nat :=
  match x with
  | .loading _ _ => 1
  | _ =>
    match (s.thread tid).run with
    | .active => if (s.thread tid).inGang && !(s.gangOf tid).all s.seated then 5 else 2
    | .sfu => 4
    | _ => 3

/-- A cluster is powered: it is until its gating has drained and written back (R417, R420, R441). -/
def State.contributing (s : State) (cl : Nat) : Bool := (s.cluster cl).powered || (s.cluster cl).gatingCmd.isSome

/-- The entry of a slot (R417); slots 0 and 1 report TENANT 0 (R415). -/
def State.chorusEntry (s : State) (x : Slot) (tid : Nat) : List Byte :=
  let t := s.thread tid
  let (mark, mv) : Nat × Nat := match t.aux.mark with
    | some (m, at') => if at' < s.ctl.cycle then (m.toNat, 1) else (0, 0)
    | none => (0, 0)
  let g := if tid < 32768 then 0xFFFFFF else (s.gtidOf tid).toNat
  leBytes 8 (g * 2 ^ 32 + t.ctx.pc.toNat) ++ leBytes 8 (mark * 2 ^ 32 + mv * 2 ^ 31 + s.chorusState x tid * 2 ^ 28)

/-- The record of a cluster (R417). -/
def State.chorusCluster (s : State) (cl : Nat) : List Byte :=
  let slots := (List.range 8).flatMap fun j => (s.core (8 * cl + j)).slots.toList
  let held := slots.zipIdx.filterMap fun x => x.1.tid.map fun t => (x.1, t, x.2)
  let mask := held.foldl (fun m x => m + 2 ^ x.2.2) 0
  leBytes 8 (cl * 2 ^ 53 + (1 + held.length)) ++ leBytes 8 mask ++ held.flatMap fun x => s.chorusEntry x.1 x.2.1

/-- Bytes put into a byte ring of host memory that has room; log 8. -/
def State.ringBytes (s : State) (ring size : Nat) (bs : List Byte) : State :=
  let w := leNat (s.mem.read (hostKey ring) 8)
  let tail := w / 2 ^ 32
  let at' := tail % size
  let m := (s.mem.write (hostKey (ring + 64 + at')) (bs.take (size - at'))).write (hostKey (ring + 64)) (bs.drop (size - at'))
  { s with mem := m.write (hostKey ring) (leBytes 8 ((tail + bs.length) % 2 ^ 32 * 2 ^ 32 + w % 2 ^ 32)) }

/-- Marks that a snapshot reported are cleared (R416). -/
def State.clearMarks (s : State) : State :=
  let bound (t : Thread) : Bool := t.slot.isSome && s.contributing (t.core / 8)
  { s with threads := s.threads.map fun x => match x.2.aux.mark with
      | some (_, at') => if bound x.2 && decide (at' < s.ctl.cycle) then (x.1, { x.2 with aux := { x.2.aux with mark := none } }) else x
      | none => x }

/-- CHORUS_TICK (R414 to R417). -/
def execChorusTick (s : State) : Host.Outcome State Fault Refusal :=
  let c := s.dev.chorus
  if !bit c.cfg.toNat 63 then .next s
  else
    let seq := wf c.cfg 0 16
    let cls := (List.range 2048).filter s.contributing
    let body := cls.flatMap fun cl => s.chorusCluster cl
    let map := cls.foldl (fun m cl => m + 2 ^ cl) 0
    let len := 320 + body.length
    let out := bytesOf [BitVec.ofNat 64 ((c.high.toNat * 2 ^ 16 + seq) * 2 ^ 32 + s.dev.id * 2 ^ 20), BitVec.ofNat 64 s.ctl.cycle,
        BitVec.ofNat 64 (c.lost.toNat * 2 ^ 32 + len), 0, 0, 0, 0, 0] ++ leBytes 256 map ++ body
    let room := decide (0 < c.ringSize) && decide (s.ringUsed ⟨c.ring, 0⟩ + len ≤ c.ringSize)
    let s := if room then (s.ringBytes c.ring c.ringSize out).clearMarks else s
    let s := s.updDev fun d => { d with chorus := { c with
      lost := if room then 0 else sat32 c.lost, cfg := putField c.cfg 0 16 (seq + 1), high := if seq = 0xFFFF then c.high + 1 else c.high } }
    .next (s.later (max 65536 (wf c.cfg 16 32)) .chorusTick 0 0 0)

/-! ## Boot (R434 to R436) -/

/-- The code of the first failing step of the ROM; 0 when all pass (R435). -/
def BootState.check (b : BootState) (i : BootImage) : Nat :=
  if i.ecdsaKeyHash ≠ b.ecdsaFuse || i.lmsKeyHash ≠ b.lmsFuse then 1
  else if !i.ecdsaValid then 2
  else if !i.lmsValid then 3
  else if i.svn < b.svnf.toNat then 4
  else 0

/-- M := SHA-384(M ‖ digest), the digest being the component's SHA-384 (R436). -/
def extendMeasurement (m : BitVec 384) (bs : List Byte) : BitVec 384 :=
  Config.sha384 (leBytes 48 m.toNat ++ leBytes 48 (Config.sha384 bs).toNat)

/-- What the ROM leaves (R435, R436): a failure asks for another image; with every component that the table must name the part
is booted. -/
def BootState.run (b : BootState) (i : BootImage) : BootState :=
  let c := b.check i
  let b := { b with sige := c != 1 && !i.ecdsaValid, sigl := c != 1 && !i.lmsValid, berr := BitVec.ofNat 8 c }
  if c ≠ 0 then { b with recovery := true, bootok := false }
  else
    let ms := i.components.foldl (fun (m : Vector (BitVec 384) 8) x =>
      m.setIfInBounds (x.1 % 8) (extendMeasurement (m.toList.getD (x.1 % 8) 0) x.2)) b.meas
    { b with
      recovery := false, svn := i.svn, svnf := if i.raiseSvn then BitVec.ofNat 64 i.svn else b.svnf, meas := ms, loaded := i.components,
      bootok := (List.range 5).all fun k => (i.components.map (·.1)).contains k }

/-- BOOT (R435): the image of the flash, or one that the host puts through the boot window while RECOVERY is 1. A flash without
an image fails the first check: log 12. -/
def execBoot (s : State) : Host.Outcome State Fault Refusal :=
  let b := s.dev.boot
  -- the access counters of the eight C-dies begin to be halved when these leave reset (R399, R434)
  let go (s : State) : State := if s.dev.boot.bootok then (List.range 8).foldl (fun s d => s.later 1048576 .accessCounterHalving d 0 0) s else s
  let set (b : BootState) : Host.Outcome State Fault Refusal := .next (go (s.updDev fun d => { d with boot := b }))
  match s.ctl.ev.arg with
  | .boot i => if b.recovery then set (b.run i) else .next s
  | _ =>
    if b.bootok then .next s
    else match s.flash with
      | some i => set (b.run i)
      | none => set { b with recovery := true, berr := 1 }

/-! ## Resets (R433, R442) -/

/-- The part as it starts from reset; the fuses, the flash and the signature count stand. -/
def State.restart (s : State) : State :=
  let b := s.dev.boot
  { State.reset with
    flash := s.flash,
    dev := { State.reset.dev with
      boot := { State.reset.dev.boot with
        svnf := b.svnf, ecdsaFuse := b.ecdsaFuse, lmsFuse := b.lmsFuse, serial := b.serial, lmsCount := b.lmsCount } } }

/-- THERMAL_TRIP (R442): the part starts from reset. -/
def execThermalTrip (s : State) : Host.Outcome State Fault Refusal := .next s.restart

/-- The waiter records of some threads leave an object without a wake. -/
def State.dropWaiters (s : State) (k : Nat) (gone : Agent → Bool) : Nat → Nat → State
  | 0, _ => s
  | n + 1, i =>
    match (s.obj k).waiters[i]? with
    | none => s
    | some w => if gone w.req.who then (s.unpark k i).dropWaiters k gone n i else s.dropWaiters k gone n (i + 1)

/-- A tadpole is discarded. -/
def State.discardThread (s : State) (tid : Nat) : State :=
  let core := (s.thread tid).core
  let s := ((s.abandonSfu tid).retirePair tid).freeSlot tid
  let s := s.updCore core fun c => { c with
    entries := c.entries.filter (· != tid), fifo := c.fifo.filter (· != tid),
    slots := c.slots.map fun x => if x.tid = some tid then .empty else x }
  { s with threads := s.threads.erase tid }

/-- A job of a discarded pond completes with an error. -/
def State.abortJob (s : State) (j : Nat) (x : Job) : State :=
  let cl := x.core / 8
  let s := s.updCluster cl fun c => { c with
    mx := { c.mx with queues := c.mx.queues.map (·.filter (· != j)) },
    copy := { c.copy with queue := c.copy.queue.filter (· != j) } }
  let s := (s.updCore x.core fun c => { c with clq := c.clq.filter (· != j) }).unselect j
  let s := s.unstop j
  if x.eng = .cl then s.clFail (.job j) 0x01 else s.failJob j 0x01

/-- A pond ends without being saved (R433). -/
def State.abortPond (s : State) (k : Nat) : State :=
  let tids := s.pondThreads k
  let mine (a : Agent) : Bool := match a with | .thread t => tids.contains t | _ => false
  let objs := s.slices.flatMap fun x => (x.2.objs.filter fun o => o.2.waiters.any fun w => mine w.req.who).map (·.1)
  let s := objs.foldl (fun s o => s.dropWaiters o mine (s.obj o).waiters.length 0) s
  let s := tids.foldl (fun s tid => s.discardThread tid) s
  let s := (s.jobs.filter fun j => j.2.pond == k && !j.2.finished).foldl (fun s j => s.abortJob j.1 j.2) s
  let s := match s.pond k with
    | some p => (match p.state with
      | .preempting fn tag _ => s.putCompletion ⟨0x0D, 4, fn, tag, []⟩
      | .resuming fn tag _ => s.putCompletion ⟨0x0E, 4, fn, tag, []⟩
      | _ => s)
    | none => s
  (s.updPond k fun p => { p with
    live := 0, aborted := true, state := match p.state with | .saved a | .resuming _ _ a => .saved a | _ => .running }).checkPondEnd k

/-- FUNCTION_LEVEL_RESET (R433): ev.a the virtual function; with ev.b 1 a fundamental reset of the link, which resets the part. -/
def execFunctionLevelReset (s : State) : Host.Outcome State Fault Refusal :=
  let n := s.ctl.ev.a
  if s.ctl.ev.b = 1 then .next s.restart else
  let s := s.updDev fun d => { d with queues := d.queues.map fun q =>
    if q.2.cfg.owner = n then (q.1, { q.2 with cfg := { q.2.cfg with en := false } }) else q }
  let ks := (s.dev.ponds.filter fun p => p.2.tenant == n && !p.2.isEnded).map (·.1)
  let s := ks.foldl (fun s k => s.abortPond k) s
  .next (s.updFn n fun f => { f with mcq := [], mrq := [], mrqWait := [] })

end Sys2Proof.Machine
end

