-- ==== Sys2Proof/Machine/Fabric.lean ====
section
/-! DEFINITION. Packets from other devices and the links (R376 to R383): requests served here, replies to requests made here,
duplicates, acknowledgements, resends, ports that go down and come up. -/

namespace Sys2Proof.Machine

/-! ## What a packet carries -/

/-- A reply from its packet's data (see `Reply.bytes`). -/
def Reply.ofBytes (bs : List Byte) : Reply :=
  let w := leNat (bs.take 8)
  let rest := bs.drop 24
  let hasCap := bit w 12
  let hasFault := bit w 16
  let sc := field w 13 3
  let after := if hasCap then rest.drop 32 else rest
  let word (i : Nat) : Nat := leNat ((after.drop (8 * i)).take 8)
  let last := if hasFault then after.drop 24 else after
  let seen := (List.range (field w 20 8)).map fun i => (leNat ((last.drop (16 * i)).take 8), leNat ((last.drop (16 * i + 8)).take 8))
  { cause := w % 256, flag := bit w 8, merr := bit w 9, push := bit w 10, after := bit w 11,
    value := BitVec.ofNat 64 (leNat ((bs.drop 8).take 8)), addr := leNat ((bs.drop 16).take 8),
    cap := if hasCap then some (segOf (wordsOf 4 rest)) else none,
    fault := if hasFault then some (word 0, word 1, word 2) else none,
    seen := seen, data := last.drop (16 * seen.length), scope := if sc = 0 then none else some (scopeOf (sc - 1)) }

/-- An object operation from its code and operands (see `HomeOp.fn6`); a seal of another device is one of the pod (R7). -/
def decodeOp (code : Nat) (ws : List Word) : Option HomeOp :=
  let n (i : Nat) : Nat := (wordAt ws i).toNat
  match code with
  | 0x00 => some (.init (n 0) (ws.drop 1))
  | 0x01 => some .free
  | 0x02 => some .read
  | 0x08 => some (.cntAdd (wordAt ws 0))
  | 0x09 => some (.cntSwap (wordAt ws 0))
  | 0x0A => some (.cntCas (wordAt ws 0) (wordAt ws 1))
  | 0x0B => some (.waitGe (wordAt ws 0))
  | 0x0C => some (.waitEq (wordAt ws 0))
  | 0x10 => some .barArrive
  | 0x11 => some (.barWait (n 0))
  | 0x12 => some .barSync
  | 0x18 => some .tktAcq
  | 0x19 => some .tktTry
  | 0x1A => some .tktRel
  | 0x20 => some (.cndWait (n 0))
  | 0x21 => some .cndSig
  | 0x22 => some .cndBcast
  | 0x200 => some (.qPut (n 0) ((bytesOf (ws.drop 2)).take (n 1)))
  | 0x201 => some (.qGet (n 0))
  | 0x202 => some (.qTryput (n 0) ((bytesOf (ws.drop 2)).take (n 1)))
  | 0x203 => some (.qTryget (n 0))
  | 0x400 => some (.seal (n 0) (n 1) .pod)
  | 0x401 => some .unseal
  | 0x402 => some .giveCheck
  | 0x403 => some (.give (segOf ws))
  | 0x404 => some .take
  | 0x405 => some .copyTake
  | 0x406 => some .copyRelease
  | 0x407 => some (.probeType (n 0))
  | 0x408 => some (.nAlloc (n 0) (n 1))
  | 0x409 => some .nFree
  | 0x40A => some (.nRead (n 0))
  | 0x40B => some (.nLink (n 0) (n 1) (n 2))
  | 0x40C => some (.nRelink (n 0) (n 1) (n 2) (n 3) (n 4))
  | 0x40D => some (.pairPush (n 0) (n 1))
  | 0x40E => some (.ruleGo (n 0) (n 1) (n 2) (n 3))
  | 0x40F => some .tktRelFor
  | 0x410 => some (.slotPut (n 0 != 0) ((bytesOf (ws.drop 2)).take (n 1)))
  | 0x411 => some (.slotGet (n 0) (n 1 != 0))
  | 0x412 => some (.slotFree (n 0))
  | 0x413 => some (.nRecycle (wordAt ws 0))
  | 0x414 => some (.mergeLog (n 0))
  | 0x415 => some (.phaseAdd (n 0))
  | _ => none

/-- The operation of a packet of OP 0x03 to 0x05. -/
def packetOp (p : FabricPacket) (ws : List Word) : Option HomeOp :=
  if p.op = 0x03 then decodeOp (field p.arg.toNat 0 6 + 64 * (p.arg.toNat / 2 ^ 9)) ws
  else if p.op = 0x04 then some (.rsv (wordAt ws 0).toNat)
  else match ws with
    | [n, v] => some (.rls n.toNat v)
    | [n] => some (.rlsx n.toNat)
    | _ => none

/-- The operator of an append's code. -/
def logOpOf (c : Nat) : LogOp := match c with | 0 => .add | 1 => .fadd | 2 => .min | 3 => .max | _ => .or

/-! ## Duplicates (R382) -/

/-- What becomes of a request with a sequence number: it is new, applied before with this reply, parked, or below ACKT. -/
inductive Seen where
  | fresh
  | answered (r : Reply)
  | parked
  | old
  deriving DecidableEq, Repr

/-- A sequence number of 32 bits lies below another, round the end of the counter (R382). -/
def seqBelow (a b : Nat) : Bool := decide (2 ^ 31 ≤ (a + 2 ^ 32 - b % 2 ^ 32) % 2 ^ 32)

/-- A request looked up, with ACKT's effect on what is kept: the latest ACKT is the one that lies furthest on. -/
def Dedup.look (d : Dedup) (seq ackt : Nat) : Seen × Dedup :=
  let low := if seqBelow d.ackt ackt then ackt else d.ackt
  let d : Dedup := { ackt := low, seen := d.seen.filter fun e => !seqBelow e.1 low }
  if seqBelow seq low then (.old, d)
  else match d.seen.find? (·.1 == seq) with
    | some (_, some r) => (.answered r, d)
    | some (_, none) => (.parked, d)
    | none => (.fresh, { d with seen := d.seen ++ [(seq, none)] })

/-- The slice at which a request of another device is known: that of its home, or the one from which its page has since moved (R298). -/
def State.dedupSlice (s : State) (p : FabricPacket) : Nat :=
  let key := p.sdev * 2 ^ 18 + p.sagt
  match s.slices.find? fun x => (x.2.dedup.get {} key).seen.any (·.1 == p.seq) with
  | some x => x.1
  | none => sliceOf (s.key p.pa)

/-- What the unit that deduplicates a packet keeps of its agent: the home for requests to memory, objects, reservations and logs, else
the fabric routers, of which a packet that is sent again may reach either (R381, R382). -/
def State.dedupOf (s : State) (p : FabricPacket) : Dedup :=
  let key := p.sdev * 2 ^ 18 + p.sagt
  if p.op ≤ 6 then (s.slice (s.dedupSlice p)).dedup.get {} key else (s.xdie 0).dedup.get {} key

/-- Its update. -/
def State.setDedup (s : State) (p : FabricPacket) (d : Dedup) : State :=
  let key := p.sdev * 2 ^ 18 + p.sagt
  let put (x : XDie) : XDie := { x with dedup := x.dedup.set key d }
  if p.op ≤ 6 then s.updSlice (s.dedupSlice p) fun x => { x with dedup := x.dedup.set key d }
  else (s.updXdie 0 put).updXdie 1 put

/-! ## Requests served here -/

/-- The packet is a remote access (OP 0x07 with an access's 20 bytes; log 21). -/
def isRemote (p : FabricPacket) : Bool := p.op == 0x07 && p.data.length == 20

/-- The core that a packet of OP 0x07 or 0x08 is for. -/
def packetCore (p : FabricPacket) : Nat := if isRemote p then field p.arg.toNat 0 14 else hdrCore p.arg

/-- A request or message of another device enters this device's own networks past the die router. Every request to a home takes as long, so
that ordered packets take effect in their order (R379); every request acts at pod scope (R7, R289). A write of at most 16 bytes whose
mask has bit 63 set is a store of object space (R145): DESIGN CHOICE, log 21. -/
def State.serveFabric (s : State) (p : FabricPacket) : State :=
  let who : Agent := .fabric p.sdev p.sagt p.seq p.ten p.op
  let w (i : Nat) : Nat := leNat ((p.data.drop (8 * i)).take 8)
  let ws := wordsOf (p.data.length / 8) p.data
  let enter (m : Msg) : State := (s.addMsg m).arriveIn s.ctl.nextMsg s.ctl.lat.link
  let beside := 256 * field p.pa 36 3
  let line (n : Nat) : SliceReq :=
    { who := who, fill := false, va := 0, pa := p.pa, n := n, asid := 8192, tenant := p.ten, ac := true, cluster := beside }
  match p.op with
  | 0x01 => enter (.slice (line (p.arg.toNat % 2 ^ 16)))
  | 0x02 => enter (.slice { line p.data.length with
      write := some p.data, mask := if p.data.length ≤ 64 then some (p.arg.toNat % 2 ^ p.data.length) else none,
      obj := decide (p.data.length ≤ 16) && bit p.arg.toNat 63 })
  | 0x03 | 0x04 | 0x05 =>
    match packetOp p (ws.drop 6) with
    | some op => enter (.home
        { who := who, op := op, va := w 0, pa := p.pa, segBase := w 1, segLimit := w 2, asid := w 3 % 2 ^ 13, tenant := p.ten,
          scope := .pod, cluster := beside, key := field (w 3) 13 8, ac := bit (w 3) 21,
          ident := (BitVec.ofNat 32 (w 4), w 4 / 2 ^ 32 + w 5 / 2 ^ 32 * 2 ^ 32, BitVec.ofNat 32 (w 5)) })
    | none => s.answer (sliceOf (s.key p.pa)) who { cause := 0x46 } false
  | 0x06 => enter (.append
      { pa := p.pa, op := logOpOf (p.arg.toNat / 16), n := p.arg.toNat % 16, val := BitVec.ofNat 64 (w 0), keyDev := p.sdev, keyCount := w 1,
        slice := w 2, seq := 0, split := if p.data.length = 48 then some (w 3, w 4, w 5) else none } who)
  | 0x07 | 0x08 =>
    if isRemote p then
      let a := p.arg.toNat
      let r : Remote := ⟨who, BitVec.ofNat 32 (leNat (p.data.drop 16)), packetCore p, if bit a 14 then .scratch else .tcm, w 0, field a 15 4, bit a 19,
        if bit a 20 then some (BitVec.ofNat 64 (w 1)) else none⟩
      let i := s.ctl.nextMsg
      (s.addMsg (.remote r)).later (s.ctl.lat.link + 1) .remoteAccessService (packetCore p) (i + 1) 0
    else enter (.net
      { header := p.arg, payload := ws.drop 1, sender := who, gtid := BitVec.ofNat 32 (w 0), srcCore := packetCore p, asked := true } (packetCore p))
  | _ => s

/-- A group packet of another device (R357, R377): it is acknowledged once it has taken effect (R380). -/
def State.serveGroup (s : State) (port : Nat) (p : FabricPacket) : State :=
  let who : Agent := .fabric p.sdev p.sagt p.seq p.ten p.op
  let a := p.arg.toNat
  let grp := field a 0 12
  let num := field a 12 32
  let flg := BitVec.ofNat 8 (field a 44 8)
  let err := field a 52 8
  let ws := wordsOf (p.data.length / 8) p.data
  let router := 8 + port / 64 % 2
  if p.op = 0x09 then
    s.post s.ctl.lat.link .groupContribution
      (.contribution ⟨router, grp, 0x10000 + port % 64, ws.drop 1, flg, .nobody, p.ten, num, (wordAt ws 0).toNat, err, 0, p.sagt, who⟩)
  else s.post s.ctl.lat.link .groupDelivery
      (.delivery ⟨router, grp, num, ws.drop 1, flg, err, p.ten, bit a 60, bit a 61, p.sagt, who⟩)

/-! ## Replies to requests made here -/

/-- A packet that its destination has answered is kept no more. -/
def State.unkeep (s : State) (i : Nat) : State :=
  match s.msgs.find i with
  | some (.fabric k) =>
    let gone (x : XDie) : XDie := { x with held := x.held.filter (· != i) }
    let s := s.updPort k.last fun q => { q with sent := q.sent.filter (· != i) }
    ((s.updXdie 0 gone).updXdie 1 gone).dropMsg i
  | _ => s

/-- Bytes that a home of another device has discarded leave the writer's L1 (R287): the line, the mask of the write and the place in the
line where it begins. -/
def State.farDiscard (s : State) (cl asid line mask off : Nat) (r : Reply) : State :=
  if r.flag then
    s.updCluster cl fun c => c.l1Forget asid line (BitVec.ofNat 128 ((mask - Nat.land mask (leNat r.data)) * 2 ^ off)) false
  else s

/-- What an operation that a home of another device has performed does here: the asker's L1 (R292), what the clusters hold of an unsealed
range (R155), the free list and the limbo list of
its cluster (R271), the probe of its pond (R268), the record of a counter that is none (R268, R336). The answer as the asker gets it. -/
def State.farEffect (s : State) (q : HomeReq) (r : Reply) : Reply × State :=
  let s := r.seen.foldl (fun s x => s.ownOp q x.1 x.2) (s.ownOp q q.va 32)
  let ok := r.cause == 0 && !r.merr && r.fault.isNone
  match q.op with
  | .nAlloc _ _ =>
    let s := if ok then s.updCluster q.cluster fun c => { c with regs := { c.regs with nfl := nflStored (BitVec.ofNat 64 (leNat (r.data.take 8))) } } else s
    ({ r with data := [] }, s.wakePool q.cluster)
  | .nFree => (r, if ok then s.limboAdd q.cluster q else s)
  | .probeType _ => (r, if ok then s.probeEnter q else s)
  | .phaseAdd g => (r, if r.cause = 0x41 then s.phaseRec q g else s)
  | .unseal =>
    let w (i : Nat) : Nat := leNat ((r.data.drop (8 * i)).take 8)
    ({ r with data := [] }, if ok then s.dropSealed (w 0) (w 1) (w 2) q.cluster .pod else s)
  | .rls n _ => (r, if ok then s.ownWrite q.cluster q.asid q.va n else s)
  | .qPut _ p | .qTryput _ p => ({ r with data := [] }, if ok && r.flag then s.ownWrite q.cluster q.asid (leNat r.data) p.length else s)
  | .give _ => ({ r with data := [] }, if ok && r.flag then s.ownWrite q.cluster q.asid (leNat r.data) 32 else s)
  | _ => (r, s)

/-- A pair that an answer brings is pushed here (R275): the pool of the cluster beside the lower node's home when that lies in the
pond, else the asker's. False when the asker waits for room. -/
def State.farPush (s : State) (q : HomeReq) (r : Reply) : Bool × State :=
  if !r.push then (true, s)
  else
    let u := leNat (r.data.take 8)
    let v := leNat ((r.data.drop 8).take 8)
    let push (pa : Nat) : Bool × State :=
      match q.op with
      | .pairPush _ _ => s.pushPair q pa u v q.who
      | _ => (true, (s.pushPair q pa u v .nobody).2)
    match s.homeWalk q ((q.segBase + 32 * min u v) % 2 ^ 57) with
    | .ok (pa, _) => push pa
    | .error (0, pa) => (true, s.needs pa q.tenant q.cluster)
    | .error _ => push q.pa

/-- A home of another device has answered a request (R195, R270): a fault that follows earlier steps of a net operation parks the thread,
which resumes with the step that the answer names. -/
def State.homeAnswered (s : State) (q : HomeReq) (r : Reply) : State :=
  match q.who, r.fault, r.after with
  | .thread tid, some (c, va, _), true =>
    if (s.threads.find tid).isNone then s
    else
      let tk : Take := match (s.thread tid).cont with | .reply t => t | _ => {}
      let step := (decodeOp q.op.fn6 (wordsOf (r.data.length / 8) r.data)).getD q.op
      s.parkFault tid c va 3 (some ({ q with op := step }, tk))
  | _, _, _ =>
    -- cause 0x81 names no address (R402)
    let addr := if r.cause = 0x81 then 0 else if r.addr = 0 then q.va else r.addr
    if q.who.isFar then s.replyNow q.who r
    else
      let (told, s) := s.farPush q r
      let (r, s) := s.farEffect q (if r.push then { r with push := false, data := [] } else r)
      if q.who = .nobody || !told then s else s.replyNow q.who { r with addr := addr }

/-- A home of another device has answered a request for a line or bytes. -/
def State.sliceAnswered (s : State) (q : SliceReq) (r : Reply) : State :=
  let tell (s : State) (r : Reply) : State := if q.who = .nobody then s else s.replyNow q.who r
  match q.who with
  | .sched n => s.lineCame n q.pa ((r.data ++ List.replicate 128 0).take 128)
  | _ =>
    if r.cause ≠ 0 then tell s { r with addr := if r.cause = 0x81 then 0 else q.va }
    else match q.write with
      | some bs =>
        let bs := bs.take q.first
        let s := if q.obj then s.ownWrite q.cluster q.asid q.va bs.length
          else (s.ownStore q.cluster q.asid q.va bs).farDiscard q.cluster q.asid (q.va / 128) (2 ^ bs.length - 1) (q.va % 128) r
        match q.rest [] none with
        | some x => s.toSlice x
        | none => tell s {}
      | none =>
        if q.fill then
          let sealed' := r.flag || s.sealedLine q.asid q.va q.cluster
          let m : Msg := .fill q (BitVec.ofNat 1024 (leNat r.data)) (r.value.setWidth 16) sealed' q.stale
          s.post s.ctl.lat.slice (s.rowOf m).1 m
        else
          -- what the cluster held dirty when the read was made is newer (R148, R292)
          let r := if q.ordered then { r with data := overlay q.own r.data } else r
          let bad := if r.merr then some (q.va + r.addr) else none
          match q.rest r.data bad with
          | some x => s.toSlice x
          | none =>
            let bad := match q.bad with | some b => some b | none => bad
            tell s { data := q.got ++ r.data, merr := bad.isSome, addr := bad.getD 0 }

/-- What the answer does to the one that asked, by the message `c` that the packet carried. -/
def State.takeFabricReply (s : State) (c : Nat) (r : Reply) : State :=
  let s' := s.dropMsg c
  match s.msgs.find c with
  | some (.home q) => s'.homeAnswered q r
  | some (.slice q) => s'.sliceAnswered q r
  | some (.append e (.thread tid)) => s'.appendDone e tid
  | some (.wb w) =>
    let off := if w.mask.toNat % 2 ^ 64 = 0 then 64 else 0
    let s' := s'.farDiscard w.cluster w.asid w.va (w.mask.toNat / 2 ^ off) off r
    w.waiters.reverse.foldl (fun s a => s.goOn a) s'
  | some (.net m core) =>
    if r.cause = 0x80 then s.refused c m core
    else
      let s' := s'.sentDone c m
      let s' := if r.cause ≠ 0 then s'.probeCount (m.srcCore / 8) (-1) else s'
      if m.asked then s'.replyNow m.sender r else s'
  | some (.remote q) => s'.replyNow q.who r
  | some (.contribution x) =>
    if r.cause = 0 then s'
    else s'.post s.ctl.lat.link .groupDelivery (.delivery ⟨x.router, x.group, x.num, [], 0, 0x0B, x.tenant, false, false, x.sagt, .nobody⟩)
  | _ => s'

/-- The request of a source agent with a sequence number: its packet. -/
def State.outstanding (s : State) (sagt seq : Nat) : Option Nat :=
  ((s.dev.agents.get {} sagt).out.find? (·.1 == seq)).map (·.2)

/-- A request is outstanding no more; one that waited for the window of 64 goes out (R382), with the lowest number that is outstanding
then. -/
def State.windowMoves (s : State) (sagt seq : Nat) : State :=
  let a : SrcAgent := s.dev.agents.get {} sagt
  let out := a.out.filter (·.1 != seq)
  match a.wait with
  | i :: rest =>
    let n := match s.msgs.find i with | some (.fabric k) => k.p.seq | _ => 0
    let out := out ++ [(n, i)]
    let s := s.updDev fun d => { d with agents := d.agents.set sagt { a with out := out, wait := rest } }
    ({ s with msgs := s.msgs.map fun m => match m.2 with
        | .fabric k => if m.1 = i then (m.1, .fabric { k with p := { k.p with ackt := (out.head?.map (·.1)).getD n } }) else m
        | _ => m } : State).fabricOut i
  | [] => s.updDev fun d => { d with agents := d.agents.set sagt { a with out := out } }

/-- A reply packet (R377, R380). -/
def State.fabricAnswered (s : State) (p : FabricPacket) : State :=
  match s.outstanding p.sagt p.seq with
  | none => s
  | some i => match s.msgs.find i with
    | some (.fabric k) => (((s.unkeep i).takeFabricReply k.carried (Reply.ofBytes p.data))).windowMoves p.sagt p.seq
    | _ => s.windowMoves p.sagt p.seq

/-! ## Rows -/

/-- An OP that R377 assigns. -/
def opAssigned (op : Nat) : Bool := decide (1 ≤ op % 32) && decide (op % 32 ≤ 10) && decide (op < 64)

/-- The die whose router a packet for this device passes (R362): the home's, the target core's, that of the agent that gets a reply; none
for a group packet and its acknowledgement, which end at the fabric router. -/
def packetDie (p : FabricPacket) : Option Nat :=
  if p.op ≤ 6 then some (field p.pa 36 3)
  else if p.op ≤ 8 then some (packetCore p / 2048 % 8)
  else if 0x21 ≤ p.op && p.op ≤ 0x28 then some (sagtDie p.sagt)
  else none

/-- The first of the port, the fabric router and the die router whose bitmap lacks a packet's tenant (R369): the state that counts it. -/
def State.fabricViolation (s : State) (port : Nat) (p : FabricPacket) : Option State :=
  let xd := port / 64 % 2
  let at' (r : Nat) : Option State := if member (s.routerMap r) p.ten then none else some (s.countTviol r)
  if !member (s.port port).bitmap p.ten then some (s.updPort port fun q => { q with tviol := sat32 q.tviol })
  else (at' (8 + xd)).or (if p.ddev = s.dev.id then (packetDie p).bind at' else none)

/-- What a dropped packet leaves (R369): a reply or a write-back is only counted, any other is recorded; the source of a request gets a
drop notice through the port by which the packet came. -/
def State.fabricDrop (s : State) (port : Nat) (p : FabricPacket) : State :=
  let s := if p.op < 32 && !isWbPacket p then s.postMeq { tenant := p.ten, cause := 0x81, kind := 4 } else s
  if p.op < 32 then
    let i := s.ctl.nextMsg
    (s.addMsg (.fabric { p := dropNotice s.dev.id p, xd := port / 64 % 2, last := port })).updPort port fun q =>
      { q with line := q.line ++ [(i, 2)] }
  else s

/-- FABRIC_PACKET_ARRIVAL (R369, R377 to R379, R382): ev.a the port. -/
def execFabricPacketArrival : State → Host.Outcome State Fault Refusal := withTables fun s =>
  let port := s.ctl.ev.a
  match s.ctl.ev.arg with
  | .fabric p =>
    if !opAssigned p.op then .next (s.updPort port fun q => { q with badop := sat32 q.badop })
    else match s.fabricViolation port p with
    | some s => .next (s.fabricDrop port p)
    | none =>
      if p.ddev ≠ s.dev.id then
        let i := s.ctl.nextMsg
        .next ((s.addMsg (.fabric { p := p, xd := port / 64 % 2 })).fabricOut i)
      else if 32 ≤ p.op then .next (s.fabricAnswered p)
      else
        let (seen, d) := (s.dedupOf p).look p.seq p.ackt
        let s := s.setDedup p d
        let dup (s : State) : State := s.updPort port fun q => { q with dup := sat32 q.dup }
        match seen with
        | .fresh => .next (if 9 ≤ p.op then s.serveGroup port p else s.serveFabric p)
        | .answered r => .next ((dup s).fabricReply ((packetDie p).getD (4 * (port / 64 % 2))) p.sdev p.sagt p.seq p.ten p.op r)
        | .parked | .old => .next (dup s)
  | _ => .fault .noSuchHappening

/-- END_TO_END_ACKNOWLEDGEMENT (R380): ev.a the source agent, ev.b the sequence number. A write, an append, a write-back or a
group packet is over with it; another request's packet is kept no more, and its reply is still to come. -/
def execEndToEndAcknowledgement : State → Host.Outcome State Fault Refusal := withTables fun s =>
  let sagt := s.ctl.ev.a
  let seq := s.ctl.ev.b
  match s.outstanding sagt seq with
  | none => .next s
  | some i => match s.msgs.find i with
    | some (.fabric k) =>
      let whole := match s.msgs.find k.carried with
        | some (.slice q) => q.write.isSome
        | some (.append _ _) | some (.wb _) | some (.contribution _) | some (.delivery _) => true
        | _ => false
      if whole then .next (((s.unkeep i).takeFabricReply k.carried {}).windowMoves sagt seq)
      else .next (s.updPort k.last fun q => { q with sent := q.sent.filter (· != i) })
    | _ => .next (s.windowMoves sagt seq)

/-- What is left of a link's packets when `n` more flits are acknowledged, and the packets that are whole. -/
def ackLine : List (Nat × Nat) → Nat → List (Nat × Nat) × List Nat
  | [], _ => ([], [])
  | (i, k) :: t, n => if n < k then ((i, k - n) :: t, []) else
    let (l, d) := ackLine t (n - k)
    (l, i :: d)

/-- LINK_ACKNOWLEDGEMENT (R381): ev.a the port, ev.b the flits that the receiver has. A reply or a forwarded packet that is
whole is kept no more. -/
def execLinkAcknowledgement (s : State) : Host.Outcome State Fault Refusal :=
  let q := s.port s.ctl.ev.a
  let (l, done) := ackLine q.line s.ctl.ev.b
  let s' := s.updPort s.ctl.ev.a fun q => { q with line := l, resends := if 0 < s.ctl.ev.b then 0 else q.resends }
  .next ((done.filter fun i => match s.msgs.find i with
    | some (.fabric k) => decide (32 ≤ k.p.op) || k.p.sdev != s.dev.id
    | _ => false).foldl (fun s i => s.dropMsg i) s')

/-- LINK_RESEND (R381): ev.a the port; ev.b 1 when a flit that the port received failed its CRC, else an acknowledgement is
missing. The ninth time the port goes down. -/
def execLinkResend (s : State) : Host.Outcome State Fault Refusal :=
  let port := s.ctl.ev.a
  if s.ctl.ev.b = 1 then .next (s.updPort port fun q => { q with crcerr := sat32 q.crcerr })
  else if (s.port port).line.isEmpty then .next s
  else if 8 ≤ (s.port port).resends then .next (s.later 0 .portDown port 0 0)
  else .next (s.updPort port fun q => { q with retry := sat32 q.retry, resends := q.resends + 1 })

/-- PORT_DOWN (R381): ev.a the port. Its bit leaves every mask; what it keeps (requests not acknowledged end to end, and what
the link has not acknowledged) is sent again, in order, on the ports that its own fabric router's table now gives. -/
def execPortDown (s : State) : Host.Outcome State Fault Refusal :=
  let port := s.ctl.ev.a
  let line := (s.port port).line.map (·.1)
  let kept := ((s.port port).sent.filter fun i => !line.contains i) ++ line.filter fun i => (s.msgs.find i).isSome
  let clear (x : XDie) : XDie := { x with fwd := x.fwd.map fun f => (f.1, f.2 &&& ~~~(BitVec.ofNat 128 (2 ^ port))) }
  let s := ((s.updXdie 0 clear).updXdie 1 clear).postMeq { tenant := 0, cause := 0x83, kind := 4 }
  let s := s.updPort port fun q => { q with
    up := false, sent := [], line := [], resends := 0, down := sat32 q.down }
  .next (kept.foldl (fun s i => s.fabricOut i) s)

/-- LINK_TRAINING (R376): ev.a the port, ev.b the generation and ev.c the lanes that both ends can use. What the host has set stands
(R9, R439). -/
def execLinkTraining (s : State) : Host.Outcome State Fault Refusal :=
  .next (s.updPort s.ctl.ev.a fun q => { q with up := true, rate := s.ctl.ev.b, width := min q.lanes s.ctl.ev.c, line := [], resends := 0 })

end Sys2Proof.Machine
end

