-- ==== Sys2Proof/Machine/Scalar.lean ====
section
/-! DEFINITION. Majors 0x01 to 0x06: register and constant-window arithmetic, compares, predicate logic, bit fields,
multiply and divide (R122 to R130). -/

namespace Sys2Proof.Machine

/-- Leading zero bits of a word, 64 for zero (R124). -/
def clz (a : Word) : Word := BitVec.ofNat 64 ((firstBelow (fun i => bit a.toNat (63 - i)) 64 0).getD 64)
/-- Trailing zero bits of a word, 64 for zero (R124). -/
def ctz (a : Word) : Word := BitVec.ofNat 64 ((firstBelow (fun i => bit a.toNat i) 64 0).getD 64)
/-- Set bits of a word (R124). -/
def popc (a : Word) : Word := BitVec.ofNat 64 ((List.range 64).filter fun i => bit a.toNat i).length
/-- The smaller, larger of two words, unsigned and signed (R124). -/
def minU (a b : Word) : Word := if a.toNat ≤ b.toNat then a else b
def maxU (a b : Word) : Word := if a.toNat ≤ b.toNat then b else a
def minS (a b : Word) : Word := if a.toInt ≤ b.toInt then a else b
def maxS (a b : Word) : Word := if a.toInt ≤ b.toInt then b else a
/-- Shifts and rotates by the low six bits (R124). -/
def shl6 (a b : Word) : Word := a <<< (b.toNat % 64)
def shr6 (a b : Word) : Word := a >>> (b.toNat % 64)
def sra6 (a b : Word) : Word := a.sshiftRight (b.toNat % 64)
def rol6 (a b : Word) : Word := a.rotateLeft (b.toNat % 64)
def ror6 (a b : Word) : Word := a.rotateRight (b.toNat % 64)

/-- A form of major 0x01 with two operands (R122, R124). -/
def alu2 (gd : Guard) (rd ra rb : Reg) (f : Word → Word → Word) (s : State) : Host.Outcome State Fault Refusal :=
  perform gd s do
    let a ← readReg ra
    let b ← readReg rb
    writeReg rd (f a b)

/-- A form with one operand (R124). -/
def alu1 (gd : Guard) (rd ra : Reg) (f : Word → Word) (s : State) : Host.Outcome State Fault Refusal :=
  perform gd s do
    let a ← readReg ra
    writeReg rd (f a)

/-- A form of major 0x02: the second operand is entry k (R124). -/
def aluK (gd : Guard) (rd ra : Reg) (k : BitVec 8) (f : Word → Word → Word) (s : State) :
    Host.Outcome State Fault Refusal :=
  perform gd s do
    let a ← readRegK ra k
    let b ← readK k
    writeReg rd (f a b)

/-- A compare of major 0x03 (R129). -/
def cmp2 (gd : Guard) (p : Pred) (ra rb : Reg) (f : Word → Word → Bool) (s : State) :
    Host.Outcome State Fault Refusal :=
  perform gd s do
    let a ← readReg ra
    let b ← readReg rb
    writePred p (f a b)

/-- A compare with entry k (R129). -/
def cmpK (gd : Guard) (p : Pred) (ra : Reg) (k : BitVec 8) (f : Word → Word → Bool) (s : State) :
    Host.Outcome State Fault Refusal :=
  perform gd s do
    let a ← readRegK ra k
    let b ← readK k
    writePred p (f a b)

/-- A form of major 0x04 (R130). -/
def pred2 (gd : Guard) (pd pa pb : Pred) (f : Bool → Bool → Bool) (s : State) : Host.Outcome State Fault Refusal :=
  perform gd s do
    let a ← readPred pa
    let b ← readPred pb
    writePred pd (f a b)

/-- A form of major 0x06 whose result comes with flags (R128). -/
def aluFlags (gd : Guard) (rd ra rb : Reg) (f : Word → Word → Word × Byte) (s : State) :
    Host.Outcome State Fault Refusal :=
  perform gd s do
    let a ← readReg ra
    let b ← readReg rb
    writeReg rd (f a b).1
    orFlags (f a b).2

/-- A load of entry n of the constant window, through the scoreboard (R125, R126). -/
def windowLoad (n : Nat) : M Word := do
  let bs ← tcmLoad (8 * n) 8 (8 * n)
  pure (BitVec.ofNat 64 (leNat bs))

/-- A store to entry n of the constant window (R125, R126). -/
def windowStore (n : Nat) (v : Word) : M Unit := tcmStore (8 * n) (leBytes 8 v.toNat)

/-- The field of a at p, l + 1 bits long (R127). -/
def bfxVal (a : Word) (p : BitVec 6) (l : BitVec 5) : Word := BitVec.ofNat 64 (field a.toNat p.toNat (l.toNat + 1))
/-- The same, sign-extended (R127). -/
def bfxsVal (a : Word) (p : BitVec 6) (l : BitVec 5) : Word := sextWord (l.toNat + 1) (field a.toNat p.toNat (l.toNat + 1))
/-- t with the low l + 1 bits of a put at p (R127). -/
def bfiVal (t a : Word) (p : BitVec 6) (l : BitVec 5) : Word := putField t p.toNat (l.toNat + 1) a.toNat

/-- High words of products (R128). -/
def mulhU (a b : Word) : Word := BitVec.ofNat 64 (a.toNat * b.toNat / 2 ^ 64)
def mulhS (a b : Word) : Word := BitVec.ofNat 64 (wrapInt 128 (a.toInt * b.toInt) / 2 ^ 64)


/-- ADD (R124). -/
def execAdd (gd : Guard) (rd ra rb : Reg) (s : State) : Host.Outcome State Fault Refusal :=
  alu2 gd rd ra rb ((· + ·)) s

/-- SUB (R124). -/
def execSub (gd : Guard) (rd ra rb : Reg) (s : State) : Host.Outcome State Fault Refusal :=
  alu2 gd rd ra rb ((· - ·)) s

/-- AND (R124). -/
def execAnd (gd : Guard) (rd ra rb : Reg) (s : State) : Host.Outcome State Fault Refusal :=
  alu2 gd rd ra rb ((· &&& ·)) s

/-- OR (R124). -/
def execOr (gd : Guard) (rd ra rb : Reg) (s : State) : Host.Outcome State Fault Refusal :=
  alu2 gd rd ra rb ((· ||| ·)) s

/-- XOR (R124). -/
def execXor (gd : Guard) (rd ra rb : Reg) (s : State) : Host.Outcome State Fault Refusal :=
  alu2 gd rd ra rb ((· ^^^ ·)) s

/-- ANDN (R124). -/
def execAndn (gd : Guard) (rd ra rb : Reg) (s : State) : Host.Outcome State Fault Refusal :=
  alu2 gd rd ra rb (fun a b => a &&& ~~~b) s

/-- ORN (R124). -/
def execOrn (gd : Guard) (rd ra rb : Reg) (s : State) : Host.Outcome State Fault Refusal :=
  alu2 gd rd ra rb (fun a b => a ||| ~~~b) s

/-- MIN (R124). -/
def execMin (gd : Guard) (rd ra rb : Reg) (s : State) : Host.Outcome State Fault Refusal :=
  alu2 gd rd ra rb (minU) s

/-- MAX (R124). -/
def execMax (gd : Guard) (rd ra rb : Reg) (s : State) : Host.Outcome State Fault Refusal :=
  alu2 gd rd ra rb (maxU) s

/-- MINS (R124). -/
def execMins (gd : Guard) (rd ra rb : Reg) (s : State) : Host.Outcome State Fault Refusal :=
  alu2 gd rd ra rb (minS) s

/-- MAXS (R124). -/
def execMaxs (gd : Guard) (rd ra rb : Reg) (s : State) : Host.Outcome State Fault Refusal :=
  alu2 gd rd ra rb (maxS) s

/-- SHL (R124). -/
def execShl (gd : Guard) (rd ra rb : Reg) (s : State) : Host.Outcome State Fault Refusal :=
  alu2 gd rd ra rb (shl6) s

/-- SHR (R124). -/
def execShr (gd : Guard) (rd ra rb : Reg) (s : State) : Host.Outcome State Fault Refusal :=
  alu2 gd rd ra rb (shr6) s

/-- SRA (R124). -/
def execSra (gd : Guard) (rd ra rb : Reg) (s : State) : Host.Outcome State Fault Refusal :=
  alu2 gd rd ra rb (sra6) s

/-- ROL (R124). -/
def execRol (gd : Guard) (rd ra rb : Reg) (s : State) : Host.Outcome State Fault Refusal :=
  alu2 gd rd ra rb (rol6) s

/-- ROR (R124). -/
def execRor (gd : Guard) (rd ra rb : Reg) (s : State) : Host.Outcome State Fault Refusal :=
  alu2 gd rd ra rb (ror6) s

/-- CLZ (R124). -/
def execClz (gd : Guard) (rd ra : Reg) (s : State) : Host.Outcome State Fault Refusal :=
  alu1 gd rd ra (clz) s

/-- CTZ (R124). -/
def execCtz (gd : Guard) (rd ra : Reg) (s : State) : Host.Outcome State Fault Refusal :=
  alu1 gd rd ra (ctz) s

/-- POPC (R124). -/
def execPopc (gd : Guard) (rd ra : Reg) (s : State) : Host.Outcome State Fault Refusal :=
  alu1 gd rd ra (popc) s

/-- SEXTB (R124). -/
def execSextB (gd : Guard) (rd ra : Reg) (s : State) : Host.Outcome State Fault Refusal :=
  alu1 gd rd ra (fun a => sextWord 8 a.toNat) s

/-- SEXTH (R124). -/
def execSextH (gd : Guard) (rd ra : Reg) (s : State) : Host.Outcome State Fault Refusal :=
  alu1 gd rd ra (fun a => sextWord 16 a.toNat) s

/-- SEXTW (R124). -/
def execSextW (gd : Guard) (rd ra : Reg) (s : State) : Host.Outcome State Fault Refusal :=
  alu1 gd rd ra (fun a => sextWord 32 a.toNat) s

/-- ZEXTB (R124). -/
def execZextB (gd : Guard) (rd ra : Reg) (s : State) : Host.Outcome State Fault Refusal :=
  alu1 gd rd ra (fun a => a &&& 0xFF) s

/-- ZEXTH (R124). -/
def execZextH (gd : Guard) (rd ra : Reg) (s : State) : Host.Outcome State Fault Refusal :=
  alu1 gd rd ra (fun a => a &&& 0xFFFF) s

/-- ZEXTW (R124). -/
def execZextW (gd : Guard) (rd ra : Reg) (s : State) : Host.Outcome State Fault Refusal :=
  alu1 gd rd ra (fun a => a &&& 0xFFFFFFFF) s

/-- MOV (R124). -/
def execMov (gd : Guard) (rd ra : Reg) (s : State) : Host.Outcome State Fault Refusal :=
  alu1 gd rd ra (fun a => a) s

/-- LDK (R125). It is a load of TCM, so that a poisoned entry does what R143 says: DESIGN CHOICE, unsafe, log 77. -/
def execLdk (gd : Guard) (rd ra : Reg) (s : State) : Host.Outcome State Fault Refusal :=
  perform gd s do
    let a ← readReg ra
    let v ← windowLoad (a.toNat % 256)
    writeReg rd v

/-- STK (R125). -/
def execStk (gd : Guard) (ra rb : Reg) (s : State) : Host.Outcome State Fault Refusal :=
  perform gd s do
    let a ← readReg ra
    let b ← readReg rb
    windowStore (a.toNat % 256) b

/-- SEL (R124). -/
def execSel (gd : Guard) (rd ra rb : Reg) (p : Pred) (s : State) : Host.Outcome State Fault Refusal :=
  perform gd s do
    let a ← readReg ra
    let b ← readReg rb
    let c ← readPred p
    writeReg rd (if c then a else b)

/-- NOP (R124). -/
def execNop (gd : Guard) (s : State) : Host.Outcome State Fault Refusal :=
  perform gd s (pure ())

/-- ADD with a constant-window entry (R124). -/
def execAddK (gd : Guard) (rd ra : Reg) (k : BitVec 8) (s : State) : Host.Outcome State Fault Refusal :=
  aluK gd rd ra k ((· + ·)) s

/-- SUB with a constant-window entry (R124). -/
def execSubK (gd : Guard) (rd ra : Reg) (k : BitVec 8) (s : State) : Host.Outcome State Fault Refusal :=
  aluK gd rd ra k ((· - ·)) s

/-- AND with a constant-window entry (R124). -/
def execAndK (gd : Guard) (rd ra : Reg) (k : BitVec 8) (s : State) : Host.Outcome State Fault Refusal :=
  aluK gd rd ra k ((· &&& ·)) s

/-- OR with a constant-window entry (R124). -/
def execOrK (gd : Guard) (rd ra : Reg) (k : BitVec 8) (s : State) : Host.Outcome State Fault Refusal :=
  aluK gd rd ra k ((· ||| ·)) s

/-- XOR with a constant-window entry (R124). -/
def execXorK (gd : Guard) (rd ra : Reg) (k : BitVec 8) (s : State) : Host.Outcome State Fault Refusal :=
  aluK gd rd ra k ((· ^^^ ·)) s

/-- ANDN with a constant-window entry (R124). -/
def execAndnK (gd : Guard) (rd ra : Reg) (k : BitVec 8) (s : State) : Host.Outcome State Fault Refusal :=
  aluK gd rd ra k (fun a b => a &&& ~~~b) s

/-- ORN with a constant-window entry (R124). -/
def execOrnK (gd : Guard) (rd ra : Reg) (k : BitVec 8) (s : State) : Host.Outcome State Fault Refusal :=
  aluK gd rd ra k (fun a b => a ||| ~~~b) s

/-- MIN with a constant-window entry (R124). -/
def execMinK (gd : Guard) (rd ra : Reg) (k : BitVec 8) (s : State) : Host.Outcome State Fault Refusal :=
  aluK gd rd ra k (minU) s

/-- MAX with a constant-window entry (R124). -/
def execMaxK (gd : Guard) (rd ra : Reg) (k : BitVec 8) (s : State) : Host.Outcome State Fault Refusal :=
  aluK gd rd ra k (maxU) s

/-- MINS with a constant-window entry (R124). -/
def execMinsK (gd : Guard) (rd ra : Reg) (k : BitVec 8) (s : State) : Host.Outcome State Fault Refusal :=
  aluK gd rd ra k (minS) s

/-- MAXS with a constant-window entry (R124). -/
def execMaxsK (gd : Guard) (rd ra : Reg) (k : BitVec 8) (s : State) : Host.Outcome State Fault Refusal :=
  aluK gd rd ra k (maxS) s

/-- MOV of a constant-window entry (R124). -/
def execMovK (gd : Guard) (rd : Reg) (k : BitVec 8) (s : State) : Host.Outcome State Fault Refusal :=
  perform gd s do
    let b ← readK k
    writeReg rd b

/-- STK of entry N (R125). -/
def execStkK (gd : Guard) (ra : Reg) (k : BitVec 8) (s : State) : Host.Outcome State Fault Refusal :=
  perform gd s do
    let a ← readRegK ra k
    windowStore k.toNat a

/-- cmpEq (R129). -/
def execCmpEq (gd : Guard) (p : Pred) (ra rb : Reg) (s : State) : Host.Outcome State Fault Refusal :=
  cmp2 gd p ra rb (fun a b => a == b) s

/-- cmpNe (R129). -/
def execCmpNe (gd : Guard) (p : Pred) (ra rb : Reg) (s : State) : Host.Outcome State Fault Refusal :=
  cmp2 gd p ra rb (fun a b => a != b) s

/-- cmpLt (R129). -/
def execCmpLt (gd : Guard) (p : Pred) (ra rb : Reg) (s : State) : Host.Outcome State Fault Refusal :=
  cmp2 gd p ra rb (fun a b => decide (a.toInt < b.toInt)) s

/-- cmpGe (R129). -/
def execCmpGe (gd : Guard) (p : Pred) (ra rb : Reg) (s : State) : Host.Outcome State Fault Refusal :=
  cmp2 gd p ra rb (fun a b => decide (b.toInt ≤ a.toInt)) s

/-- cmpLe (R129). -/
def execCmpLe (gd : Guard) (p : Pred) (ra rb : Reg) (s : State) : Host.Outcome State Fault Refusal :=
  cmp2 gd p ra rb (fun a b => decide (a.toInt ≤ b.toInt)) s

/-- cmpGt (R129). -/
def execCmpGt (gd : Guard) (p : Pred) (ra rb : Reg) (s : State) : Host.Outcome State Fault Refusal :=
  cmp2 gd p ra rb (fun a b => decide (b.toInt < a.toInt)) s

/-- cmpLtu (R129). -/
def execCmpLtu (gd : Guard) (p : Pred) (ra rb : Reg) (s : State) : Host.Outcome State Fault Refusal :=
  cmp2 gd p ra rb (fun a b => decide (a.toNat < b.toNat)) s

/-- cmpGeu (R129). -/
def execCmpGeu (gd : Guard) (p : Pred) (ra rb : Reg) (s : State) : Host.Outcome State Fault Refusal :=
  cmp2 gd p ra rb (fun a b => decide (b.toNat ≤ a.toNat)) s

/-- cmpLeu (R129). -/
def execCmpLeu (gd : Guard) (p : Pred) (ra rb : Reg) (s : State) : Host.Outcome State Fault Refusal :=
  cmp2 gd p ra rb (fun a b => decide (a.toNat ≤ b.toNat)) s

/-- cmpGtu (R129). -/
def execCmpGtu (gd : Guard) (p : Pred) (ra rb : Reg) (s : State) : Host.Outcome State Fault Refusal :=
  cmp2 gd p ra rb (fun a b => decide (b.toNat < a.toNat)) s

/-- tst (R129). -/
def execTst (gd : Guard) (p : Pred) (ra rb : Reg) (s : State) : Host.Outcome State Fault Refusal :=
  cmp2 gd p ra rb (fun a b => (a &&& b) != 0) s

/-- cmpEq with a constant-window entry (R129). -/
def execCmpEqK (gd : Guard) (p : Pred) (ra : Reg) (k : BitVec 8) (s : State) : Host.Outcome State Fault Refusal :=
  cmpK gd p ra k (fun a b => a == b) s

/-- cmpNe with a constant-window entry (R129). -/
def execCmpNeK (gd : Guard) (p : Pred) (ra : Reg) (k : BitVec 8) (s : State) : Host.Outcome State Fault Refusal :=
  cmpK gd p ra k (fun a b => a != b) s

/-- cmpLt with a constant-window entry (R129). -/
def execCmpLtK (gd : Guard) (p : Pred) (ra : Reg) (k : BitVec 8) (s : State) : Host.Outcome State Fault Refusal :=
  cmpK gd p ra k (fun a b => decide (a.toInt < b.toInt)) s

/-- cmpGe with a constant-window entry (R129). -/
def execCmpGeK (gd : Guard) (p : Pred) (ra : Reg) (k : BitVec 8) (s : State) : Host.Outcome State Fault Refusal :=
  cmpK gd p ra k (fun a b => decide (b.toInt ≤ a.toInt)) s

/-- cmpLe with a constant-window entry (R129). -/
def execCmpLeK (gd : Guard) (p : Pred) (ra : Reg) (k : BitVec 8) (s : State) : Host.Outcome State Fault Refusal :=
  cmpK gd p ra k (fun a b => decide (a.toInt ≤ b.toInt)) s

/-- cmpGt with a constant-window entry (R129). -/
def execCmpGtK (gd : Guard) (p : Pred) (ra : Reg) (k : BitVec 8) (s : State) : Host.Outcome State Fault Refusal :=
  cmpK gd p ra k (fun a b => decide (b.toInt < a.toInt)) s

/-- cmpLtu with a constant-window entry (R129). -/
def execCmpLtuK (gd : Guard) (p : Pred) (ra : Reg) (k : BitVec 8) (s : State) : Host.Outcome State Fault Refusal :=
  cmpK gd p ra k (fun a b => decide (a.toNat < b.toNat)) s

/-- cmpGeu with a constant-window entry (R129). -/
def execCmpGeuK (gd : Guard) (p : Pred) (ra : Reg) (k : BitVec 8) (s : State) : Host.Outcome State Fault Refusal :=
  cmpK gd p ra k (fun a b => decide (b.toNat ≤ a.toNat)) s

/-- cmpLeu with a constant-window entry (R129). -/
def execCmpLeuK (gd : Guard) (p : Pred) (ra : Reg) (k : BitVec 8) (s : State) : Host.Outcome State Fault Refusal :=
  cmpK gd p ra k (fun a b => decide (a.toNat ≤ b.toNat)) s

/-- cmpGtu with a constant-window entry (R129). -/
def execCmpGtuK (gd : Guard) (p : Pred) (ra : Reg) (k : BitVec 8) (s : State) : Host.Outcome State Fault Refusal :=
  cmpK gd p ra k (fun a b => decide (b.toNat < a.toNat)) s

/-- tst with a constant-window entry (R129). -/
def execTstK (gd : Guard) (p : Pred) (ra : Reg) (k : BitVec 8) (s : State) : Host.Outcome State Fault Refusal :=
  cmpK gd p ra k (fun a b => (a &&& b) != 0) s

/-- PAND (R130). -/
def execPand (gd : Guard) (rd ra rb : Pred) (s : State) : Host.Outcome State Fault Refusal :=
  pred2 gd rd ra rb (fun a b => a && b) s

/-- POR (R130). -/
def execPor (gd : Guard) (rd ra rb : Pred) (s : State) : Host.Outcome State Fault Refusal :=
  pred2 gd rd ra rb (fun a b => a || b) s

/-- PXOR (R130). -/
def execPxor (gd : Guard) (rd ra rb : Pred) (s : State) : Host.Outcome State Fault Refusal :=
  pred2 gd rd ra rb (fun a b => a != b) s

/-- PNOT (R130). -/
def execPnot (gd : Guard) (rd ra : Pred) (s : State) : Host.Outcome State Fault Refusal :=
  pred2 gd rd ra ra (fun a _ => !a) s

/-- PMOV (R130). -/
def execPmov (gd : Guard) (rd ra : Pred) (s : State) : Host.Outcome State Fault Refusal :=
  pred2 gd rd ra ra (fun a _ => a) s

/-- BFX (R127). -/
def execBfx (gd : Guard) (rd ra : Reg) (p : BitVec 6) (l : BitVec 5) (s : State) : Host.Outcome State Fault Refusal :=
  alu1 gd rd ra (fun a => bfxVal a p l) s

/-- BFXS (R127). -/
def execBfxs (gd : Guard) (rd ra : Reg) (p : BitVec 6) (l : BitVec 5) (s : State) : Host.Outcome State Fault Refusal :=
  alu1 gd rd ra (fun a => bfxsVal a p l) s

/-- BFI (R127). -/
def execBfi (gd : Guard) (rd ra : Reg) (p : BitVec 6) (l : BitVec 5) (s : State) : Host.Outcome State Fault Refusal :=
  perform gd s do
    let t ← readReg rd
    let a ← readReg ra
    writeReg rd (bfiVal t a p l)

/-- SHL by an amount (R127). -/
def execShlImm (gd : Guard) (rd ra : Reg) (n : BitVec 6) (s : State) : Host.Outcome State Fault Refusal :=
  alu1 gd rd ra (fun a => shl6 a (BitVec.ofNat 64 n.toNat)) s

/-- SHR by an amount (R127). -/
def execShrImm (gd : Guard) (rd ra : Reg) (n : BitVec 6) (s : State) : Host.Outcome State Fault Refusal :=
  alu1 gd rd ra (fun a => shr6 a (BitVec.ofNat 64 n.toNat)) s

/-- SRA by an amount (R127). -/
def execSraImm (gd : Guard) (rd ra : Reg) (n : BitVec 6) (s : State) : Host.Outcome State Fault Refusal :=
  alu1 gd rd ra (fun a => sra6 a (BitVec.ofNat 64 n.toNat)) s

/-- ROL by an amount (R127). -/
def execRolImm (gd : Guard) (rd ra : Reg) (n : BitVec 6) (s : State) : Host.Outcome State Fault Refusal :=
  alu1 gd rd ra (fun a => rol6 a (BitVec.ofNat 64 n.toNat)) s

/-- ROR by an amount (R127). -/
def execRorImm (gd : Guard) (rd ra : Reg) (n : BitVec 6) (s : State) : Host.Outcome State Fault Refusal :=
  alu1 gd rd ra (fun a => ror6 a (BitVec.ofNat 64 n.toNat)) s

/-- MUL (R128). -/
def execMul (gd : Guard) (rd ra rb : Reg) (s : State) : Host.Outcome State Fault Refusal :=
  alu2 gd rd ra rb ((· * ·)) s

/-- MULH (R128). -/
def execMulh (gd : Guard) (rd ra rb : Reg) (s : State) : Host.Outcome State Fault Refusal :=
  alu2 gd rd ra rb (mulhU) s

/-- MULHS (R128). -/
def execMulhs (gd : Guard) (rd ra rb : Reg) (s : State) : Host.Outcome State Fault Refusal :=
  alu2 gd rd ra rb (mulhS) s

/-- DIV (R128). -/
def execDiv (gd : Guard) (rd ra rb : Reg) (s : State) : Host.Outcome State Fault Refusal :=
  aluFlags gd rd ra rb divU s

/-- DIVS (R128). -/
def execDivs (gd : Guard) (rd ra rb : Reg) (s : State) : Host.Outcome State Fault Refusal :=
  aluFlags gd rd ra rb divS s

/-- REM (R128). -/
def execRem (gd : Guard) (rd ra rb : Reg) (s : State) : Host.Outcome State Fault Refusal :=
  aluFlags gd rd ra rb remU s

/-- REMS (R128). -/
def execRems (gd : Guard) (rd ra rb : Reg) (s : State) : Host.Outcome State Fault Refusal :=
  aluFlags gd rd ra rb remS s

end Sys2Proof.Machine
end

