-- ==== Sys2Proof/Machine/Dispatch.lean ====
section
/-! DEFINITION. `exec`: the meaning of each row of the opcode table, one arm per constructor. -/

namespace Sys2Proof.Machine

def exec (i : Instr) (s : State) : Host.Outcome State Fault Refusal :=
  match i with
  | .add gd rd ra rb => Sys2Proof.Machine.execAdd gd rd ra rb s
  | .sub gd rd ra rb => Sys2Proof.Machine.execSub gd rd ra rb s
  | .and gd rd ra rb => Sys2Proof.Machine.execAnd gd rd ra rb s
  | .or gd rd ra rb => Sys2Proof.Machine.execOr gd rd ra rb s
  | .xor gd rd ra rb => Sys2Proof.Machine.execXor gd rd ra rb s
  | .andn gd rd ra rb => Sys2Proof.Machine.execAndn gd rd ra rb s
  | .orn gd rd ra rb => Sys2Proof.Machine.execOrn gd rd ra rb s
  | .min gd rd ra rb => Sys2Proof.Machine.execMin gd rd ra rb s
  | .max gd rd ra rb => Sys2Proof.Machine.execMax gd rd ra rb s
  | .mins gd rd ra rb => Sys2Proof.Machine.execMins gd rd ra rb s
  | .maxs gd rd ra rb => Sys2Proof.Machine.execMaxs gd rd ra rb s
  | .shl gd rd ra rb => Sys2Proof.Machine.execShl gd rd ra rb s
  | .shr gd rd ra rb => Sys2Proof.Machine.execShr gd rd ra rb s
  | .sra gd rd ra rb => Sys2Proof.Machine.execSra gd rd ra rb s
  | .rol gd rd ra rb => Sys2Proof.Machine.execRol gd rd ra rb s
  | .ror gd rd ra rb => Sys2Proof.Machine.execRor gd rd ra rb s
  | .clz gd rd ra => Sys2Proof.Machine.execClz gd rd ra s
  | .ctz gd rd ra => Sys2Proof.Machine.execCtz gd rd ra s
  | .popc gd rd ra => Sys2Proof.Machine.execPopc gd rd ra s
  | .sextB gd rd ra => Sys2Proof.Machine.execSextB gd rd ra s
  | .sextH gd rd ra => Sys2Proof.Machine.execSextH gd rd ra s
  | .sextW gd rd ra => Sys2Proof.Machine.execSextW gd rd ra s
  | .zextB gd rd ra => Sys2Proof.Machine.execZextB gd rd ra s
  | .zextH gd rd ra => Sys2Proof.Machine.execZextH gd rd ra s
  | .zextW gd rd ra => Sys2Proof.Machine.execZextW gd rd ra s
  | .mov gd rd ra => Sys2Proof.Machine.execMov gd rd ra s
  | .ldk gd rd ra => Sys2Proof.Machine.execLdk gd rd ra s
  | .stk gd ra rb => Sys2Proof.Machine.execStk gd ra rb s
  | .sel gd rd ra rb p => Sys2Proof.Machine.execSel gd rd ra rb p s
  | .nop gd => Sys2Proof.Machine.execNop gd s
  | .addK gd rd ra k => Sys2Proof.Machine.execAddK gd rd ra k s
  | .subK gd rd ra k => Sys2Proof.Machine.execSubK gd rd ra k s
  | .andK gd rd ra k => Sys2Proof.Machine.execAndK gd rd ra k s
  | .orK gd rd ra k => Sys2Proof.Machine.execOrK gd rd ra k s
  | .xorK gd rd ra k => Sys2Proof.Machine.execXorK gd rd ra k s
  | .andnK gd rd ra k => Sys2Proof.Machine.execAndnK gd rd ra k s
  | .ornK gd rd ra k => Sys2Proof.Machine.execOrnK gd rd ra k s
  | .minK gd rd ra k => Sys2Proof.Machine.execMinK gd rd ra k s
  | .maxK gd rd ra k => Sys2Proof.Machine.execMaxK gd rd ra k s
  | .minsK gd rd ra k => Sys2Proof.Machine.execMinsK gd rd ra k s
  | .maxsK gd rd ra k => Sys2Proof.Machine.execMaxsK gd rd ra k s
  | .movK gd rd k => Sys2Proof.Machine.execMovK gd rd k s
  | .stkK gd ra k => Sys2Proof.Machine.execStkK gd ra k s
  | .cmpEq gd p ra rb => Sys2Proof.Machine.execCmpEq gd p ra rb s
  | .cmpNe gd p ra rb => Sys2Proof.Machine.execCmpNe gd p ra rb s
  | .cmpLt gd p ra rb => Sys2Proof.Machine.execCmpLt gd p ra rb s
  | .cmpGe gd p ra rb => Sys2Proof.Machine.execCmpGe gd p ra rb s
  | .cmpLe gd p ra rb => Sys2Proof.Machine.execCmpLe gd p ra rb s
  | .cmpGt gd p ra rb => Sys2Proof.Machine.execCmpGt gd p ra rb s
  | .cmpLtu gd p ra rb => Sys2Proof.Machine.execCmpLtu gd p ra rb s
  | .cmpGeu gd p ra rb => Sys2Proof.Machine.execCmpGeu gd p ra rb s
  | .cmpLeu gd p ra rb => Sys2Proof.Machine.execCmpLeu gd p ra rb s
  | .cmpGtu gd p ra rb => Sys2Proof.Machine.execCmpGtu gd p ra rb s
  | .tst gd p ra rb => Sys2Proof.Machine.execTst gd p ra rb s
  | .cmpEqK gd p ra k => Sys2Proof.Machine.execCmpEqK gd p ra k s
  | .cmpNeK gd p ra k => Sys2Proof.Machine.execCmpNeK gd p ra k s
  | .cmpLtK gd p ra k => Sys2Proof.Machine.execCmpLtK gd p ra k s
  | .cmpGeK gd p ra k => Sys2Proof.Machine.execCmpGeK gd p ra k s
  | .cmpLeK gd p ra k => Sys2Proof.Machine.execCmpLeK gd p ra k s
  | .cmpGtK gd p ra k => Sys2Proof.Machine.execCmpGtK gd p ra k s
  | .cmpLtuK gd p ra k => Sys2Proof.Machine.execCmpLtuK gd p ra k s
  | .cmpGeuK gd p ra k => Sys2Proof.Machine.execCmpGeuK gd p ra k s
  | .cmpLeuK gd p ra k => Sys2Proof.Machine.execCmpLeuK gd p ra k s
  | .cmpGtuK gd p ra k => Sys2Proof.Machine.execCmpGtuK gd p ra k s
  | .tstK gd p ra k => Sys2Proof.Machine.execTstK gd p ra k s
  | .pand gd rd ra rb => Sys2Proof.Machine.execPand gd rd ra rb s
  | .por gd rd ra rb => Sys2Proof.Machine.execPor gd rd ra rb s
  | .pxor gd rd ra rb => Sys2Proof.Machine.execPxor gd rd ra rb s
  | .pnot gd rd ra => Sys2Proof.Machine.execPnot gd rd ra s
  | .pmov gd rd ra => Sys2Proof.Machine.execPmov gd rd ra s
  | .bfx gd rd ra p l => Sys2Proof.Machine.execBfx gd rd ra p l s
  | .bfxs gd rd ra p l => Sys2Proof.Machine.execBfxs gd rd ra p l s
  | .bfi gd rd ra p l => Sys2Proof.Machine.execBfi gd rd ra p l s
  | .shlImm gd rd ra n => Sys2Proof.Machine.execShlImm gd rd ra n s
  | .shrImm gd rd ra n => Sys2Proof.Machine.execShrImm gd rd ra n s
  | .sraImm gd rd ra n => Sys2Proof.Machine.execSraImm gd rd ra n s
  | .rolImm gd rd ra n => Sys2Proof.Machine.execRolImm gd rd ra n s
  | .rorImm gd rd ra n => Sys2Proof.Machine.execRorImm gd rd ra n s
  | .mul gd rd ra rb => Sys2Proof.Machine.execMul gd rd ra rb s
  | .mulh gd rd ra rb => Sys2Proof.Machine.execMulh gd rd ra rb s
  | .mulhs gd rd ra rb => Sys2Proof.Machine.execMulhs gd rd ra rb s
  | .div gd rd ra rb => Sys2Proof.Machine.execDiv gd rd ra rb s
  | .divs gd rd ra rb => Sys2Proof.Machine.execDivs gd rd ra rb s
  | .rem gd rd ra rb => Sys2Proof.Machine.execRem gd rd ra rb s
  | .rems gd rd ra rb => Sys2Proof.Machine.execRems gd rd ra rb s
  | .br gd rd => Sys2Proof.Machine.execBr gd rd s
  | .call gd rd => Sys2Proof.Machine.execCall gd rd s
  | .jmp gd ra => Sys2Proof.Machine.execJmp gd ra s
  | .ret gd => Sys2Proof.Machine.execRet gd s
  | .loop gd ra rd => Sys2Proof.Machine.execLoop gd ra rd s
  | .ld gd rd ra sg k sz => Sys2Proof.Machine.execLd gd rd ra sg k sz s
  | .st gd rd ra sg k sz => Sys2Proof.Machine.execSt gd rd ra sg k sz s
  | .lds gd rd ra sg rb sz => Sys2Proof.Machine.execLds gd rd ra sg rb sz s
  | .ldRr gd rd ra sg rb sz => Sys2Proof.Machine.execLdRr gd rd ra sg rb sz s
  | .stRr gd rd ra sg rb sz => Sys2Proof.Machine.execStRr gd rd ra sg rb sz s
  | .ldp gd rd ra sg rb => Sys2Proof.Machine.execLdp gd rd ra sg rb s
  | .stp gd rd ra sg rb => Sys2Proof.Machine.execStp gd rd ra sg rb s
  | .rsv gd rd ra sg rb sz => Sys2Proof.Machine.execRsv gd rd ra sg rb sz s
  | .rls gd rd ra sg rb sz => Sys2Proof.Machine.execRls gd rd ra sg rb sz s
  | .rlsx gd ra sg rb sz => Sys2Proof.Machine.execRlsx gd ra sg rb sz s
  | .logAdd gd rd ra sg rb sz => Sys2Proof.Machine.execLogAdd gd rd ra sg rb sz s
  | .logFadd gd rd ra sg rb => Sys2Proof.Machine.execLogFadd gd rd ra sg rb s
  | .logMin gd rd ra sg rb sz => Sys2Proof.Machine.execLogMin gd rd ra sg rb sz s
  | .logMax gd rd ra sg rb sz => Sys2Proof.Machine.execLogMax gd rd ra sg rb sz s
  | .logOr gd rd ra sg rb sz => Sys2Proof.Machine.execLogOr gd rd ra sg rb sz s
  | .fenceAcq gd sc => Sys2Proof.Machine.execFenceAcq gd sc s
  | .fenceRel gd sc => Sys2Proof.Machine.execFenceRel gd sc s
  | .fenceFull gd sc => Sys2Proof.Machine.execFenceFull gd sc s
  | .ldAcqW gd rd ra sc sg => Sys2Proof.Machine.execLdAcqW gd rd ra sc sg s
  | .ldAcqD gd rd ra sc sg => Sys2Proof.Machine.execLdAcqD gd rd ra sc sg s
  | .stRelW gd rd ra sc sg => Sys2Proof.Machine.execStRelW gd rd ra sc sg s
  | .stRelD gd rd ra sc sg => Sys2Proof.Machine.execStRelD gd rd ra sc sg s
  | .seal gd ra sc rb => Sys2Proof.Machine.execSeal gd ra sc rb s
  | .unseal gd rd ra sc => Sys2Proof.Machine.execUnseal gd rd ra sc s
  | .pref gd ra sg => Sys2Proof.Machine.execPref gd ra sg s
  | .cwb gd ra sg => Sys2Proof.Machine.execCwb gd ra sg s
  | .cdrop gd ra sg => Sys2Proof.Machine.execCdrop gd ra sg s
  | .scbWait gd ra rb => Sys2Proof.Machine.execScbWait gd ra rb s
  | .segLd gd rd ra => Sys2Proof.Machine.execSegLd gd rd ra s
  | .segNarrow gd rd ra rb => Sys2Proof.Machine.execSegNarrow gd rd ra rb s
  | .segGive gd rd ra sc => Sys2Proof.Machine.execSegGive gd rd ra sc s
  | .segTake gd rd ra => Sys2Proof.Machine.execSegTake gd rd ra s
  | .ldx gd rd ra rb sp sz => Sys2Proof.Machine.execLdx gd rd ra rb sp sz s
  | .stx gd rd ra rb sp sz => Sys2Proof.Machine.execStx gd rd ra rb sp sz s
  | .stxN4 gd rd ra rb sp => Sys2Proof.Machine.execStxN4 gd rd ra rb sp s
  | .objInit gd ra sc rb => Sys2Proof.Machine.execObjInit gd ra sc rb s
  | .objFree gd ra sc => Sys2Proof.Machine.execObjFree gd ra sc s
  | .objRead gd rd ra sc => Sys2Proof.Machine.execObjRead gd rd ra sc s
  | .cntAdd gd rd ra sc rb => Sys2Proof.Machine.execCntAdd gd rd ra sc rb s
  | .cntSwap gd rd ra sc rb => Sys2Proof.Machine.execCntSwap gd rd ra sc rb s
  | .cntCas gd rd ra sc rb => Sys2Proof.Machine.execCntCas gd rd ra sc rb s
  | .cntWaitge gd rd ra sc rb => Sys2Proof.Machine.execCntWaitge gd rd ra sc rb s
  | .cntWaiteq gd rd ra sc rb => Sys2Proof.Machine.execCntWaiteq gd rd ra sc rb s
  | .barArrive gd rd ra sc => Sys2Proof.Machine.execBarArrive gd rd ra sc s
  | .barWait gd ra sc rb => Sys2Proof.Machine.execBarWait gd ra sc rb s
  | .barSync gd rd ra sc => Sys2Proof.Machine.execBarSync gd rd ra sc s
  | .tktAcq gd rd ra sc => Sys2Proof.Machine.execTktAcq gd rd ra sc s
  | .tktTry gd rd ra sc => Sys2Proof.Machine.execTktTry gd rd ra sc s
  | .tktRel gd ra sc => Sys2Proof.Machine.execTktRel gd ra sc s
  | .cndWait gd ra sc rb => Sys2Proof.Machine.execCndWait gd ra sc rb s
  | .cndSig gd ra sc => Sys2Proof.Machine.execCndSig gd ra sc s
  | .cndBcast gd ra sc => Sys2Proof.Machine.execCndBcast gd ra sc s
  | .qPut gd ra sc rb => Sys2Proof.Machine.execQPut gd ra sc rb s
  | .qGet gd rd ra sc rb => Sys2Proof.Machine.execQGet gd rd ra sc rb s
  | .qTryput gd rd ra sc rb => Sys2Proof.Machine.execQTryput gd rd ra sc rb s
  | .qTryget gd rd ra sc rb => Sys2Proof.Machine.execQTryget gd rd ra sc rb s
  | .vadd gd rd ra rb l => Sys2Proof.Machine.execVadd gd rd ra rb l s
  | .vsub gd rd ra rb l => Sys2Proof.Machine.execVsub gd rd ra rb l s
  | .vadds gd rd ra rb l => Sys2Proof.Machine.execVadds gd rd ra rb l s
  | .vsubs gd rd ra rb l => Sys2Proof.Machine.execVsubs gd rd ra rb l s
  | .vmul gd rd ra rb l => Sys2Proof.Machine.execVmul gd rd ra rb l s
  | .vmulh gd rd ra rb l => Sys2Proof.Machine.execVmulh gd rd ra rb l s
  | .vmac gd rd ra rb l => Sys2Proof.Machine.execVmac gd rd ra rb l s
  | .vdot4 gd rd ra rb => Sys2Proof.Machine.execVdot4 gd rd ra rb s
  | .vmin gd rd ra rb l => Sys2Proof.Machine.execVmin gd rd ra rb l s
  | .vmax gd rd ra rb l => Sys2Proof.Machine.execVmax gd rd ra rb l s
  | .vabs gd rd ra l => Sys2Proof.Machine.execVabs gd rd ra l s
  | .vavg gd rd ra rb l => Sys2Proof.Machine.execVavg gd rd ra rb l s
  | .vshl gd rd ra rb l => Sys2Proof.Machine.execVshl gd rd ra rb l s
  | .vshr gd rd ra rb l => Sys2Proof.Machine.execVshr gd rd ra rb l s
  | .vsra gd rd ra rb l => Sys2Proof.Machine.execVsra gd rd ra rb l s
  | .vcmpEq gd rd ra rb l => Sys2Proof.Machine.execVcmpEq gd rd ra rb l s
  | .vcmpNe gd rd ra rb l => Sys2Proof.Machine.execVcmpNe gd rd ra rb l s
  | .vcmpLt gd rd ra rb l => Sys2Proof.Machine.execVcmpLt gd rd ra rb l s
  | .vcmpGe gd rd ra rb l => Sys2Proof.Machine.execVcmpGe gd rd ra rb l s
  | .vcmpLtu gd rd ra rb l => Sys2Proof.Machine.execVcmpLtu gd rd ra rb l s
  | .vcmpGeu gd rd ra rb l => Sys2Proof.Machine.execVcmpGeu gd rd ra rb l s
  | .vsel gd rd ra rb l => Sys2Proof.Machine.execVsel gd rd ra rb l s
  | .vfadd gd rd ra rb l => Sys2Proof.Machine.execVfadd gd rd ra rb l s
  | .vfmul gd rd ra rb l => Sys2Proof.Machine.execVfmul gd rd ra rb l s
  | .vfma gd rd ra rb l => Sys2Proof.Machine.execVfma gd rd ra rb l s
  | .vfmin gd rd ra rb l => Sys2Proof.Machine.execVfmin gd rd ra rb l s
  | .vfmax gd rd ra rb l => Sys2Proof.Machine.execVfmax gd rd ra rb l s
  | .vfcmpEq gd rd ra rb l => Sys2Proof.Machine.execVfcmpEq gd rd ra rb l s
  | .vfcmpLt gd rd ra rb l => Sys2Proof.Machine.execVfcmpLt gd rd ra rb l s
  | .vfcmpLe gd rd ra rb l => Sys2Proof.Machine.execVfcmpLe gd rd ra rb l s
  | .vfcmpUn gd rd ra rb l => Sys2Proof.Machine.execVfcmpUn gd rd ra rb l s
  | .vshuf gd rd ra rb l => Sys2Proof.Machine.execVshuf gd rd ra rb l s
  | .vbcast gd rd ra rb l => Sys2Proof.Machine.execVbcast gd rd ra rb l s
  | .vrev gd rd ra l => Sys2Proof.Machine.execVrev gd rd ra l s
  | .vpack gd rd ra rb l => Sys2Proof.Machine.execVpack gd rd ra rb l s
  | .vunpk gd rd ra l => Sys2Proof.Machine.execVunpk gd rd ra l s
  | .vcvt gd rd ra x y => Sys2Proof.Machine.execVcvt gd rd ra x y s
  | .vf4blk gd rd ra rb y => Sys2Proof.Machine.execVf4blk gd rd ra rb y s
  | .vsum gd rd ra y => Sys2Proof.Machine.execVsum gd rd ra y s
  | .fdiv gd rd ra rb => Sys2Proof.Machine.execFdiv gd rd ra rb s
  | .fsqrt gd rd ra => Sys2Proof.Machine.execFsqrt gd rd ra s
  | .frcp gd rd ra => Sys2Proof.Machine.execFrcp gd rd ra s
  | .frsq gd rd ra => Sys2Proof.Machine.execFrsq gd rd ra s
  | .fexp2 gd rd ra => Sys2Proof.Machine.execFexp2 gd rd ra s
  | .flog2 gd rd ra => Sys2Proof.Machine.execFlog2 gd rd ra s
  | .fsin gd rd ra => Sys2Proof.Machine.execFsin gd rd ra s
  | .fcos gd rd ra => Sys2Proof.Machine.execFcos gd rd ra s
  | .ftanh gd rd ra => Sys2Proof.Machine.execFtanh gd rd ra s
  | .fadd gd rd ra rb => Sys2Proof.Machine.execFadd gd rd ra rb s
  | .fsub gd rd ra rb => Sys2Proof.Machine.execFsub gd rd ra rb s
  | .fmul gd rd ra rb => Sys2Proof.Machine.execFmul gd rd ra rb s
  | .fma gd rd ra rb => Sys2Proof.Machine.execFma gd rd ra rb s
  | .fmin gd rd ra rb => Sys2Proof.Machine.execFmin gd rd ra rb s
  | .fmax gd rd ra rb => Sys2Proof.Machine.execFmax gd rd ra rb s
  | .fneg gd rd ra => Sys2Proof.Machine.execFneg gd rd ra s
  | .fabs gd rd ra => Sys2Proof.Machine.execFabs gd rd ra s
  | .fcmpEq gd rd ra rb => Sys2Proof.Machine.execFcmpEq gd rd ra rb s
  | .fcmpLt gd rd ra rb => Sys2Proof.Machine.execFcmpLt gd rd ra rb s
  | .fcmpLe gd rd ra rb => Sys2Proof.Machine.execFcmpLe gd rd ra rb s
  | .fcmpUn gd rd ra rb => Sys2Proof.Machine.execFcmpUn gd rd ra rb s
  | .fcvtSL gd rd ra => Sys2Proof.Machine.execFcvtSL gd rd ra s
  | .fcvtLS gd rd ra => Sys2Proof.Machine.execFcvtLS gd rd ra s
  | .fcvtSLu gd rd ra => Sys2Proof.Machine.execFcvtSLu gd rd ra s
  | .fcvtLuS gd rd ra => Sys2Proof.Machine.execFcvtLuS gd rd ra s
  | .fcvtSHf gd rd ra => Sys2Proof.Machine.execFcvtSHf gd rd ra s
  | .fcvtHfS gd rd ra => Sys2Proof.Machine.execFcvtHfS gd rd ra s
  | .fcvtSBh gd rd ra => Sys2Proof.Machine.execFcvtSBh gd rd ra s
  | .fcvtBhS gd rd ra => Sys2Proof.Machine.execFcvtBhS gd rd ra s
  | .qmake gd rd ra rb => Sys2Proof.Machine.execQmake gd rd ra rb s
  | .qnum gd rd ra => Sys2Proof.Machine.execQnum gd rd ra s
  | .qden gd rd ra => Sys2Proof.Machine.execQden gd rd ra s
  | .qmed gd rd ra rb => Sys2Proof.Machine.execQmed gd rd ra rb s
  | .qcf gd rd ra rb => Sys2Proof.Machine.execQcf gd rd ra rb s
  | .qlim gd rd ra rb => Sys2Proof.Machine.execQlim gd rd ra rb s
  | .qcanon gd rd ra => Sys2Proof.Machine.execQcanon gd rd ra s
  | .qcvtF gd rd ra => Sys2Proof.Machine.execQcvtF gd rd ra s
  | .qcvtI gd rd ra => Sys2Proof.Machine.execQcvtI gd rd ra s
  | .qclass gd rd ra => Sys2Proof.Machine.execQclass gd rd ra s
  | .gcd gd rd ra rb => Sys2Proof.Machine.execGcd gd rd ra rb s
  | .qsetm gd ra => Sys2Proof.Machine.execQsetm gd ra s
  | .issueMx gd rd ra => Sys2Proof.Machine.execIssueMx gd rd ra s
  | .issueMxSync gd rd ra => Sys2Proof.Machine.execIssueMxSync gd rd ra s
  | .issueQd gd rd ra => Sys2Proof.Machine.execIssueQd gd rd ra s
  | .issueQdSync gd rd ra => Sys2Proof.Machine.execIssueQdSync gd rd ra s
  | .issueCp gd rd ra => Sys2Proof.Machine.execIssueCp gd rd ra s
  | .issueCpSync gd rd ra => Sys2Proof.Machine.execIssueCpSync gd rd ra s
  | .issueCl gd rd ra => Sys2Proof.Machine.execIssueCl gd rd ra s
  | .issueClSync gd rd ra => Sys2Proof.Machine.execIssueClSync gd rd ra s
  | .waitj gd ra => Sys2Proof.Machine.execWaitj gd ra s
  | .pollj gd rd ra => Sys2Proof.Machine.execPollj gd rd ra s
  | .jdrop gd ra => Sys2Proof.Machine.execJdrop gd ra s
  | .fmtLd gd ra => Sys2Proof.Machine.execFmtLd gd ra s
  | .spawn gd rd ra rb => Sys2Proof.Machine.execSpawn gd rd ra rb s
  | .migr gd ra => Sys2Proof.Machine.execMigr gd ra s
  | .exit gd => Sys2Proof.Machine.execExit gd s
  | .yield gd => Sys2Proof.Machine.execYield gd s
  | .lnch gd rd ra rb => Sys2Proof.Machine.execLnch gd rd ra rb s
  | .gang2 gd => Sys2Proof.Machine.execGang2 gd s
  | .gang4 gd => Sys2Proof.Machine.execGang4 gd s
  | .gang8 gd => Sys2Proof.Machine.execGang8 gd s
  | .ungang gd => Sys2Proof.Machine.execUngang gd s
  | .amSend gd ra rb => Sys2Proof.Machine.execAmSend gd ra rb s
  | .gstore gd ra rb => Sys2Proof.Machine.execGstore gd ra rb s
  | .probeStart gd ra => Sys2Proof.Machine.execProbeStart gd ra s
  | .nAlloc gd rd ra => Sys2Proof.Machine.execNAlloc gd rd ra s
  | .nFree gd ra => Sys2Proof.Machine.execNFree gd ra s
  | .nLink gd ra rb => Sys2Proof.Machine.execNLink gd ra rb s
  | .nRelink gd rd ra rb => Sys2Proof.Machine.execNRelink gd rd ra rb s
  | .nRead gd rd ra => Sys2Proof.Machine.execNRead gd rd ra s
  | .pairPop gd rd => Sys2Proof.Machine.execPairPop gd rd s
  | .pairPush gd ra rb => Sys2Proof.Machine.execPairPush gd ra rb s
  | .ruleLd gd ra => Sys2Proof.Machine.execRuleLd gd ra s
  | .ruleGo gd ra => Sys2Proof.Machine.execRuleGo gd ra s
  | .srd gd x n => Sys2Proof.Machine.execSrd gd x n s
  | .swr gd x n => Sys2Proof.Machine.execSwr gd x n s
  | .trap gd n => Sys2Proof.Machine.execTrap gd n s
  | .eret gd => Sys2Proof.Machine.execEret gd s
  | .brk gd => Sys2Proof.Machine.execBrk gd s
  | .watch gd ra rb => Sys2Proof.Machine.execWatch gd ra rb s
  | .chorusMark gd ra => Sys2Proof.Machine.execChorusMark gd ra s
  | .traceMark gd ra => Sys2Proof.Machine.execTraceMark gd ra s
  | .tadpoleBinding => Sys2Proof.Machine.execTadpoleBinding s
  | .quantumExpiry => Sys2Proof.Machine.execQuantumExpiry s
  | .replyArrival => Sys2Proof.Machine.execReplyArrival s
  | .icacheLineArrival => Sys2Proof.Machine.execIcacheLineArrival s
  | .sfuOperationFinish => Sys2Proof.Machine.execSfuOperationFinish s
  | .hardwareMigration => Sys2Proof.Machine.execHardwareMigration s
  | .migrationDeparture => Sys2Proof.Machine.execMigrationDeparture s
  | .migrRetry => Sys2Proof.Machine.execMigrRetry s
  | .tadpoleArrival => Sys2Proof.Machine.execTadpoleArrival s
  | .wake => Sys2Proof.Machine.execWake s
  | .gangFormationTimeout => Sys2Proof.Machine.execGangFormationTimeout s
  | .tlbWalkCompletion => Sys2Proof.Machine.execTlbWalkCompletion s
  | .l1Fill => Sys2Proof.Machine.execL1Fill s
  | .writeBackAtHome => Sys2Proof.Machine.execWriteBackAtHome s
  | .sliceRequest => Sys2Proof.Machine.execSliceRequest s
  | .hbmAccessCompletion => Sys2Proof.Machine.execHbmAccessCompletion s
  | .eftOperation => Sys2Proof.Machine.execEftOperation s
  | .reservationRevocation => Sys2Proof.Machine.execReservationRevocation s
  | .overflowChainRead => Sys2Proof.Machine.execOverflowChainRead s
  | .omegaCombine => Sys2Proof.Machine.execOmegaCombine s
  | .logAppendArrival => Sys2Proof.Machine.execLogAppendArrival s
  | .logAreaFullTimeout => Sys2Proof.Machine.execLogAreaFullTimeout s
  | .pairCheck => Sys2Proof.Machine.execPairCheck s
  | .accessCounterHalving => Sys2Proof.Machine.execAccessCounterHalving s
  | .faultRecordDeferred => Sys2Proof.Machine.execFaultRecordDeferred s
  | .engineSelection => Sys2Proof.Machine.execEngineSelection s
  | .quadSignal => Sys2Proof.Machine.execQuadSignal s
  | .mmaF4 => Sys2Proof.Machine.execMmaF4 s
  | .mmaBf => Sys2Proof.Machine.execMmaBf s
  | .mmaH => Sys2Proof.Machine.execMmaH s
  | .accZero => Sys2Proof.Machine.execAccZero s
  | .accDrain => Sys2Proof.Machine.execAccDrain s
  | .fmtSet => Sys2Proof.Machine.execFmtSet s
  | .qmma => Sys2Proof.Machine.execQmma s
  | .cp1d => Sys2Proof.Machine.execCp1d s
  | .cp2d => Sys2Proof.Machine.execCp2d s
  | .cpGather => Sys2Proof.Machine.execCpGather s
  | .cpScatter => Sys2Proof.Machine.execCpScatter s
  | .cpFill => Sys2Proof.Machine.execCpFill s
  | .cpSignal => Sys2Proof.Machine.execCpSignal s
  | .copyUnit => Sys2Proof.Machine.execCopyUnit s
  | .jobCompletion => Sys2Proof.Machine.execJobCompletion s
  | .clReduce => Sys2Proof.Machine.execClReduce s
  | .clBcast => Sys2Proof.Machine.execClBcast s
  | .clAllreduce => Sys2Proof.Machine.execClAllreduce s
  | .clChunk => Sys2Proof.Machine.execClChunk s
  | .groupContribution => Sys2Proof.Machine.execGroupContribution s
  | .groupDelivery => Sys2Proof.Machine.execGroupDelivery s
  | .packetArrival => Sys2Proof.Machine.execPacketArrival s
  | .packetGrant => Sys2Proof.Machine.execPacketGrant s
  | .packetPromotion => Sys2Proof.Machine.execPacketPromotion s
  | .messageArrival => Sys2Proof.Machine.execMessageArrival s
  | .messageRetry => Sys2Proof.Machine.execMessageRetry s
  | .streamMessageMove => Sys2Proof.Machine.execStreamMessageMove s
  | .handlerStart => Sys2Proof.Machine.execHandlerStart s
  | .remoteAccessService => Sys2Proof.Machine.execRemoteAccessService s
  | .probeToken => Sys2Proof.Machine.execProbeToken s
  | .phaseEnd => Sys2Proof.Machine.execPhaseEnd s
  | .fabricPacketArrival => Sys2Proof.Machine.execFabricPacketArrival s
  | .endToEndAcknowledgement => Sys2Proof.Machine.execEndToEndAcknowledgement s
  | .linkResend => Sys2Proof.Machine.execLinkResend s
  | .portDown => Sys2Proof.Machine.execPortDown s
  | .linkTraining => Sys2Proof.Machine.execLinkTraining s
  | .dependenceMet => Sys2Proof.Machine.execDependenceMet s
  | .headBlocking => Sys2Proof.Machine.execHeadBlocking s
  | .pondPlacement => Sys2Proof.Machine.execPondPlacement s
  | .pondEnd => Sys2Proof.Machine.execPondEnd s
  | .queueSet => Sys2Proof.Machine.execQueueSet s
  | .sliceSet => Sys2Proof.Machine.execSliceSet s
  | .asidSet => Sys2Proof.Machine.execAsidSet s
  | .taskSet => Sys2Proof.Machine.execTaskSet s
  | .keyLoadData => Sys2Proof.Machine.execKeyLoadData s
  | .keyLoadTweak => Sys2Proof.Machine.execKeyLoadTweak s
  | .routeSet => Sys2Proof.Machine.execRouteSet s
  | .groupSetWrite => Sys2Proof.Machine.execGroupSetWrite s
  | .groupSetRetire => Sys2Proof.Machine.execGroupSetRetire s
  | .fqSet => Sys2Proof.Machine.execFqSet s
  | .faultAnswerReissue => Sys2Proof.Machine.execFaultAnswerReissue s
  | .faultAnswerDeliver => Sys2Proof.Machine.execFaultAnswerDeliver s
  | .shootdown => Sys2Proof.Machine.execShootdown s
  | .shootdownCluster => Sys2Proof.Machine.execShootdownCluster s
  | .moveStart => Sys2Proof.Machine.execMoveStart s
  | .movePass => Sys2Proof.Machine.execMovePass s
  | .moveEnd => Sys2Proof.Machine.execMoveEnd s
  | .preempt => Sys2Proof.Machine.execPreempt s
  | .resume => Sys2Proof.Machine.execResume s
  | .debugSet => Sys2Proof.Machine.execDebugSet s
  | .dump => Sys2Proof.Machine.execDump s
  | .powerOperatingPoint => Sys2Proof.Machine.execPowerOperatingPoint s
  | .powerCluster => Sys2Proof.Machine.execPowerCluster s
  | .powerHbmRefresh => Sys2Proof.Machine.execPowerHbmRefresh s
  | .powerLinkWidth => Sys2Proof.Machine.execPowerLinkWidth s
  | .withdraw => Sys2Proof.Machine.execWithdraw s
  | .cntRead => Sys2Proof.Machine.execCntRead s
  | .launch => Sys2Proof.Machine.execLaunch s
  | .attest => Sys2Proof.Machine.execAttest s
  | .objSet => Sys2Proof.Machine.execObjSet s
  | .pageZero => Sys2Proof.Machine.execPageZero s
  | .funcSet => Sys2Proof.Machine.execFuncSet s
  | .devSet => Sys2Proof.Machine.execDevSet s
  | .mrq => Sys2Proof.Machine.execMrq s
  | .meq => Sys2Proof.Machine.execMeq s
  | .hstat => Sys2Proof.Machine.execHstat s
  | .bar2Access => Sys2Proof.Machine.execBar2Access s
  | .functionLevelReset => Sys2Proof.Machine.execFunctionLevelReset s
  | .boot => Sys2Proof.Machine.execBoot s
  | .thermalTrip => Sys2Proof.Machine.execThermalTrip s
  | .chorusTick => Sys2Proof.Machine.execChorusTick s
  | .traceDrain => Sys2Proof.Machine.execTraceDrain s
  | .traceDrainTimeout => Sys2Proof.Machine.execTraceDrainTimeout s
  | .mcq => Sys2Proof.Machine.execMcq s
  | .illegalWord => Sys2Proof.Machine.execIllegalWord s
  | .fetchTrap => Sys2Proof.Machine.execFetchTrap s
  | .operatingPointPauseEnd => Sys2Proof.Machine.execOperatingPointPauseEnd s
  | .clusterPowerUp => Sys2Proof.Machine.execClusterPowerUp s
  | .finalPassTimeout => Sys2Proof.Machine.execFinalPassTimeout s
  | .linkAcknowledgement => Sys2Proof.Machine.execLinkAcknowledgement s
  | .ideEnable => Sys2Proof.Machine.execIdeEnable s

end Sys2Proof.Machine
end

