-- ==== Sys2Proof/Machine/Extra.lean ====
section
/-! DEFINITION. The meanings of the 23 rows of `Extra`, reached without building their constructors; `exec` on the
instruction of the form is the same (Laws: `execExtra_eq`). -/

namespace Sys2Proof.Machine

/-- The meaning of a row of `Extra`. -/
def execExtra (x : Extra) (s : State) : Host.Outcome State Fault Refusal :=
  match x with
  | .gang4 gd => execGang4 gd s
  | .gang8 gd => execGang8 gd s
  | .ungang gd => execUngang gd s
  | .amSend gd ra rb => execAmSend gd ra rb s
  | .gstore gd ra rb => execGstore gd ra rb s
  | .probeStart gd ra => execProbeStart gd ra s
  | .nAlloc gd rd ra => execNAlloc gd rd ra s
  | .nFree gd ra => execNFree gd ra s
  | .nLink gd ra rb => execNLink gd ra rb s
  | .nRelink gd rd ra rb => execNRelink gd rd ra rb s
  | .nRead gd rd ra => execNRead gd rd ra s
  | .pairPop gd rd => execPairPop gd rd s
  | .pairPush gd ra rb => execPairPush gd ra rb s
  | .ruleLd gd ra => execRuleLd gd ra s
  | .ruleGo gd ra => execRuleGo gd ra s
  | .srd gd x n => execSrd gd x n s
  | .swr gd x n => execSwr gd x n s
  | .trap gd n => execTrap gd n s
  | .eret gd => execEret gd s
  | .brk gd => execBrk gd s
  | .watch gd ra rb => execWatch gd ra rb s
  | .chorusMark gd ra => execChorusMark gd ra s
  | .traceMark gd ra => execTraceMark gd ra s

end Sys2Proof.Machine
end

