-- ==== Sys2Proof/Machine/Step.lean ====
section
/-! DEFINITION. One step of the machine: what `State.plan` names, done. And the state in which the next step runs a given
word. -/

namespace Sys2Proof.Machine

/-- A decoded word run on the acting thread. -/
def runForm (f : Form) (s : State) : Host.Outcome State Fault Refusal :=
  match f with
  | .base i => exec i s
  | .extra x => execExtra x s

/-- A decoded word run on each of some threads in turn (R37). -/
def runOn (f : Form) : List Nat → State → Host.Outcome State Fault Refusal
  | [], s => .next s
  | tid :: rest, s =>
    match runForm f (s.actAs tid) with
    | .next s' => runOn f rest s'
    | .fault r => .fault r
    | .refused r => .refused r

/-- One step. -/
def step (s : State) : Host.Outcome State Fault Refusal :=
  match s.plan with
  | .idle s' => .next s'
  | .happen k s' => exec k.toInstr s'
  | .run f tids s' => runOn f tids s'

/-- The state with the word placed where the next step fetches and runs it: log 10. -/
def State.withFetchWord (s : State) (_nbits w : Nat) : State := s.placeWord (BitVec.ofNat 32 w)

end Sys2Proof.Machine
end

