-- ==== Sys2Proof/Safety.lean ====
section
/-! DEFINITION. What counts as a safe run, and the terms in which statements speak of one step of a thread: when it is
ready to complete a word, what its operands hold, and the states that an instruction's own effect gives. -/

namespace Sys2Proof

/-- The guard of a word; the rows without a word have none (R77). -/
def Instr.guard : Instr → Option Guard
  | .add gd _ _ _ => some gd
  | .sub gd _ _ _ => some gd
  | .and gd _ _ _ => some gd
  | .or gd _ _ _ => some gd
  | .xor gd _ _ _ => some gd
  | .andn gd _ _ _ => some gd
  | .orn gd _ _ _ => some gd
  | .min gd _ _ _ => some gd
  | .max gd _ _ _ => some gd
  | .mins gd _ _ _ => some gd
  | .maxs gd _ _ _ => some gd
  | .shl gd _ _ _ => some gd
  | .shr gd _ _ _ => some gd
  | .sra gd _ _ _ => some gd
  | .rol gd _ _ _ => some gd
  | .ror gd _ _ _ => some gd
  | .clz gd _ _ => some gd
  | .ctz gd _ _ => some gd
  | .popc gd _ _ => some gd
  | .sextB gd _ _ => some gd
  | .sextH gd _ _ => some gd
  | .sextW gd _ _ => some gd
  | .zextB gd _ _ => some gd
  | .zextH gd _ _ => some gd
  | .zextW gd _ _ => some gd
  | .mov gd _ _ => some gd
  | .ldk gd _ _ => some gd
  | .stk gd _ _ => some gd
  | .sel gd _ _ _ _ => some gd
  | .nop gd => some gd
  | .addK gd _ _ _ => some gd
  | .subK gd _ _ _ => some gd
  | .andK gd _ _ _ => some gd
  | .orK gd _ _ _ => some gd
  | .xorK gd _ _ _ => some gd
  | .andnK gd _ _ _ => some gd
  | .ornK gd _ _ _ => some gd
  | .minK gd _ _ _ => some gd
  | .maxK gd _ _ _ => some gd
  | .minsK gd _ _ _ => some gd
  | .maxsK gd _ _ _ => some gd
  | .movK gd _ _ => some gd
  | .stkK gd _ _ => some gd
  | .cmpEq gd _ _ _ => some gd
  | .cmpNe gd _ _ _ => some gd
  | .cmpLt gd _ _ _ => some gd
  | .cmpGe gd _ _ _ => some gd
  | .cmpLe gd _ _ _ => some gd
  | .cmpGt gd _ _ _ => some gd
  | .cmpLtu gd _ _ _ => some gd
  | .cmpGeu gd _ _ _ => some gd
  | .cmpLeu gd _ _ _ => some gd
  | .cmpGtu gd _ _ _ => some gd
  | .tst gd _ _ _ => some gd
  | .cmpEqK gd _ _ _ => some gd
  | .cmpNeK gd _ _ _ => some gd
  | .cmpLtK gd _ _ _ => some gd
  | .cmpGeK gd _ _ _ => some gd
  | .cmpLeK gd _ _ _ => some gd
  | .cmpGtK gd _ _ _ => some gd
  | .cmpLtuK gd _ _ _ => some gd
  | .cmpGeuK gd _ _ _ => some gd
  | .cmpLeuK gd _ _ _ => some gd
  | .cmpGtuK gd _ _ _ => some gd
  | .tstK gd _ _ _ => some gd
  | .pand gd _ _ _ => some gd
  | .por gd _ _ _ => some gd
  | .pxor gd _ _ _ => some gd
  | .pnot gd _ _ => some gd
  | .pmov gd _ _ => some gd
  | .bfx gd _ _ _ _ => some gd
  | .bfxs gd _ _ _ _ => some gd
  | .bfi gd _ _ _ _ => some gd
  | .shlImm gd _ _ _ => some gd
  | .shrImm gd _ _ _ => some gd
  | .sraImm gd _ _ _ => some gd
  | .rolImm gd _ _ _ => some gd
  | .rorImm gd _ _ _ => some gd
  | .mul gd _ _ _ => some gd
  | .mulh gd _ _ _ => some gd
  | .mulhs gd _ _ _ => some gd
  | .div gd _ _ _ => some gd
  | .divs gd _ _ _ => some gd
  | .rem gd _ _ _ => some gd
  | .rems gd _ _ _ => some gd
  | .br gd _ => some gd
  | .call gd _ => some gd
  | .jmp gd _ => some gd
  | .ret gd => some gd
  | .loop gd _ _ => some gd
  | .ld gd _ _ _ _ _ => some gd
  | .st gd _ _ _ _ _ => some gd
  | .lds gd _ _ _ _ _ => some gd
  | .ldRr gd _ _ _ _ _ => some gd
  | .stRr gd _ _ _ _ _ => some gd
  | .ldp gd _ _ _ _ => some gd
  | .stp gd _ _ _ _ => some gd
  | .rsv gd _ _ _ _ _ => some gd
  | .rls gd _ _ _ _ _ => some gd
  | .rlsx gd _ _ _ _ => some gd
  | .logAdd gd _ _ _ _ _ => some gd
  | .logFadd gd _ _ _ _ => some gd
  | .logMin gd _ _ _ _ _ => some gd
  | .logMax gd _ _ _ _ _ => some gd
  | .logOr gd _ _ _ _ _ => some gd
  | .fenceAcq gd _ => some gd
  | .fenceRel gd _ => some gd
  | .fenceFull gd _ => some gd
  | .ldAcqW gd _ _ _ _ => some gd
  | .ldAcqD gd _ _ _ _ => some gd
  | .stRelW gd _ _ _ _ => some gd
  | .stRelD gd _ _ _ _ => some gd
  | .seal gd _ _ _ => some gd
  | .unseal gd _ _ _ => some gd
  | .pref gd _ _ => some gd
  | .cwb gd _ _ => some gd
  | .cdrop gd _ _ => some gd
  | .scbWait gd _ _ => some gd
  | .segLd gd _ _ => some gd
  | .segNarrow gd _ _ _ => some gd
  | .segGive gd _ _ _ => some gd
  | .segTake gd _ _ => some gd
  | .ldx gd _ _ _ _ _ => some gd
  | .stx gd _ _ _ _ _ => some gd
  | .stxN4 gd _ _ _ _ => some gd
  | .objInit gd _ _ _ => some gd
  | .objFree gd _ _ => some gd
  | .objRead gd _ _ _ => some gd
  | .cntAdd gd _ _ _ _ => some gd
  | .cntSwap gd _ _ _ _ => some gd
  | .cntCas gd _ _ _ _ => some gd
  | .cntWaitge gd _ _ _ _ => some gd
  | .cntWaiteq gd _ _ _ _ => some gd
  | .barArrive gd _ _ _ => some gd
  | .barWait gd _ _ _ => some gd
  | .barSync gd _ _ _ => some gd
  | .tktAcq gd _ _ _ => some gd
  | .tktTry gd _ _ _ => some gd
  | .tktRel gd _ _ => some gd
  | .cndWait gd _ _ _ => some gd
  | .cndSig gd _ _ => some gd
  | .cndBcast gd _ _ => some gd
  | .qPut gd _ _ _ => some gd
  | .qGet gd _ _ _ _ => some gd
  | .qTryput gd _ _ _ _ => some gd
  | .qTryget gd _ _ _ _ => some gd
  | .vadd gd _ _ _ _ => some gd
  | .vsub gd _ _ _ _ => some gd
  | .vadds gd _ _ _ _ => some gd
  | .vsubs gd _ _ _ _ => some gd
  | .vmul gd _ _ _ _ => some gd
  | .vmulh gd _ _ _ _ => some gd
  | .vmac gd _ _ _ _ => some gd
  | .vdot4 gd _ _ _ => some gd
  | .vmin gd _ _ _ _ => some gd
  | .vmax gd _ _ _ _ => some gd
  | .vabs gd _ _ _ => some gd
  | .vavg gd _ _ _ _ => some gd
  | .vshl gd _ _ _ _ => some gd
  | .vshr gd _ _ _ _ => some gd
  | .vsra gd _ _ _ _ => some gd
  | .vcmpEq gd _ _ _ _ => some gd
  | .vcmpNe gd _ _ _ _ => some gd
  | .vcmpLt gd _ _ _ _ => some gd
  | .vcmpGe gd _ _ _ _ => some gd
  | .vcmpLtu gd _ _ _ _ => some gd
  | .vcmpGeu gd _ _ _ _ => some gd
  | .vsel gd _ _ _ _ => some gd
  | .vfadd gd _ _ _ _ => some gd
  | .vfmul gd _ _ _ _ => some gd
  | .vfma gd _ _ _ _ => some gd
  | .vfmin gd _ _ _ _ => some gd
  | .vfmax gd _ _ _ _ => some gd
  | .vfcmpEq gd _ _ _ _ => some gd
  | .vfcmpLt gd _ _ _ _ => some gd
  | .vfcmpLe gd _ _ _ _ => some gd
  | .vfcmpUn gd _ _ _ _ => some gd
  | .vshuf gd _ _ _ _ => some gd
  | .vbcast gd _ _ _ _ => some gd
  | .vrev gd _ _ _ => some gd
  | .vpack gd _ _ _ _ => some gd
  | .vunpk gd _ _ _ => some gd
  | .vcvt gd _ _ _ _ => some gd
  | .vf4blk gd _ _ _ _ => some gd
  | .vsum gd _ _ _ => some gd
  | .fdiv gd _ _ _ => some gd
  | .fsqrt gd _ _ => some gd
  | .frcp gd _ _ => some gd
  | .frsq gd _ _ => some gd
  | .fexp2 gd _ _ => some gd
  | .flog2 gd _ _ => some gd
  | .fsin gd _ _ => some gd
  | .fcos gd _ _ => some gd
  | .ftanh gd _ _ => some gd
  | .fadd gd _ _ _ => some gd
  | .fsub gd _ _ _ => some gd
  | .fmul gd _ _ _ => some gd
  | .fma gd _ _ _ => some gd
  | .fmin gd _ _ _ => some gd
  | .fmax gd _ _ _ => some gd
  | .fneg gd _ _ => some gd
  | .fabs gd _ _ => some gd
  | .fcmpEq gd _ _ _ => some gd
  | .fcmpLt gd _ _ _ => some gd
  | .fcmpLe gd _ _ _ => some gd
  | .fcmpUn gd _ _ _ => some gd
  | .fcvtSL gd _ _ => some gd
  | .fcvtLS gd _ _ => some gd
  | .fcvtSLu gd _ _ => some gd
  | .fcvtLuS gd _ _ => some gd
  | .fcvtSHf gd _ _ => some gd
  | .fcvtHfS gd _ _ => some gd
  | .fcvtSBh gd _ _ => some gd
  | .fcvtBhS gd _ _ => some gd
  | .qmake gd _ _ _ => some gd
  | .qnum gd _ _ => some gd
  | .qden gd _ _ => some gd
  | .qmed gd _ _ _ => some gd
  | .qcf gd _ _ _ => some gd
  | .qlim gd _ _ _ => some gd
  | .qcanon gd _ _ => some gd
  | .qcvtF gd _ _ => some gd
  | .qcvtI gd _ _ => some gd
  | .qclass gd _ _ => some gd
  | .gcd gd _ _ _ => some gd
  | .qsetm gd _ => some gd
  | .issueMx gd _ _ => some gd
  | .issueMxSync gd _ _ => some gd
  | .issueQd gd _ _ => some gd
  | .issueQdSync gd _ _ => some gd
  | .issueCp gd _ _ => some gd
  | .issueCpSync gd _ _ => some gd
  | .issueCl gd _ _ => some gd
  | .issueClSync gd _ _ => some gd
  | .waitj gd _ => some gd
  | .pollj gd _ _ => some gd
  | .jdrop gd _ => some gd
  | .fmtLd gd _ => some gd
  | .spawn gd _ _ _ => some gd
  | .migr gd _ => some gd
  | .exit gd => some gd
  | .yield gd => some gd
  | .lnch gd _ _ _ => some gd
  | .gang2 gd => some gd
  | .gang4 gd => some gd
  | .gang8 gd => some gd
  | .ungang gd => some gd
  | .amSend gd _ _ => some gd
  | .gstore gd _ _ => some gd
  | .probeStart gd _ => some gd
  | .nAlloc gd _ _ => some gd
  | .nFree gd _ => some gd
  | .nLink gd _ _ => some gd
  | .nRelink gd _ _ _ => some gd
  | .nRead gd _ _ => some gd
  | .pairPop gd _ => some gd
  | .pairPush gd _ _ => some gd
  | .ruleLd gd _ => some gd
  | .ruleGo gd _ => some gd
  | .srd gd _ _ => some gd
  | .swr gd _ _ => some gd
  | .trap gd _ => some gd
  | .eret gd => some gd
  | .brk gd => some gd
  | .watch gd _ _ => some gd
  | .chorusMark gd _ => some gd
  | .traceMark gd _ => some gd
  | .tadpoleBinding => none
  | .quantumExpiry => none
  | .replyArrival => none
  | .icacheLineArrival => none
  | .sfuOperationFinish => none
  | .hardwareMigration => none
  | .migrationDeparture => none
  | .migrRetry => none
  | .tadpoleArrival => none
  | .wake => none
  | .gangFormationTimeout => none
  | .tlbWalkCompletion => none
  | .l1Fill => none
  | .writeBackAtHome => none
  | .sliceRequest => none
  | .hbmAccessCompletion => none
  | .eftOperation => none
  | .reservationRevocation => none
  | .overflowChainRead => none
  | .omegaCombine => none
  | .logAppendArrival => none
  | .logAreaFullTimeout => none
  | .pairCheck => none
  | .accessCounterHalving => none
  | .faultRecordDeferred => none
  | .engineSelection => none
  | .quadSignal => none
  | .mmaF4 => none
  | .mmaBf => none
  | .mmaH => none
  | .accZero => none
  | .accDrain => none
  | .fmtSet => none
  | .qmma => none
  | .cp1d => none
  | .cp2d => none
  | .cpGather => none
  | .cpScatter => none
  | .cpFill => none
  | .cpSignal => none
  | .copyUnit => none
  | .jobCompletion => none
  | .clReduce => none
  | .clBcast => none
  | .clAllreduce => none
  | .clChunk => none
  | .groupContribution => none
  | .groupDelivery => none
  | .packetArrival => none
  | .packetGrant => none
  | .packetPromotion => none
  | .messageArrival => none
  | .messageRetry => none
  | .streamMessageMove => none
  | .handlerStart => none
  | .remoteAccessService => none
  | .probeToken => none
  | .phaseEnd => none
  | .fabricPacketArrival => none
  | .endToEndAcknowledgement => none
  | .linkResend => none
  | .portDown => none
  | .linkTraining => none
  | .dependenceMet => none
  | .headBlocking => none
  | .pondPlacement => none
  | .pondEnd => none
  | .queueSet => none
  | .sliceSet => none
  | .asidSet => none
  | .taskSet => none
  | .keyLoadData => none
  | .keyLoadTweak => none
  | .routeSet => none
  | .groupSetWrite => none
  | .groupSetRetire => none
  | .fqSet => none
  | .faultAnswerReissue => none
  | .faultAnswerDeliver => none
  | .shootdown => none
  | .shootdownCluster => none
  | .moveStart => none
  | .movePass => none
  | .moveEnd => none
  | .preempt => none
  | .resume => none
  | .debugSet => none
  | .dump => none
  | .powerOperatingPoint => none
  | .powerCluster => none
  | .powerHbmRefresh => none
  | .powerLinkWidth => none
  | .withdraw => none
  | .cntRead => none
  | .launch => none
  | .attest => none
  | .objSet => none
  | .pageZero => none
  | .funcSet => none
  | .devSet => none
  | .mrq => none
  | .meq => none
  | .hstat => none
  | .bar2Access => none
  | .functionLevelReset => none
  | .boot => none
  | .thermalTrip => none
  | .chorusTick => none
  | .traceDrain => none
  | .traceDrainTimeout => none
  | .mcq => none
  | .illegalWord => none
  | .fetchTrap => none
  | .operatingPointPauseEnd => none
  | .clusterPowerUp => none
  | .finalPassTimeout => none
  | .linkAcknowledgement => none
  | .ideEnable => none

/-- The words by which a gang's leader decides for every member (R137, R262). -/
def Instr.leads : Instr → Bool
  | .br _ _ | .call _ _ | .jmp _ _ | .ret _ | .loop _ _ _ | .ungang _ => true
  | _ => false

/-! ## The checks of R80, form by form -/

/-- The kinds of field that R80 step 4 checks. -/
inductive FieldKind where
  | g | gk | pair | seg | scope
  deriving DecidableEq, Repr

/-- The codes that step 4 allows in a field: g0 to g9, gz and gq, and code 11 where the format has a k8 field; even registers; s0 to s7;
the six scopes. -/
def FieldKind.allows (k : FieldKind) (c : Nat) : Bool :=
  match k with
  | .g => decide (c ≤ 10) || c == 12
  | .gk => decide (c ≤ 12)
  | .pair => decide (c < 10) && c % 2 == 0
  | .seg => decide (c < 8)
  | .scope => decide (c < 6)

/-- Forms of one shape: the major, the fields that name the form with the values that do, the reserved fields, and the fields that step 4
checks; a field by its lowest bit and its width. -/
structure FormRow where
  major : Nat
  minor : List (Nat × Nat × List Nat)
  zeros : List (Nat × Nat)
  codes : List (FieldKind × Nat × Nat)
  deriving DecidableEq, Repr

/-- Majors 0x01 to 0x0A (R83 to R89). The pos and len of a bit field are a condition of their own. -/
def scalarRows : List FormRow := [
  ⟨0x01, [(0, 9, [0, 1, 2, 3, 4, 5, 6, 8, 9, 10, 11, 16, 17, 18, 19, 20])], [], [(.g, 17, 4), (.g, 13, 4), (.g, 9, 4)]⟩,
  ⟨0x01, [(0, 9, [24, 25, 26, 32, 33, 34, 36, 37, 38, 48, 56])], [(9, 4)], [(.g, 17, 4), (.g, 13, 4)]⟩,
  ⟨0x01, [(0, 9, [57])], [(17, 4)], [(.g, 13, 4), (.g, 9, 4)]⟩,
  ⟨0x01, [(4, 5, [16])], [], [(.g, 17, 4), (.g, 13, 4), (.g, 9, 4)]⟩,
  ⟨0x01, [(0, 9, [496])], [(9, 12)], []⟩,
  ⟨0x02, [(0, 5, [0, 1, 2, 3, 4, 5, 6, 8, 9, 10, 11])], [], [(.gk, 17, 4), (.gk, 13, 4)]⟩,
  ⟨0x02, [(0, 5, [16])], [(13, 4)], [(.gk, 17, 4)]⟩,
  ⟨0x02, [(0, 5, [17])], [(17, 4)], [(.gk, 13, 4)]⟩,
  ⟨0x03, [(4, 1, [0]), (0, 4, [0, 1, 2, 3, 4, 5, 6, 7, 8, 9, 10])], [(5, 4)], [(.g, 13, 4), (.g, 9, 4)]⟩,
  ⟨0x03, [(4, 1, [1]), (0, 4, [0, 1, 2, 3, 4, 5, 6, 7, 8, 9, 10])], [], [(.gk, 13, 4)]⟩,
  ⟨0x04, [(0, 9, [0, 1, 2])], [], []⟩,
  ⟨0x04, [(0, 9, [3, 4])], [(9, 4)], []⟩,
  ⟨0x05, [(11, 2, [0, 1, 2])], [], [(.g, 17, 4), (.g, 13, 4)]⟩,
  ⟨0x05, [(11, 2, [3]), (8, 3, [0, 1, 2, 3, 4])], [(6, 2)], [(.g, 17, 4), (.g, 13, 4)]⟩,
  ⟨0x06, [(0, 9, [0, 1, 2, 3, 4, 5, 6])], [], [(.g, 17, 4), (.g, 13, 4), (.g, 9, 4)]⟩,
  ⟨0x08, [], [], []⟩,
  ⟨0x09, [], [], []⟩,
  ⟨0x0A, [(19, 2, [0])], [(17, 2), (0, 13)], [(.g, 13, 4)]⟩,
  ⟨0x0A, [(19, 2, [1])], [(0, 19)], []⟩,
  ⟨0x0A, [(19, 2, [2]), (13, 4, [0, 1, 2, 3, 4, 5, 6, 7, 8, 9, 11, 12, 13, 14, 15])], [(17, 2)], [(.g, 13, 4)]⟩]

/-- Majors 0x0C to 0x15 (R90 to R97). -/
def memoryRows : List FormRow := [
  ⟨0x0C, [], [], [(.gk, 17, 4), (.gk, 13, 4), (.seg, 10, 3)]⟩,
  ⟨0x0D, [], [], [(.gk, 17, 4), (.gk, 13, 4), (.seg, 10, 3)]⟩,
  ⟨0x0E, [(2, 4, [0]), (0, 2, [0, 1, 2])], [], [(.g, 17, 4), (.g, 13, 4), (.g, 6, 4), (.seg, 10, 3)]⟩,
  ⟨0x0E, [(2, 4, [1, 2])], [], [(.g, 17, 4), (.g, 13, 4), (.g, 6, 4), (.seg, 10, 3)]⟩,
  ⟨0x0E, [(2, 4, [3, 4]), (0, 2, [3])], [], [(.pair, 17, 4), (.g, 13, 4), (.g, 6, 4), (.seg, 10, 3)]⟩,
  ⟨0x0E, [(2, 4, [5, 6]), (0, 2, [2, 3])], [], [(.g, 17, 4), (.g, 13, 4), (.g, 6, 4), (.seg, 10, 3)]⟩,
  ⟨0x0E, [(2, 4, [7]), (0, 2, [2, 3])], [(17, 4)], [(.g, 13, 4), (.g, 6, 4), (.seg, 10, 3)]⟩,
  ⟨0x0F, [(2, 4, [0, 2, 3, 4])], [], [(.g, 17, 4), (.g, 13, 4), (.g, 6, 4), (.seg, 10, 3)]⟩,
  ⟨0x0F, [(2, 4, [1]), (0, 2, [2])], [], [(.g, 17, 4), (.g, 13, 4), (.g, 6, 4), (.seg, 10, 3)]⟩,
  ⟨0x10, [(0, 6, [0, 1, 2])], [(6, 4), (13, 8)], [(.scope, 10, 3)]⟩,
  ⟨0x10, [(0, 6, [4, 5, 6, 7])], [], [(.g, 17, 4), (.g, 13, 4), (.scope, 10, 3), (.seg, 6, 4)]⟩,
  ⟨0x10, [(0, 6, [8])], [(17, 4)], [(.g, 13, 4), (.scope, 10, 3), (.g, 6, 4)]⟩,
  ⟨0x10, [(0, 6, [9])], [(6, 4)], [(.g, 17, 4), (.g, 13, 4), (.scope, 10, 3)]⟩,
  ⟨0x10, [(0, 6, [12, 13, 14])], [(10, 3), (17, 4)], [(.g, 13, 4), (.seg, 6, 4)]⟩,
  ⟨0x10, [(0, 6, [15])], [(10, 3), (17, 4)], [(.g, 13, 4), (.g, 6, 4)]⟩,
  ⟨0x11, [(0, 6, [0, 3])], [(6, 4), (10, 3)], [(.seg, 17, 4), (.g, 13, 4)]⟩,
  ⟨0x11, [(0, 6, [1])], [(10, 3)], [(.seg, 17, 4), (.g, 13, 4), (.g, 6, 4)]⟩,
  ⟨0x11, [(0, 6, [2])], [(6, 4)], [(.seg, 17, 4), (.g, 13, 4), (.scope, 10, 3)]⟩,
  ⟨0x12, [(4, 5, [0, 1]), (2, 2, [0, 1])], [], [(.g, 17, 4), (.g, 13, 4), (.g, 9, 4)]⟩,
  ⟨0x12, [(4, 5, [2]), (2, 2, [0, 1]), (0, 2, [0])], [], [(.g, 17, 4), (.g, 13, 4), (.g, 9, 4)]⟩,
  ⟨0x14, [(0, 6, [0, 17, 32])], [(17, 4)], [(.g, 13, 4), (.scope, 10, 3), (.g, 6, 4)]⟩,
  ⟨0x14, [(0, 6, [1, 26, 33, 34])], [(6, 4), (17, 4)], [(.g, 13, 4), (.scope, 10, 3)]⟩,
  ⟨0x14, [(0, 6, [2, 16, 18, 24])], [(6, 4)], [(.g, 17, 4), (.g, 13, 4), (.scope, 10, 3)]⟩,
  ⟨0x14, [(0, 6, [8, 9, 10, 11, 12])], [], [(.g, 17, 4), (.g, 13, 4), (.scope, 10, 3), (.g, 6, 4)]⟩,
  ⟨0x14, [(0, 6, [25])], [(6, 4)], [(.g, 13, 4), (.scope, 10, 3)]⟩,
  ⟨0x15, [(0, 6, [0])], [(17, 4)], [(.g, 13, 4), (.scope, 10, 3), (.g, 6, 4)]⟩,
  ⟨0x15, [(0, 6, [1])], [], [(.g, 17, 4), (.g, 13, 4), (.scope, 10, 3), (.g, 6, 4)]⟩,
  ⟨0x15, [(0, 6, [2, 3])], [], [(.g, 13, 4), (.scope, 10, 3), (.g, 6, 4)]⟩]

/-- Majors 0x18 to 0x1E (R98 to R102, R205). -/
def laneRows : List FormRow := [
  ⟨0x18, [(2, 7, [0, 1, 2, 3, 4, 5, 6, 8, 9, 11, 12, 13, 14, 16, 17, 18, 19, 20, 21, 24]), (0, 2, [0, 1, 2])], [], [(.g, 17, 4), (.g, 13, 4), (.g, 9, 4)]⟩,
  ⟨0x18, [(2, 7, [7]), (0, 2, [0])], [], [(.g, 17, 4), (.g, 13, 4), (.g, 9, 4)]⟩,
  ⟨0x18, [(2, 7, [10]), (0, 2, [0, 1, 2])], [(9, 4)], [(.g, 17, 4), (.g, 13, 4)]⟩,
  ⟨0x19, [(2, 7, [0, 1, 2, 3, 4, 8, 9, 10, 11]), (0, 2, [0, 1, 2])], [], [(.g, 17, 4), (.g, 13, 4), (.g, 9, 4)]⟩,
  ⟨0x1A, [(2, 7, [0, 1, 3]), (0, 2, [0, 1, 2])], [], [(.g, 17, 4), (.g, 13, 4), (.g, 9, 4)]⟩,
  ⟨0x1A, [(2, 7, [2, 4]), (0, 2, [0, 1, 2])], [(9, 4)], [(.g, 17, 4), (.g, 13, 4)]⟩,
  ⟨0x1B, [(6, 3, [0]), (3, 3, [0]), (0, 3, [1])], [(9, 4)], [(.g, 17, 4), (.g, 13, 4)]⟩,
  ⟨0x1B, [(6, 3, [0]), (3, 3, [1]), (0, 3, [2, 3, 4])], [(9, 4)], [(.g, 17, 4), (.g, 13, 4)]⟩,
  ⟨0x1B, [(6, 3, [0]), (3, 3, [2]), (0, 3, [5])], [(9, 4)], [(.g, 17, 4), (.g, 13, 4)]⟩,
  ⟨0x1B, [(6, 3, [0]), (3, 3, [3]), (0, 3, [1, 4, 5, 6])], [(9, 4)], [(.g, 17, 4), (.g, 13, 4)]⟩,
  ⟨0x1B, [(6, 3, [0]), (3, 3, [4]), (0, 3, [1, 3, 5, 6])], [(9, 4)], [(.g, 17, 4), (.g, 13, 4)]⟩,
  ⟨0x1B, [(6, 3, [0]), (3, 3, [5]), (0, 3, [2, 3, 4, 6])], [(9, 4)], [(.g, 17, 4), (.g, 13, 4)]⟩,
  ⟨0x1B, [(6, 3, [0]), (3, 3, [6]), (0, 3, [3, 4, 5])], [(9, 4)], [(.g, 17, 4), (.g, 13, 4)]⟩,
  ⟨0x1B, [(6, 3, [1]), (3, 3, [6]), (0, 3, [3, 4])], [], [(.g, 17, 4), (.g, 13, 4), (.g, 9, 4)]⟩,
  ⟨0x1B, [(6, 3, [2]), (3, 3, [0]), (0, 3, [0, 1, 2, 3, 4, 5, 6])], [(9, 4)], [(.g, 17, 4), (.g, 13, 4)]⟩,
  ⟨0x1C, [(0, 9, [0])], [], [(.g, 17, 4), (.g, 13, 4), (.g, 9, 4)]⟩,
  ⟨0x1C, [(0, 9, [1, 2, 3, 4, 5, 6, 7, 8])], [(9, 4)], [(.g, 17, 4), (.g, 13, 4)]⟩,
  ⟨0x1D, [(0, 9, [0, 1, 2, 3, 4, 5])], [], [(.g, 17, 4), (.g, 13, 4), (.g, 9, 4)]⟩,
  ⟨0x1D, [(0, 9, [6, 7, 32, 33, 34, 35, 36, 37, 38, 39])], [(9, 4)], [(.g, 17, 4), (.g, 13, 4)]⟩,
  ⟨0x1D, [(0, 9, [16, 17, 18, 19])], [], [(.g, 13, 4), (.g, 9, 4)]⟩,
  ⟨0x1E, [(0, 9, [0, 3, 4, 5, 10])], [], [(.g, 17, 4), (.g, 13, 4), (.g, 9, 4)]⟩,
  ⟨0x1E, [(0, 9, [1, 2, 6, 7, 8, 9])], [(9, 4)], [(.g, 17, 4), (.g, 13, 4)]⟩,
  ⟨0x1E, [(0, 9, [11])], [(9, 4), (17, 4)], [(.g, 13, 4)]⟩]

/-- Majors 0x20 to 0x31 (R103 to R105, R280). -/
def systemRows : List FormRow := [
  ⟨0x20, [(0, 9, [0, 256, 1, 257, 2, 258, 3, 259])], [(9, 4)], [(.g, 17, 4), (.g, 13, 4)]⟩,
  ⟨0x20, [(0, 9, [16, 18])], [(9, 4), (17, 4)], [(.g, 13, 4)]⟩,
  ⟨0x20, [(0, 9, [17])], [(9, 4)], [(.g, 13, 4)]⟩,
  ⟨0x21, [(0, 9, [0])], [(9, 4), (17, 4)], [(.g, 13, 4)]⟩,
  ⟨0x24, [(0, 9, [0, 4])], [], [(.g, 17, 4), (.g, 13, 4), (.g, 9, 4)]⟩,
  ⟨0x24, [(0, 9, [1])], [(9, 4), (17, 4)], [(.g, 13, 4)]⟩,
  ⟨0x24, [(0, 9, [2, 3])], [(9, 12)], []⟩,
  ⟨0x25, [(0, 9, [0, 1, 2, 3])], [(9, 12)], []⟩,
  ⟨0x26, [(0, 9, [0, 1])], [(17, 4)], [(.g, 13, 4), (.g, 9, 4)]⟩,
  ⟨0x26, [(0, 9, [2])], [(9, 4), (17, 4)], [(.g, 13, 4)]⟩,
  ⟨0x28, [(0, 9, [0, 4])], [(9, 4)], [(.g, 17, 4), (.g, 13, 4)]⟩,
  ⟨0x28, [(0, 9, [1, 7, 8])], [(9, 4), (17, 4)], [(.g, 13, 4)]⟩,
  ⟨0x28, [(0, 9, [2, 6])], [(17, 4)], [(.g, 13, 4), (.g, 9, 4)]⟩,
  ⟨0x28, [(0, 9, [3])], [], [(.g, 17, 4), (.g, 13, 4), (.g, 9, 4)]⟩,
  ⟨0x28, [(0, 9, [5])], [(9, 8)], [(.g, 17, 4)]⟩,
  ⟨0x30, [(19, 2, [0, 1]), (1, 12, [0, 1, 2, 3, 4, 5, 6, 7, 8, 16, 17, 18, 19, 20, 24])], [(0, 1), (17, 2)], [(.g, 13, 4)]⟩,
  ⟨0x30, [(19, 2, [2])], [(0, 1), (9, 10)], []⟩,
  ⟨0x30, [(19, 2, [3])], [(0, 19)], []⟩,
  ⟨0x31, [(0, 9, [0])], [(9, 12)], []⟩,
  ⟨0x31, [(0, 9, [1])], [(17, 4)], [(.g, 13, 4), (.g, 9, 4)]⟩,
  ⟨0x31, [(0, 9, [2, 3])], [(9, 4), (17, 4)], [(.g, 13, 4)]⟩]

/-- Every form. -/
def formRows : List FormRow := scalarRows ++ memoryRows ++ laneRows ++ systemRows

/-- A word is of one of the forms of a row. -/
def FormRow.holds (r : FormRow) (w : Nat) : Prop :=
  bits w 26 6 = r.major ∧ ∀ f ∈ r.minor, bits w f.1 f.2.1 ∈ f.2.2

/-- A bit field that ends beyond bit 63 (R87). -/
def overlong (w : Nat) : Prop := bits w 26 6 = 5 ∧ bits w 11 2 < 3 ∧ 64 < bits w 5 6 + (bits w 0 5 + 1)

/-- The reserved fields of a row are zero. -/
def FormRow.clear (r : FormRow) (w : Nat) : Prop := ∀ f ∈ r.zeros, bits w f.1 f.2 = 0

/-- The codes of a row's fields are allowed. -/
def FormRow.coded (r : FormRow) (w : Nat) : Prop := ∀ f ∈ r.codes, f.1.allows (bits w f.2.1 f.2.2) = true

end Sys2Proof

namespace Sys2Proof.Machine

/-- The next `n` steps all answer a next state. -/
def Safe : Nat → State → Prop
  | 0, _ => True
  | n + 1, s => ∃ t, step s = .next t ∧ Safe n t

/-! ## The acting thread and its operands -/

/-- The acting thread issues a word afresh: it stands in the rotation, nothing of an earlier word is pending, and no
breakpoint of its task stands at its pc (slot 0 has none). -/
def State.Ready (s : State) : Prop :=
  s.me.run = .active ∧ s.me.cont = .none ∧ s.ctl.after = none ∧
    (s.isSlot0 = true ∨ s.breakpoint (s.servedTask s.ctl.acting) s.me.ctx.pc.toNat = false)

/-- A ready thread issues a word whose guard holds (R77). -/
def State.Issues (s : State) (gd : Guard) : Prop := guardHolds s gd = true ∧ s.Ready

/-- A source operand that is a register's contents or zero, not a queue of slot 0 and not a code that the form forbids. -/
def State.plain (s : State) : Reg → Bool
  | .g n => !s.isSlot0 || decide (n.val < 8)
  | .gz => true
  | .k => false
  | .gq => false

/-- No word of a range is poisoned, and the code of none shows an error that a read would meet (R143, R324). -/
def Memory.sound (m : Memory) (key n : Nat) : Prop := m.firstPoison key n = none ∧ m.scan key n = (m, 0, 0)

/-- The entry of the constant window that a k8 field names is sound (R10, R143, R324). -/
def State.kSound (s : State) (k : BitVec 8) : Prop := s.mem.sound (tcmKey s.me.core (8 * k.toNat)) 8

/-- The same in a format with a k8 field, where code 11 reads a sound entry of the constant window (R10). -/
def State.plainK (s : State) (r : Reg) (k : BitVec 8) : Prop :=
  match r with
  | .k => s.kSound k
  | r => s.plain r = true

/-- A destination operand that is a register's contents, or one of the codes that discard the value (R10). -/
def State.plainDst (s : State) : Reg → Bool
  | .g n => !s.isSlot0 || decide (n.val < 8)
  | _ => true

/-- What a plain source operand holds. -/
def State.val (s : State) : Reg → Word
  | .g n => s.me.ctx.g[n]
  | _ => 0

/-- The same in a format with a k8 field. -/
def State.valK (s : State) (r : Reg) (k : BitVec 8) : Word :=
  match r with
  | .k => s.kEntry s.me.core k.toNat
  | r => s.val r

/-- The state with a destination operand written; codes 10 to 12 discard the value (R10). -/
def State.put (s : State) (r : Reg) (v : Word) : State :=
  match r with
  | .g n => s.updMe fun t => { t with ctx := { t.ctx with g := t.ctx.g.set n v } }
  | _ => s

/-- A predicate of the acting thread. -/
def State.pred (s : State) (p : Pred) : Bool := pswPred s.me.ctx.psw p.toNat

/-- The state with a predicate written; p0 stays 1 (R14). -/
def State.putPred (s : State) (p : Pred) (b : Bool) : State :=
  s.updMe fun t => { t with ctx := { t.ctx with psw := pswSetPred t.ctx.psw p.toNat b } }

/-- The state with sticky flags set (R15). -/
def State.putFlags (s : State) (f : Byte) : State :=
  s.updMe fun t => { t with ctx := { t.ctx with psw := pswOrFlags t.ctx.psw f } }

/-- The acting thread goes on at a pc, with nothing pending. -/
def State.advance (s : State) (npc : BitVec 32) : State :=
  (s.updCtl fun c => { c with after := none }).updMe fun t => { t with ctx := { t.ctx with pc := npc }, cont := .none }

/-- The acting thread goes on at the next word. -/
def State.done (s : State) : State := s.advance (s.me.ctx.pc + 4)

/-- The acting thread takes a precise trap (R402). -/
def State.trapped (s : State) (c addr : Nat) : State :=
  s.takeTrap s.ctl.acting c s.me.ctx.pc.toNat s.me.ctx.pc.toNat addr s.me.word

/-! ## Memory as the acting thread reaches it -/

/-- A segment register of the acting thread. -/
def State.seg (s : State) (i : Fin 8) : Seg := s.me.segs[i]

/-- The check of R21 on an access of the acting thread: none when it passes. -/
def State.segCheck (s : State) (g : Seg) (o n : Nat) (right : Right) (natural : Nat) : Option Nat :=
  g.check (s.spadSize s.myCluster) o n right natural

/-- The memory key of offset `e` of the TCM of the acting core, or of the scratchpad of its cluster, by the segment's
space (R22). -/
def State.localKey (s : State) (g : Seg) (e : Nat) : Nat :=
  match g.space with
  | .tcm => tcmKey s.me.core e
  | _ => spadKey s.myCluster e

/-- A TCM or scratchpad range that no copy in flight covers and no empty line holds, and whose words are sound. -/
def State.localClear (s : State) (g : Seg) (e n : Nat) : Prop :=
  ((g.space = .tcm ∧ (s.core s.me.core).storeWaits e n = false) ∨
    (g.space = .scratch ∧ (s.cluster s.myCluster).lineWaits e n = false)) ∧
  s.mem.sound (s.localKey g e) n

/-- A TCM range of the acting core that no copy in flight covers, and whose words are sound. -/
def State.tcmClear (s : State) (off n : Nat) : Prop :=
  (s.core s.me.core).loadWaits off n = false ∧ s.mem.sound (tcmKey s.me.core off) n

/-- A line of the cluster L1 holds the bytes of a range, and its words are sound (R313, R324). -/
def L1Line.holds (l : L1Line) (off n : Nat) : Prop :=
  l.valid &&& byteMask off n = byteMask off n ∧ l.poisonAt off n = none ∧ l.oneBit = 0 ∧ l.lostBits = 0

/-- The slice of a key holds its line, filled under the key that an index names, and no fill of it from HBM is on its way (R316,
R323). -/
def State.lineHeld (s : State) (a key : Nat) : Prop :=
  (s.slice (sliceOf a)).lines.contains (a / 128) = true ∧ s.lineBusy (a / 128) = false ∧
    (s.filledUnder (sliceOf a) (a / 128)).all (fun x => x.2 == s.keyAt key) = true

/-- The slice of a key lacks its line, nothing has been enciphered there under another key, and the codes of its words in HBM
show no error (R316, R323, R324). -/
def State.lineFresh (s : State) (a key : Nat) : Prop :=
  (s.slice (sliceOf a)).lines.contains (a / 128) = false ∧ s.mem.scan (128 * (a / 128)) 128 = (s.mem, 0, 0) ∧
    (s.filledUnder (sliceOf a) (a / 128)).all (fun x => x.2 == s.keyAt key) = true

/-- The L1 of a cluster holds no dirty byte of a line. -/
def State.cleanAt (s : State) (cl asid va : Nat) : Prop :=
  ∀ l ∈ (s.cluster cl).l1, l.asid = asid → l.va = va / 128 → l.dirty = 0

/-- The translation of a global or object address that the cluster's TLB holds with the access's page right (R392). -/
def State.tlbHit (s : State) (va : Nat) (k : AccKind) (e : TlbEntry) : Prop :=
  va < 2 ^ 57 ∧ ((s.cluster s.myCluster).lookup (s.asidOf s.myCluster) va k).1 = some e

/-- No access of the acting thread is sampled, no watchpoint covers the range. -/
def State.unwatched (s : State) (va n dir : Nat) : Prop :=
  (s.cluster s.myCluster).trace.sper = 0 ∧ s.me.aux.sample = none ∧
    (s.isSlot0 = true ∨ s.watchpoint (s.servedTask s.ctl.acting) va n dir = false)

/-- The membership bitmaps of every router and port hold the tenant (R369). -/
def State.admits (s : State) (tenant : Nat) : Prop :=
  (∀ r, member (s.routerMap r) tenant = true) ∧ ∀ p, member (s.port p).bitmap tenant = true

/-- In `t` the acting thread of `s` has left the rotation for a wait: it keeps its pc, registers, predicates and flags,
and no byte of memory has changed. -/
def State.leavesTo (s t : State) : Prop :=
  t.ctl.acting = s.ctl.acting ∧ t.me.run = .waiting ∧ t.me.ctx.pc = s.me.ctx.pc ∧ t.me.ctx.g = s.me.ctx.g ∧
    t.me.ctx.psw = s.me.ctx.psw ∧ t.mem = s.mem

/-- In `t` the acting thread of `s` goes on at the next word with its registers, predicates and flags as they were, and no
byte of memory has changed. -/
def State.passesTo (s t : State) : Prop :=
  t.ctl.acting = s.ctl.acting ∧ t.me.run = .active ∧ t.me.ctx.pc = s.me.ctx.pc + 4 ∧ t.me.ctx.g = s.me.ctx.g ∧
    t.me.ctx.psw = s.me.ctx.psw ∧ t.mem = s.mem

/-- In `t` the memory is that of `s` but for the bytes `bs` at a key. -/
def State.storesTo (s t : State) (key : Nat) (bs : List Byte) : Prop :=
  t.mem.read key bs.length = bs ∧ ∀ x, x < key ∨ key + bs.length ≤ x → t.mem.readByte x = s.mem.readByte x

/-- A request for bytes of memory that the acting thread of `s` has in flight in `t`. -/
def State.asksSlice (s t : State) (va n : Nat) (write : Option (List Byte)) (obj : Bool) : Prop :=
  ∃ r : SliceReq, t.msgs.find s.ctl.nextMsg = some (.slice r) ∧ r.who = .thread s.ctl.acting ∧ r.fill = false ∧
    r.va = va ∧ r.n = n ∧ r.write = write ∧ r.obj = obj

/-- A request to a home that the acting thread of `s` has in flight in `t`: the address, the operation, the scope, and
where its reply goes. -/
def State.asksHome (s t : State) (va : Nat) (op : HomeOp) (sc : Scope) (rd : Option Reg) (pd : Option Pred)
    (acq : Option Scope) : Prop :=
  (∃ r : HomeReq, t.msgs.find s.ctl.nextMsg = some (.home r) ∧ r.who = .thread s.ctl.acting ∧ r.va = va ∧ r.op = op ∧
    r.scope = sc) ∧
  ∃ k : Take, t.me.cont = .reply k ∧ k.rd = rd ∧ k.pd = pd ∧ k.acq = acq

/-- In `t` the acting thread of `s` waits for its releases with a request in hand, which goes to its home afterwards. -/
def State.holdsHome (s t : State) (va : Nat) (op : HomeOp) (sc : Scope) (rd : Option Reg) (pd : Option Pred)
    (acq : Option Scope) : Prop :=
  t.me.run = .waiting ∧ t.me.ctx.pc = s.me.ctx.pc ∧ t.me.ctx.g = s.me.ctx.g ∧ t.me.ctx.psw = s.me.ctx.psw ∧
  ∃ (r : HomeReq) (k : Take), t.me.cont = .send r k ∧ r.who = .thread s.ctl.acting ∧ r.va = va ∧ r.op = op ∧ r.scope = sc ∧
    k.rd = rd ∧ k.pd = pd ∧ k.acq = acq

/-- What a request form leaves (R41, R182): the request is in flight and the thread has left the rotation; with `rel`, when
the cluster still has bytes to write back, it waits for them first. -/
def State.requests (s t : State) (va : Nat) (op : HomeOp) (sc : Scope) (rel : Bool) (rd : Option Reg) (pd : Option Pred)
    (acq : Option Scope) : Prop :=
  if (rel && s.mustWait s.myCluster sc) = true then s.holdsHome t va op sc rd pd acq
  else s.leavesTo t ∧ s.asksHome t va op sc rd pd acq

/-- The tenant of the acting thread's requests. -/
def State.myTenant (s : State) : Nat := s.agentTenant (.thread s.ctl.acting)

/-- Offset `a` of s4 passes the checks of an object form over `n` bytes, and the TLB translates the address `va` (R179). -/
def State.objOk (s : State) (a n va : Nat) (e : TlbEntry) : Prop :=
  (s.seg 4).space = .object ∧ s.segCheck (s.seg 4) a n .o 16 = none ∧ va = (s.seg 4).base.toNat + a ∧ s.tlbHit va .object e

/-- Offset `off` of s3 passes the checks of a TCM operand of `n` bytes (R472). -/
def State.tcmOk (s : State) (off n : Nat) (right : Right) (natural : Nat) : Prop :=
  (s.seg 3).space = .tcm ∧ s.segCheck (s.seg 3) off n right natural = none

/-- The memory key of offset `off` of s3 in the acting core's TCM. -/
def State.tcmAt (s : State) (off : Nat) : Nat := tcmKey s.me.core ((s.seg 3).base.toNat + off)

/-- Every line that a cluster would write back has a translation (R395): none is discarded with a record. -/
def State.writesBack (s : State) (cl : Nat) : Prop :=
  ∀ l ∈ (s.cluster cl).l1, l.dirty ≠ 0 → (s.translateNow cl l.asid (l.va * 128) .writeBack).1.isOk = true

/-- The state with the TLB's use by a translation noted (R392). -/
def State.tlbUsed (s : State) (va : Nat) (k : AccKind) : State :=
  s.setCluster s.myCluster ((s.cluster s.myCluster).lookup (s.asidOf s.myCluster) va k).2

/-- The store check of R146 passes for the entry of a selector in the task's segment table. -/
def State.entryStorable (s : State) (sel : Nat) (e : TlbEntry) : Prop :=
  let va := s.segEntry (s.servedTask s.ctl.acting) sel
  s.tlbHit va .store e ∧ va % 128 + 32 ≤ 128 ∧
    ∀ l, (s.cluster s.myCluster).l1Find (s.asidOf s.myCluster) (va / 128) = some l → l.sealedLine = false

/-! ## Results of the float forms -/

/-- The value of a finite float. -/
def Num.value : Num → ℚ
  | .fin neg m e => (if neg then -1 else 1) * m * (2 : ℚ) ^ e
  | _ => 0

/-- A float that is neither a NaN nor an infinity. -/
def Num.finite : Num → Bool
  | .fin _ _ _ => true
  | _ => false

/-- Round() raises a magnitude that it has truncated to `lo` spacings, with the fraction `d` discarded (R52). -/
def raises (m : Nat) (neg : Bool) (lo : Nat) (d : ℚ) (rnd16 : Nat) : Prop :=
  d ≠ 0 ∧ (m = rne ∧ (1 / 2 < d ∨ (d = 1 / 2 ∧ lo % 2 = 1)) ∨ m = rdn ∧ neg = true ∨ m = rup ∧ neg = false ∨
    m = sto ∧ 2 ^ 16 ≤ ⌊d * 2 ^ 16⌋ + (rnd16 : ℤ))

/-- A code and its flags are Round() of the exact value `v`, which is not zero, into a format, in a mode and with a random word (R52, R53):
the magnitude truncated to the spacing around it, raised as the mode says; what overflows by the mode and the sign. -/
def RoundsTo (f : FFmt) (m rnd16 : Nat) (v : ℚ) (code : Nat) (fl : Byte) : Prop :=
  let neg := decide (v < 0)
  let top := (f.read f.maxCode).value
  ∃ (q : Int) (lo up : Nat) (d : ℚ), |v| = (lo + d) * (2 : ℚ) ^ q ∧ 0 ≤ d ∧ d < 1 ∧ lo < 2 ^ f.p ∧ f.emin - f.p + 1 ≤ q ∧
    (q = f.emin - f.p + 1 ∨ 2 ^ (f.p - 1) ≤ lo) ∧ up ≤ 1 ∧ (up = 1 ↔ raises m neg lo d rnd16) ∧
    let r : ℚ := (lo + up) * (2 : ℚ) ^ q
    (r ≤ top → (f.read code).finite = true ∧ (f.read code).value = (if neg then -r else r) ∧
      (f.hasInf = true → bit code (f.w - 1) = neg) ∧
      fl = if d = 0 then 0 else if |v| < (2 : ℚ) ^ f.emin then flagNX ||| flagUF else flagNX) ∧
    (top < r → if f.hasInf then
        fl = (flagOF ||| flagNX) ∧ code = f.code neg
          (if m = rtz ∨ m = rdn ∧ neg = false ∨ m = rup ∧ neg = true then f.maxCode else f.maxCode + 1)
      else fl = (flagSAT ||| flagNX) ∧ code = f.code neg f.maxCode)

/-- From every rounding context a computation gives Round() of `v` (R52) with one call of Sto() in STO mode (R56): its code, its flags added
to those that stand, the generator as the call leaves it; an exact zero has the sign that `zeroNeg` gives for the mode, and no flag. -/
def GivesRound (f : FFmt) (c : R Nat) (v : ℚ) (zeroNeg : Nat → Bool) : Prop :=
  ∀ k : Rnd, k.frm ≤ 4 → ∃ fl,
    let g := if k.frm = sto then srgStep k.srg else k.srg
    (c.run k).2 = { k with srg := g, flags := k.flags ||| fl } ∧
    (v = 0 → (c.run k).1 = f.code (zeroNeg k.frm) 0 ∧ fl = 0) ∧
    (v ≠ 0 → RoundsTo f k.frm (g.toNat / 2 ^ 48) v (c.run k).1 fl)

/-- The state with a result written that roundings gave: the register, the flags and the generator (R56, R197). -/
def State.putRounded (s : State) (rd : Reg) (r : Word × Rnd) : State :=
  (s.put rd r.1).updMe fun t => { t with
    ctx := { t.ctx with psw := pswOrFlags t.ctx.psw r.2.flags, srg := r.2.srg } }

/-- A computation with roundings run with the acting thread's mode and generator. -/
def State.runRounded (s : State) (c : R Nat) : Word × Rnd :=
  let r := runR c s.me.ctx.psw s.me.ctx.srg
  (BitVec.ofNat 64 r.1, r.2)

/-- What the special-function unit answers to an operation (R210): the word, the predicate and the flags. -/
def SfuOp.answer (op : SfuOp) (a b psw srg : Word) : Word × Bool × Byte :=
  let r := (SfuEntry.mk 0 op none none a b psw 0).result srg
  (r.1, r.2.1, r.2.2.flags)

/-- A zero and an infinity of FP32 by sign. -/
def zero32 (neg : Bool) : Word := if neg then 0x80000000 else 0
def inf32 (neg : Bool) : Word := if neg then 0xFF800000 else 0x7F800000

/-- In `t` the acting thread of `s` has an operation in its core's special-function queue, behind those that stood there,
and has left the rotation with nothing else changed (R210). -/
def State.entersUnit (s t : State) (op : SfuOp) (rd : Option Reg) (pd : Option Pred) (a b : Word) : Prop :=
  t.ctl.acting = s.ctl.acting ∧
  (t.core s.me.core).sfu =
    (s.core s.me.core).sfu ++ [⟨s.ctl.acting, op, rd, pd, a, b, s.me.ctx.psw, s.ctl.cycle + 1⟩] ∧
  t.me.run = .sfu ∧ t.me.ctx = s.me.ctx ∧ t.mem = s.mem

end Sys2Proof.Machine
end

