-- ==== Sys2Proof/Laws/State.lean ====
section
/-! SUPPORT. What each update of the state leaves: one lemma for each field that it does not touch, and the field that it
does. -/

-- One theorem at a time: a theorem that waits for the kernel holds a thread, and each thread takes stack.
set_option Elab.async false

namespace Sys2Proof.Machine

@[simp] theorem State.setThread_ctl (s : State) (i : Nat) (t : Thread) : (s.setThread i t).ctl = s.ctl := rfl
@[simp] theorem State.setThread_mem (s : State) (i : Nat) (t : Thread) : (s.setThread i t).mem = s.mem := rfl
@[simp] theorem State.setThread_cores (s : State) (i : Nat) (t : Thread) : (s.setThread i t).cores = s.cores := rfl
@[simp] theorem State.setThread_clusters (s : State) (i : Nat) (t : Thread) : (s.setThread i t).clusters = s.clusters := rfl
@[simp] theorem State.setThread_slices (s : State) (i : Nat) (t : Thread) : (s.setThread i t).slices = s.slices := rfl
@[simp] theorem State.setThread_dies (s : State) (i : Nat) (t : Thread) : (s.setThread i t).dies = s.dies := rfl
@[simp] theorem State.setThread_xdies (s : State) (i : Nat) (t : Thread) : (s.setThread i t).xdies = s.xdies := rfl
@[simp] theorem State.setThread_ports (s : State) (i : Nat) (t : Thread) : (s.setThread i t).ports = s.ports := rfl
@[simp] theorem State.setThread_dev (s : State) (i : Nat) (t : Thread) : (s.setThread i t).dev = s.dev := rfl
@[simp] theorem State.setThread_jobs (s : State) (i : Nat) (t : Thread) : (s.setThread i t).jobs = s.jobs := rfl
@[simp] theorem State.setThread_msgs (s : State) (i : Nat) (t : Thread) : (s.setThread i t).msgs = s.msgs := rfl
@[simp] theorem State.setThread_flash (s : State) (i : Nat) (t : Thread) : (s.setThread i t).flash = s.flash := rfl

@[simp] theorem State.updThread_ctl (s : State) (i : Nat) (f : Thread → Thread) : (s.updThread i f).ctl = s.ctl := rfl
@[simp] theorem State.updThread_mem (s : State) (i : Nat) (f : Thread → Thread) : (s.updThread i f).mem = s.mem := rfl
@[simp] theorem State.updThread_cores (s : State) (i : Nat) (f : Thread → Thread) : (s.updThread i f).cores = s.cores := rfl
@[simp] theorem State.updThread_clusters (s : State) (i : Nat) (f : Thread → Thread) : (s.updThread i f).clusters = s.clusters := rfl
@[simp] theorem State.updThread_slices (s : State) (i : Nat) (f : Thread → Thread) : (s.updThread i f).slices = s.slices := rfl
@[simp] theorem State.updThread_dies (s : State) (i : Nat) (f : Thread → Thread) : (s.updThread i f).dies = s.dies := rfl
@[simp] theorem State.updThread_xdies (s : State) (i : Nat) (f : Thread → Thread) : (s.updThread i f).xdies = s.xdies := rfl
@[simp] theorem State.updThread_ports (s : State) (i : Nat) (f : Thread → Thread) : (s.updThread i f).ports = s.ports := rfl
@[simp] theorem State.updThread_dev (s : State) (i : Nat) (f : Thread → Thread) : (s.updThread i f).dev = s.dev := rfl
@[simp] theorem State.updThread_jobs (s : State) (i : Nat) (f : Thread → Thread) : (s.updThread i f).jobs = s.jobs := rfl
@[simp] theorem State.updThread_msgs (s : State) (i : Nat) (f : Thread → Thread) : (s.updThread i f).msgs = s.msgs := rfl
@[simp] theorem State.updThread_flash (s : State) (i : Nat) (f : Thread → Thread) : (s.updThread i f).flash = s.flash := rfl

@[simp] theorem State.setCore_ctl (s : State) (i : Nat) (x : Core) : (s.setCore i x).ctl = s.ctl := rfl
@[simp] theorem State.setCore_mem (s : State) (i : Nat) (x : Core) : (s.setCore i x).mem = s.mem := rfl
@[simp] theorem State.setCore_threads (s : State) (i : Nat) (x : Core) : (s.setCore i x).threads = s.threads := rfl
@[simp] theorem State.setCore_clusters (s : State) (i : Nat) (x : Core) : (s.setCore i x).clusters = s.clusters := rfl
@[simp] theorem State.setCore_slices (s : State) (i : Nat) (x : Core) : (s.setCore i x).slices = s.slices := rfl
@[simp] theorem State.setCore_dies (s : State) (i : Nat) (x : Core) : (s.setCore i x).dies = s.dies := rfl
@[simp] theorem State.setCore_xdies (s : State) (i : Nat) (x : Core) : (s.setCore i x).xdies = s.xdies := rfl
@[simp] theorem State.setCore_ports (s : State) (i : Nat) (x : Core) : (s.setCore i x).ports = s.ports := rfl
@[simp] theorem State.setCore_dev (s : State) (i : Nat) (x : Core) : (s.setCore i x).dev = s.dev := rfl
@[simp] theorem State.setCore_jobs (s : State) (i : Nat) (x : Core) : (s.setCore i x).jobs = s.jobs := rfl
@[simp] theorem State.setCore_msgs (s : State) (i : Nat) (x : Core) : (s.setCore i x).msgs = s.msgs := rfl
@[simp] theorem State.setCore_flash (s : State) (i : Nat) (x : Core) : (s.setCore i x).flash = s.flash := rfl

@[simp] theorem State.updCore_ctl (s : State) (i : Nat) (f : Core → Core) : (s.updCore i f).ctl = s.ctl := rfl
@[simp] theorem State.updCore_mem (s : State) (i : Nat) (f : Core → Core) : (s.updCore i f).mem = s.mem := rfl
@[simp] theorem State.updCore_threads (s : State) (i : Nat) (f : Core → Core) : (s.updCore i f).threads = s.threads := rfl
@[simp] theorem State.updCore_clusters (s : State) (i : Nat) (f : Core → Core) : (s.updCore i f).clusters = s.clusters := rfl
@[simp] theorem State.updCore_slices (s : State) (i : Nat) (f : Core → Core) : (s.updCore i f).slices = s.slices := rfl
@[simp] theorem State.updCore_dies (s : State) (i : Nat) (f : Core → Core) : (s.updCore i f).dies = s.dies := rfl
@[simp] theorem State.updCore_xdies (s : State) (i : Nat) (f : Core → Core) : (s.updCore i f).xdies = s.xdies := rfl
@[simp] theorem State.updCore_ports (s : State) (i : Nat) (f : Core → Core) : (s.updCore i f).ports = s.ports := rfl
@[simp] theorem State.updCore_dev (s : State) (i : Nat) (f : Core → Core) : (s.updCore i f).dev = s.dev := rfl
@[simp] theorem State.updCore_jobs (s : State) (i : Nat) (f : Core → Core) : (s.updCore i f).jobs = s.jobs := rfl
@[simp] theorem State.updCore_msgs (s : State) (i : Nat) (f : Core → Core) : (s.updCore i f).msgs = s.msgs := rfl
@[simp] theorem State.updCore_flash (s : State) (i : Nat) (f : Core → Core) : (s.updCore i f).flash = s.flash := rfl

@[simp] theorem State.setCluster_ctl (s : State) (i : Nat) (x : Cluster) : (s.setCluster i x).ctl = s.ctl := rfl
@[simp] theorem State.setCluster_mem (s : State) (i : Nat) (x : Cluster) : (s.setCluster i x).mem = s.mem := rfl
@[simp] theorem State.setCluster_threads (s : State) (i : Nat) (x : Cluster) : (s.setCluster i x).threads = s.threads := rfl
@[simp] theorem State.setCluster_cores (s : State) (i : Nat) (x : Cluster) : (s.setCluster i x).cores = s.cores := rfl
@[simp] theorem State.setCluster_slices (s : State) (i : Nat) (x : Cluster) : (s.setCluster i x).slices = s.slices := rfl
@[simp] theorem State.setCluster_dies (s : State) (i : Nat) (x : Cluster) : (s.setCluster i x).dies = s.dies := rfl
@[simp] theorem State.setCluster_xdies (s : State) (i : Nat) (x : Cluster) : (s.setCluster i x).xdies = s.xdies := rfl
@[simp] theorem State.setCluster_ports (s : State) (i : Nat) (x : Cluster) : (s.setCluster i x).ports = s.ports := rfl
@[simp] theorem State.setCluster_dev (s : State) (i : Nat) (x : Cluster) : (s.setCluster i x).dev = s.dev := rfl
@[simp] theorem State.setCluster_jobs (s : State) (i : Nat) (x : Cluster) : (s.setCluster i x).jobs = s.jobs := rfl
@[simp] theorem State.setCluster_msgs (s : State) (i : Nat) (x : Cluster) : (s.setCluster i x).msgs = s.msgs := rfl
@[simp] theorem State.setCluster_flash (s : State) (i : Nat) (x : Cluster) : (s.setCluster i x).flash = s.flash := rfl

@[simp] theorem State.updCluster_ctl (s : State) (i : Nat) (f : Cluster → Cluster) : (s.updCluster i f).ctl = s.ctl := rfl
@[simp] theorem State.updCluster_mem (s : State) (i : Nat) (f : Cluster → Cluster) : (s.updCluster i f).mem = s.mem := rfl
@[simp] theorem State.updCluster_threads (s : State) (i : Nat) (f : Cluster → Cluster) : (s.updCluster i f).threads = s.threads := rfl
@[simp] theorem State.updCluster_cores (s : State) (i : Nat) (f : Cluster → Cluster) : (s.updCluster i f).cores = s.cores := rfl
@[simp] theorem State.updCluster_slices (s : State) (i : Nat) (f : Cluster → Cluster) : (s.updCluster i f).slices = s.slices := rfl
@[simp] theorem State.updCluster_dies (s : State) (i : Nat) (f : Cluster → Cluster) : (s.updCluster i f).dies = s.dies := rfl
@[simp] theorem State.updCluster_xdies (s : State) (i : Nat) (f : Cluster → Cluster) : (s.updCluster i f).xdies = s.xdies := rfl
@[simp] theorem State.updCluster_ports (s : State) (i : Nat) (f : Cluster → Cluster) : (s.updCluster i f).ports = s.ports := rfl
@[simp] theorem State.updCluster_dev (s : State) (i : Nat) (f : Cluster → Cluster) : (s.updCluster i f).dev = s.dev := rfl
@[simp] theorem State.updCluster_jobs (s : State) (i : Nat) (f : Cluster → Cluster) : (s.updCluster i f).jobs = s.jobs := rfl
@[simp] theorem State.updCluster_msgs (s : State) (i : Nat) (f : Cluster → Cluster) : (s.updCluster i f).msgs = s.msgs := rfl
@[simp] theorem State.updCluster_flash (s : State) (i : Nat) (f : Cluster → Cluster) : (s.updCluster i f).flash = s.flash := rfl

@[simp] theorem State.updSlice_ctl (s : State) (i : Nat) (f : Slice → Slice) : (s.updSlice i f).ctl = s.ctl := rfl
@[simp] theorem State.updSlice_mem (s : State) (i : Nat) (f : Slice → Slice) : (s.updSlice i f).mem = s.mem := rfl
@[simp] theorem State.updSlice_threads (s : State) (i : Nat) (f : Slice → Slice) : (s.updSlice i f).threads = s.threads := rfl
@[simp] theorem State.updSlice_cores (s : State) (i : Nat) (f : Slice → Slice) : (s.updSlice i f).cores = s.cores := rfl
@[simp] theorem State.updSlice_clusters (s : State) (i : Nat) (f : Slice → Slice) : (s.updSlice i f).clusters = s.clusters := rfl
@[simp] theorem State.updSlice_dies (s : State) (i : Nat) (f : Slice → Slice) : (s.updSlice i f).dies = s.dies := rfl
@[simp] theorem State.updSlice_xdies (s : State) (i : Nat) (f : Slice → Slice) : (s.updSlice i f).xdies = s.xdies := rfl
@[simp] theorem State.updSlice_ports (s : State) (i : Nat) (f : Slice → Slice) : (s.updSlice i f).ports = s.ports := rfl
@[simp] theorem State.updSlice_dev (s : State) (i : Nat) (f : Slice → Slice) : (s.updSlice i f).dev = s.dev := rfl
@[simp] theorem State.updSlice_jobs (s : State) (i : Nat) (f : Slice → Slice) : (s.updSlice i f).jobs = s.jobs := rfl
@[simp] theorem State.updSlice_msgs (s : State) (i : Nat) (f : Slice → Slice) : (s.updSlice i f).msgs = s.msgs := rfl
@[simp] theorem State.updSlice_flash (s : State) (i : Nat) (f : Slice → Slice) : (s.updSlice i f).flash = s.flash := rfl

@[simp] theorem State.updDie_ctl (s : State) (i : Nat) (f : Die → Die) : (s.updDie i f).ctl = s.ctl := rfl
@[simp] theorem State.updDie_mem (s : State) (i : Nat) (f : Die → Die) : (s.updDie i f).mem = s.mem := rfl
@[simp] theorem State.updDie_threads (s : State) (i : Nat) (f : Die → Die) : (s.updDie i f).threads = s.threads := rfl
@[simp] theorem State.updDie_cores (s : State) (i : Nat) (f : Die → Die) : (s.updDie i f).cores = s.cores := rfl
@[simp] theorem State.updDie_clusters (s : State) (i : Nat) (f : Die → Die) : (s.updDie i f).clusters = s.clusters := rfl
@[simp] theorem State.updDie_slices (s : State) (i : Nat) (f : Die → Die) : (s.updDie i f).slices = s.slices := rfl
@[simp] theorem State.updDie_xdies (s : State) (i : Nat) (f : Die → Die) : (s.updDie i f).xdies = s.xdies := rfl
@[simp] theorem State.updDie_ports (s : State) (i : Nat) (f : Die → Die) : (s.updDie i f).ports = s.ports := rfl
@[simp] theorem State.updDie_dev (s : State) (i : Nat) (f : Die → Die) : (s.updDie i f).dev = s.dev := rfl
@[simp] theorem State.updDie_jobs (s : State) (i : Nat) (f : Die → Die) : (s.updDie i f).jobs = s.jobs := rfl
@[simp] theorem State.updDie_msgs (s : State) (i : Nat) (f : Die → Die) : (s.updDie i f).msgs = s.msgs := rfl
@[simp] theorem State.updDie_flash (s : State) (i : Nat) (f : Die → Die) : (s.updDie i f).flash = s.flash := rfl

@[simp] theorem State.updXdie_ctl (s : State) (i : Nat) (f : XDie → XDie) : (s.updXdie i f).ctl = s.ctl := rfl
@[simp] theorem State.updXdie_mem (s : State) (i : Nat) (f : XDie → XDie) : (s.updXdie i f).mem = s.mem := rfl
@[simp] theorem State.updXdie_threads (s : State) (i : Nat) (f : XDie → XDie) : (s.updXdie i f).threads = s.threads := rfl
@[simp] theorem State.updXdie_cores (s : State) (i : Nat) (f : XDie → XDie) : (s.updXdie i f).cores = s.cores := rfl
@[simp] theorem State.updXdie_clusters (s : State) (i : Nat) (f : XDie → XDie) : (s.updXdie i f).clusters = s.clusters := rfl
@[simp] theorem State.updXdie_slices (s : State) (i : Nat) (f : XDie → XDie) : (s.updXdie i f).slices = s.slices := rfl
@[simp] theorem State.updXdie_dies (s : State) (i : Nat) (f : XDie → XDie) : (s.updXdie i f).dies = s.dies := rfl
@[simp] theorem State.updXdie_ports (s : State) (i : Nat) (f : XDie → XDie) : (s.updXdie i f).ports = s.ports := rfl
@[simp] theorem State.updXdie_dev (s : State) (i : Nat) (f : XDie → XDie) : (s.updXdie i f).dev = s.dev := rfl
@[simp] theorem State.updXdie_jobs (s : State) (i : Nat) (f : XDie → XDie) : (s.updXdie i f).jobs = s.jobs := rfl
@[simp] theorem State.updXdie_msgs (s : State) (i : Nat) (f : XDie → XDie) : (s.updXdie i f).msgs = s.msgs := rfl
@[simp] theorem State.updXdie_flash (s : State) (i : Nat) (f : XDie → XDie) : (s.updXdie i f).flash = s.flash := rfl

@[simp] theorem State.updPort_ctl (s : State) (i : Nat) (f : Port → Port) : (s.updPort i f).ctl = s.ctl := rfl
@[simp] theorem State.updPort_mem (s : State) (i : Nat) (f : Port → Port) : (s.updPort i f).mem = s.mem := rfl
@[simp] theorem State.updPort_threads (s : State) (i : Nat) (f : Port → Port) : (s.updPort i f).threads = s.threads := rfl
@[simp] theorem State.updPort_cores (s : State) (i : Nat) (f : Port → Port) : (s.updPort i f).cores = s.cores := rfl
@[simp] theorem State.updPort_clusters (s : State) (i : Nat) (f : Port → Port) : (s.updPort i f).clusters = s.clusters := rfl
@[simp] theorem State.updPort_slices (s : State) (i : Nat) (f : Port → Port) : (s.updPort i f).slices = s.slices := rfl
@[simp] theorem State.updPort_dies (s : State) (i : Nat) (f : Port → Port) : (s.updPort i f).dies = s.dies := rfl
@[simp] theorem State.updPort_xdies (s : State) (i : Nat) (f : Port → Port) : (s.updPort i f).xdies = s.xdies := rfl
@[simp] theorem State.updPort_dev (s : State) (i : Nat) (f : Port → Port) : (s.updPort i f).dev = s.dev := rfl
@[simp] theorem State.updPort_jobs (s : State) (i : Nat) (f : Port → Port) : (s.updPort i f).jobs = s.jobs := rfl
@[simp] theorem State.updPort_msgs (s : State) (i : Nat) (f : Port → Port) : (s.updPort i f).msgs = s.msgs := rfl
@[simp] theorem State.updPort_flash (s : State) (i : Nat) (f : Port → Port) : (s.updPort i f).flash = s.flash := rfl

@[simp] theorem State.updDev_ctl (s : State) (f : Device → Device) : (s.updDev f).ctl = s.ctl := rfl
@[simp] theorem State.updDev_mem (s : State) (f : Device → Device) : (s.updDev f).mem = s.mem := rfl
@[simp] theorem State.updDev_threads (s : State) (f : Device → Device) : (s.updDev f).threads = s.threads := rfl
@[simp] theorem State.updDev_cores (s : State) (f : Device → Device) : (s.updDev f).cores = s.cores := rfl
@[simp] theorem State.updDev_clusters (s : State) (f : Device → Device) : (s.updDev f).clusters = s.clusters := rfl
@[simp] theorem State.updDev_slices (s : State) (f : Device → Device) : (s.updDev f).slices = s.slices := rfl
@[simp] theorem State.updDev_dies (s : State) (f : Device → Device) : (s.updDev f).dies = s.dies := rfl
@[simp] theorem State.updDev_xdies (s : State) (f : Device → Device) : (s.updDev f).xdies = s.xdies := rfl
@[simp] theorem State.updDev_ports (s : State) (f : Device → Device) : (s.updDev f).ports = s.ports := rfl
@[simp] theorem State.updDev_jobs (s : State) (f : Device → Device) : (s.updDev f).jobs = s.jobs := rfl
@[simp] theorem State.updDev_msgs (s : State) (f : Device → Device) : (s.updDev f).msgs = s.msgs := rfl
@[simp] theorem State.updDev_flash (s : State) (f : Device → Device) : (s.updDev f).flash = s.flash := rfl

@[simp] theorem State.updCtl_mem (s : State) (f : Ctl → Ctl) : (s.updCtl f).mem = s.mem := rfl
@[simp] theorem State.updCtl_threads (s : State) (f : Ctl → Ctl) : (s.updCtl f).threads = s.threads := rfl
@[simp] theorem State.updCtl_cores (s : State) (f : Ctl → Ctl) : (s.updCtl f).cores = s.cores := rfl
@[simp] theorem State.updCtl_clusters (s : State) (f : Ctl → Ctl) : (s.updCtl f).clusters = s.clusters := rfl
@[simp] theorem State.updCtl_slices (s : State) (f : Ctl → Ctl) : (s.updCtl f).slices = s.slices := rfl
@[simp] theorem State.updCtl_dies (s : State) (f : Ctl → Ctl) : (s.updCtl f).dies = s.dies := rfl
@[simp] theorem State.updCtl_xdies (s : State) (f : Ctl → Ctl) : (s.updCtl f).xdies = s.xdies := rfl
@[simp] theorem State.updCtl_ports (s : State) (f : Ctl → Ctl) : (s.updCtl f).ports = s.ports := rfl
@[simp] theorem State.updCtl_dev (s : State) (f : Ctl → Ctl) : (s.updCtl f).dev = s.dev := rfl
@[simp] theorem State.updCtl_jobs (s : State) (f : Ctl → Ctl) : (s.updCtl f).jobs = s.jobs := rfl
@[simp] theorem State.updCtl_msgs (s : State) (f : Ctl → Ctl) : (s.updCtl f).msgs = s.msgs := rfl
@[simp] theorem State.updCtl_flash (s : State) (f : Ctl → Ctl) : (s.updCtl f).flash = s.flash := rfl

@[simp] theorem State.updMe_ctl (s : State) (f : Thread → Thread) : (s.updMe f).ctl = s.ctl := rfl
@[simp] theorem State.updMe_mem (s : State) (f : Thread → Thread) : (s.updMe f).mem = s.mem := rfl
@[simp] theorem State.updMe_cores (s : State) (f : Thread → Thread) : (s.updMe f).cores = s.cores := rfl
@[simp] theorem State.updMe_clusters (s : State) (f : Thread → Thread) : (s.updMe f).clusters = s.clusters := rfl
@[simp] theorem State.updMe_slices (s : State) (f : Thread → Thread) : (s.updMe f).slices = s.slices := rfl
@[simp] theorem State.updMe_dies (s : State) (f : Thread → Thread) : (s.updMe f).dies = s.dies := rfl
@[simp] theorem State.updMe_xdies (s : State) (f : Thread → Thread) : (s.updMe f).xdies = s.xdies := rfl
@[simp] theorem State.updMe_ports (s : State) (f : Thread → Thread) : (s.updMe f).ports = s.ports := rfl
@[simp] theorem State.updMe_dev (s : State) (f : Thread → Thread) : (s.updMe f).dev = s.dev := rfl
@[simp] theorem State.updMe_jobs (s : State) (f : Thread → Thread) : (s.updMe f).jobs = s.jobs := rfl
@[simp] theorem State.updMe_msgs (s : State) (f : Thread → Thread) : (s.updMe f).msgs = s.msgs := rfl
@[simp] theorem State.updMe_flash (s : State) (f : Thread → Thread) : (s.updMe f).flash = s.flash := rfl

@[simp] theorem State.updDev_dev (s : State) (f : Device → Device) : (s.updDev f).dev = f s.dev := rfl
@[simp] theorem State.updCtl_ctl (s : State) (f : Ctl → Ctl) : (s.updCtl f).ctl = f s.ctl := rfl

/-! ## Tables -/

theorem Tbl_find_set_self {α : Type} (t : Tbl α) (k : Nat) (v : α) : (t.set k v).find k = some v := by
  induction t with
  | nil => simp [Tbl.set, Tbl.find]
  | cons x t ih =>
    simp only [Tbl.set]
    split
    · simp [Tbl.find]
    · split
      · simp [Tbl.find]
      · simp [Tbl.find, *]

theorem Tbl_find_set_ne {α : Type} (t : Tbl α) {k j : Nat} (v : α) (h : j ≠ k) : (t.set k v).find j = t.find j := by
  induction t with
  | nil => simp [Tbl.set, Tbl.find, h]
  | cons x t ih =>
    obtain ⟨i, w⟩ := x
    simp only [Tbl.set]
    split
    · subst_vars
      simp only [Tbl.find, h, if_false]
    · split
      · simp only [Tbl.find, h, if_false]
      · simp only [Tbl.find, ih]

theorem Tbl_find_erase_self {α : Type} (t : Tbl α) (k : Nat) : (t.erase k).find k = none := by
  induction t with
  | nil => rfl
  | cons x t ih =>
    obtain ⟨i, w⟩ := x
    simp only [Tbl.erase] at *
    by_cases h : i = k
    · simp [h, ih]
    · simp [h, Tbl.find, Ne.symm h, ih]

theorem Tbl_find_erase_ne {α : Type} (t : Tbl α) {k j : Nat} (h : j ≠ k) : (t.erase k).find j = t.find j := by
  induction t with
  | nil => rfl
  | cons x t ih =>
    obtain ⟨i, w⟩ := x
    simp only [Tbl.erase] at *
    by_cases hi : i = k
    · subst hi
      simp [Tbl.find, h, ih]
    · simp [hi, Tbl.find, ih]

theorem Tbl_get_eq {α : Type} (d : α) (t : Tbl α) (k : Nat) : t.get d k = (t.find k).getD d := by
  induction t with
  | nil => rfl
  | cons x t ih =>
    simp only [Tbl.get, Tbl.find]
    split
    · rfl
    · exact ih

/-! ## Threads -/

@[simp] theorem State.thread_setThread (s : State) (i : Nat) (t : Thread) : (s.setThread i t).thread i = t := by
  simp [State.thread, State.setThread, Tbl_find_set_self]

@[simp] theorem State.thread_setThread_ne (s : State) {i j : Nat} (t : Thread) (h : j ≠ i) :
    (s.setThread i t).thread j = s.thread j := by
  simp [State.thread, State.setThread, Tbl_find_set_ne _ _ h]

@[simp] theorem State.thread_updThread (s : State) (i : Nat) (f : Thread → Thread) :
    (s.updThread i f).thread i = f (s.thread i) := s.thread_setThread i _

@[simp] theorem State.thread_updThread_ne (s : State) {i j : Nat} (f : Thread → Thread) (h : j ≠ i) :
    (s.updThread i f).thread j = s.thread j := s.thread_setThread_ne _ h

@[simp] theorem State.me_updMe (s : State) (f : Thread → Thread) : (s.updMe f).me = f s.me :=
  s.thread_updThread s.ctl.acting f

/-! ## The acting thread under the other updates -/

@[simp] theorem State.setCore_me (s : State) (i : Nat) (x : Core) : (s.setCore i x).me = s.me := rfl
@[simp] theorem State.setCore_thread (s : State) (i : Nat) (x : Core) (j : Nat) : (s.setCore i x).thread j = s.thread j := rfl
@[simp] theorem State.updCore_me (s : State) (i : Nat) (f : Core → Core) : (s.updCore i f).me = s.me := rfl
@[simp] theorem State.updCore_thread (s : State) (i : Nat) (f : Core → Core) (j : Nat) : (s.updCore i f).thread j = s.thread j := rfl
@[simp] theorem State.setCluster_me (s : State) (i : Nat) (x : Cluster) : (s.setCluster i x).me = s.me := rfl
@[simp] theorem State.setCluster_thread (s : State) (i : Nat) (x : Cluster) (j : Nat) : (s.setCluster i x).thread j = s.thread j := rfl
@[simp] theorem State.updCluster_me (s : State) (i : Nat) (f : Cluster → Cluster) : (s.updCluster i f).me = s.me := rfl
@[simp] theorem State.updCluster_thread (s : State) (i : Nat) (f : Cluster → Cluster) (j : Nat) : (s.updCluster i f).thread j = s.thread j := rfl
@[simp] theorem State.updSlice_me (s : State) (i : Nat) (f : Slice → Slice) : (s.updSlice i f).me = s.me := rfl
@[simp] theorem State.updSlice_thread (s : State) (i : Nat) (f : Slice → Slice) (j : Nat) : (s.updSlice i f).thread j = s.thread j := rfl
@[simp] theorem State.updDie_me (s : State) (i : Nat) (f : Die → Die) : (s.updDie i f).me = s.me := rfl
@[simp] theorem State.updDie_thread (s : State) (i : Nat) (f : Die → Die) (j : Nat) : (s.updDie i f).thread j = s.thread j := rfl
@[simp] theorem State.updXdie_me (s : State) (i : Nat) (f : XDie → XDie) : (s.updXdie i f).me = s.me := rfl
@[simp] theorem State.updXdie_thread (s : State) (i : Nat) (f : XDie → XDie) (j : Nat) : (s.updXdie i f).thread j = s.thread j := rfl
@[simp] theorem State.updPort_me (s : State) (i : Nat) (f : Port → Port) : (s.updPort i f).me = s.me := rfl
@[simp] theorem State.updPort_thread (s : State) (i : Nat) (f : Port → Port) (j : Nat) : (s.updPort i f).thread j = s.thread j := rfl
@[simp] theorem State.updDev_me (s : State) (f : Device → Device) : (s.updDev f).me = s.me := rfl
@[simp] theorem State.updDev_thread (s : State) (f : Device → Device) (j : Nat) : (s.updDev f).thread j = s.thread j := rfl
@[simp] theorem State.setThread_isSlot0 (s : State) (i : Nat) (t : Thread) : (s.setThread i t).isSlot0 = s.isSlot0 := rfl
@[simp] theorem State.updThread_isSlot0 (s : State) (i : Nat) (f : Thread → Thread) : (s.updThread i f).isSlot0 = s.isSlot0 := rfl
@[simp] theorem State.setCore_isSlot0 (s : State) (i : Nat) (x : Core) : (s.setCore i x).isSlot0 = s.isSlot0 := rfl
@[simp] theorem State.updCore_isSlot0 (s : State) (i : Nat) (f : Core → Core) : (s.updCore i f).isSlot0 = s.isSlot0 := rfl
@[simp] theorem State.setCluster_isSlot0 (s : State) (i : Nat) (x : Cluster) : (s.setCluster i x).isSlot0 = s.isSlot0 := rfl
@[simp] theorem State.updCluster_isSlot0 (s : State) (i : Nat) (f : Cluster → Cluster) : (s.updCluster i f).isSlot0 = s.isSlot0 := rfl
@[simp] theorem State.updSlice_isSlot0 (s : State) (i : Nat) (f : Slice → Slice) : (s.updSlice i f).isSlot0 = s.isSlot0 := rfl
@[simp] theorem State.updDie_isSlot0 (s : State) (i : Nat) (f : Die → Die) : (s.updDie i f).isSlot0 = s.isSlot0 := rfl
@[simp] theorem State.updXdie_isSlot0 (s : State) (i : Nat) (f : XDie → XDie) : (s.updXdie i f).isSlot0 = s.isSlot0 := rfl
@[simp] theorem State.updPort_isSlot0 (s : State) (i : Nat) (f : Port → Port) : (s.updPort i f).isSlot0 = s.isSlot0 := rfl
@[simp] theorem State.updDev_isSlot0 (s : State) (f : Device → Device) : (s.updDev f).isSlot0 = s.isSlot0 := rfl
@[simp] theorem State.updMe_isSlot0 (s : State) (f : Thread → Thread) : (s.updMe f).isSlot0 = s.isSlot0 := rfl
@[simp] theorem State.setThread_breakpoint (s : State) (i : Nat) (t : Thread) (g : BitVec 32) (a : Nat) : (s.setThread i t).breakpoint g a = s.breakpoint g a := rfl
@[simp] theorem State.updThread_breakpoint (s : State) (i : Nat) (f : Thread → Thread) (g : BitVec 32) (a : Nat) : (s.updThread i f).breakpoint g a = s.breakpoint g a := rfl
@[simp] theorem State.setCore_breakpoint (s : State) (i : Nat) (x : Core) (g : BitVec 32) (a : Nat) : (s.setCore i x).breakpoint g a = s.breakpoint g a := rfl
@[simp] theorem State.updCore_breakpoint (s : State) (i : Nat) (f : Core → Core) (g : BitVec 32) (a : Nat) : (s.updCore i f).breakpoint g a = s.breakpoint g a := rfl
@[simp] theorem State.setCluster_breakpoint (s : State) (i : Nat) (x : Cluster) (g : BitVec 32) (a : Nat) : (s.setCluster i x).breakpoint g a = s.breakpoint g a := rfl
@[simp] theorem State.updCluster_breakpoint (s : State) (i : Nat) (f : Cluster → Cluster) (g : BitVec 32) (a : Nat) : (s.updCluster i f).breakpoint g a = s.breakpoint g a := rfl
@[simp] theorem State.updSlice_breakpoint (s : State) (i : Nat) (f : Slice → Slice) (g : BitVec 32) (a : Nat) : (s.updSlice i f).breakpoint g a = s.breakpoint g a := rfl
@[simp] theorem State.updDie_breakpoint (s : State) (i : Nat) (f : Die → Die) (g : BitVec 32) (a : Nat) : (s.updDie i f).breakpoint g a = s.breakpoint g a := rfl
@[simp] theorem State.updXdie_breakpoint (s : State) (i : Nat) (f : XDie → XDie) (g : BitVec 32) (a : Nat) : (s.updXdie i f).breakpoint g a = s.breakpoint g a := rfl
@[simp] theorem State.updPort_breakpoint (s : State) (i : Nat) (f : Port → Port) (g : BitVec 32) (a : Nat) : (s.updPort i f).breakpoint g a = s.breakpoint g a := rfl
@[simp] theorem State.updCtl_breakpoint (s : State) (f : Ctl → Ctl) (g : BitVec 32) (a : Nat) : (s.updCtl f).breakpoint g a = s.breakpoint g a := rfl
@[simp] theorem State.updMe_breakpoint (s : State) (f : Thread → Thread) (g : BitVec 32) (a : Nat) : (s.updMe f).breakpoint g a = s.breakpoint g a := rfl

/-! ## The terms of Safety -/

@[simp] theorem State.put_acting (s : State) (r : Reg) (v : Word) : (s.put r v).ctl = s.ctl := by cases r <;> rfl
@[simp] theorem State.put_mem (s : State) (r : Reg) (v : Word) : (s.put r v).mem = s.mem := by cases r <;> rfl
@[simp] theorem State.put_dev (s : State) (r : Reg) (v : Word) : (s.put r v).dev = s.dev := by cases r <;> rfl
@[simp] theorem State.put_clusters (s : State) (r : Reg) (v : Word) : (s.put r v).clusters = s.clusters := by cases r <;> rfl
@[simp] theorem State.put_cores (s : State) (r : Reg) (v : Word) : (s.put r v).cores = s.cores := by cases r <;> rfl
@[simp] theorem State.put_isSlot0 (s : State) (r : Reg) (v : Word) : (s.put r v).isSlot0 = s.isSlot0 := by cases r <;> rfl
@[simp] theorem State.put_pc (s : State) (r : Reg) (v : Word) : (s.put r v).me.ctx.pc = s.me.ctx.pc := by
  cases r <;> simp [State.put]
@[simp] theorem State.put_psw (s : State) (r : Reg) (v : Word) : (s.put r v).me.ctx.psw = s.me.ctx.psw := by
  cases r <;> simp [State.put]
@[simp] theorem State.put_gtid (s : State) (r : Reg) (v : Word) : (s.put r v).me.ctx.gtid = s.me.ctx.gtid := by
  cases r <;> simp [State.put]
@[simp] theorem State.put_run (s : State) (r : Reg) (v : Word) : (s.put r v).me.run = s.me.run := by
  cases r <;> simp [State.put]
@[simp] theorem State.put_cont (s : State) (r : Reg) (v : Word) : (s.put r v).me.cont = s.me.cont := by
  cases r <;> simp [State.put]
@[simp] theorem State.put_core (s : State) (r : Reg) (v : Word) : (s.put r v).me.core = s.me.core := by
  cases r <;> simp [State.put]

end Sys2Proof.Machine
end

