-- ==== Sys2Proof/Laws/Ops.lean ====
section
/-! SUPPORT. One lemma for each shared operation: what it answers on the operands of a ready thread, and what completing a
word leaves. -/

-- One theorem at a time: a theorem that waits for the kernel holds a thread, and each thread takes stack.
set_option Elab.async false

namespace Sys2Proof.Machine

/-! ## Effects as functions of the state -/

theorem M_bind_ok {α β : Type} {m : M α} {f : α → M β} {s s' : State} {a : α} (h : m.run s = .ok (a, s')) :
    (m >>= f).run s = (f a).run s' := by
  simp only [StateT.run_bind, h]; rfl

theorem M_bind_error {α β : Type} {m : M α} {f : α → M β} {s : State} {e : Exit} (h : m.run s = .error e) :
    (m >>= f).run s = .error e := by
  simp only [StateT.run_bind, h]; rfl

@[simp] theorem M_pure {α : Type} (a : α) (s : State) : (pure a : M α).run s = .ok (a, s) := rfl
@[simp] theorem M_get (s : State) : (get : M State).run s = .ok (s, s) := rfl
@[simp] theorem M_set (s t : State) : (set t : M PUnit).run s = .ok (⟨⟩, t) := rfl
@[simp] theorem M_modify (f : State → State) (s : State) : (modify f : M PUnit).run s = .ok (⟨⟩, f s) := rfl
@[simp] theorem M_throw {α : Type} (e : Exit) (s : State) : (throw e : M α).run s = .error e := rfl

/-- The run of a sequence. -/
@[simp] theorem M_bind {α β : Type} (m : M α) (f : α → M β) (s : State) :
    (m >>= f).run s = match m.run s with
      | .ok (a, s') => (f a).run s'
      | .error e => .error e := by
  cases h : m.run s with
  | ok x => exact M_bind_ok h
  | error e => exact M_bind_error h

@[simp] theorem M_ite {α : Type} (c : Prop) [Decidable c] (m n : M α) (s : State) :
    (if c then m else n : M α).run s = if c then m.run s else n.run s := by
  split <;> rfl

/-! ## Register operands (R10 to R12) -/

theorem readReg_plain {s : State} {r : Reg} (h : s.plain r = true) : (readReg r).run s = .ok (s.val r, s) := by
  cases r with
  | g n =>
    simp only [State.plain, Bool.or_eq_true, Bool.not_eq_true', decide_eq_true_eq] at h
    have h8 : ¬(s.isSlot0 = true ∧ n.val = 8) := by rintro ⟨a, b⟩; rcases h with h | h <;> simp_all
    have h9 : ¬(s.isSlot0 = true ∧ n.val = 9) := by rintro ⟨a, b⟩; rcases h with h | h <;> simp_all
    simp [readReg, h8, h9, State.val]
    rfl
  | gz => rfl
  | k => simp [State.plain] at h
  | gq => simp [State.plain] at h

/-- A read of sound words finds nothing in their codes (R324). -/
theorem checkCodes_sound {s : State} {cl key n : Nat} (h : s.mem.scan key n = (s.mem, 0, 0)) : s.checkCodes cl key n = s := by
  simp only [State.checkCodes, h]
  rfl

/-- A read of a sound entry of the constant window leaves the state as it was. -/
theorem kTouch_sound {s : State} {core n : Nat} (h : s.mem.sound (tcmKey core (8 * n)) 8) : s.kTouch core n = s := by
  simp only [State.kTouch, checkCodes_sound h.2, h.1]
  rfl

theorem readK_sound {s : State} {k : BitVec 8} (h : s.kSound k) :
    (readK k).run s = .ok (s.kEntry s.me.core k.toNat, s) := by
  simp only [readK, M_bind, M_get, kTouch_sound h]
  rfl

theorem readRegK_plain {s : State} {r : Reg} {k : BitVec 8} (h : s.plainK r k) :
    (readRegK r k).run s = .ok (s.valK r k, s) := by
  cases r with
  | k => exact readK_sound h
  | g n => exact readReg_plain (r := .g n) h
  | gz => rfl
  | gq => exact absurd h (by simp [State.plainK, State.plain])

theorem writeReg_plain {s : State} {r : Reg} (v : Word) (h : s.plainDst r = true) :
    (writeReg r v).run s = .ok (⟨⟩, s.put r v) := by
  cases r with
  | g n =>
    simp only [State.plainDst, Bool.or_eq_true, Bool.not_eq_true', decide_eq_true_eq] at h
    have h8 : ¬(s.isSlot0 = true ∧ n.val = 8) := by rintro ⟨a, b⟩; rcases h with h | h <;> simp_all
    have h9 : ¬(s.isSlot0 = true ∧ n.val = 9) := by rintro ⟨a, b⟩; rcases h with h | h <;> simp_all
    simp [writeReg, h8, h9, State.put]
    rfl
  | gz => rfl
  | k => rfl
  | gq => rfl

@[simp] theorem writePred_run (s : State) (p : Pred) (b : Bool) :
    (writePred p b).run s = .ok (⟨⟩, s.putPred p b) := rfl

@[simp] theorem readPred_run (s : State) (p : Pred) : (readPred p).run s = .ok (s.pred p, s) := rfl

@[simp] theorem orFlags_run (s : State) (f : Byte) : (orFlags f).run s = .ok (⟨⟩, s.putFlags f) := rfl

/-! ## Readiness -/

/-- Readiness looks at the acting thread's place, pc and task, at the crew of its cluster and at the debug table only. -/
theorem State.Ready.of_eq {s t : State} (h : s.Ready) (hc : t.ctl = s.ctl) (hd : t.dev = s.dev) (hr : t.me.run = s.me.run)
    (hk : t.me.cont = s.me.cont) (hp : t.me.ctx.pc = s.me.ctx.pc) (hg : t.me.ctx.gtid = s.me.ctx.gtid)
    (hn : t.me.core = s.me.core) (hl : t.clusters = s.clusters) : t.Ready := by
  obtain ⟨h1, h2, h3, h4⟩ := h
  refine ⟨hr.trans h1, hk.trans h2, by rw [hc]; exact h3, ?_⟩
  have e0 : t.isSlot0 = s.isSlot0 := by simp [State.isSlot0, hc]
  have es : t.servedTask t.ctl.acting = s.servedTask s.ctl.acting := by
    have hg' : (t.thread s.ctl.acting).ctx.gtid = (s.thread s.ctl.acting).ctx.gtid := by rw [← State.me, ← hg, State.me, hc]
    have hn' : (t.thread s.ctl.acting).core = (s.thread s.ctl.acting).core := by rw [← State.me, ← hn, State.me, hc]
    simp only [State.servedTask, hc, State.cluster, hl, hg', hn']
  have eb : t.breakpoint (t.servedTask t.ctl.acting) t.me.ctx.pc.toNat =
      s.breakpoint (s.servedTask s.ctl.acting) s.me.ctx.pc.toNat := by
    rw [hp, es]; simp [State.breakpoint, State.debugEntry, hd]
  rw [e0, eb]; exact h4

theorem State.Ready.put {s : State} (h : s.Ready) (r : Reg) (v : Word) : (s.put r v).Ready := by
  apply h.of_eq <;> simp

theorem State.Ready.putPred {s : State} (h : s.Ready) (p : Pred) (b : Bool) : (s.putPred p b).Ready := by
  apply h.of_eq <;> simp [State.putPred]

theorem State.Ready.putFlags {s : State} (h : s.Ready) (f : Byte) : (s.putFlags f).Ready := by
  apply h.of_eq <;> simp [State.putFlags]

/-! ## Completing a word -/

/-- A ready thread completes a word: it goes on, and nothing else happens. -/
theorem State.complete_ready {s : State} (h : s.Ready) (npc : BitVec 32) (x : Bool) : s.complete npc x = s.advance npc := by
  obtain ⟨h1, h2, h3, h4⟩ := h
  have hb : (x && !s.isSlot0 && s.breakpoint (s.servedTask s.ctl.acting) (s.thread s.ctl.acting).ctx.pc.toNat) = false := by
    rcases h4 with h4 | h4
    · simp [h4]
    · have h4' : s.breakpoint (s.servedTask s.ctl.acting) (s.thread s.ctl.acting).ctx.pc.toNat = false := h4
      simp [h4']
  have h1' : (s.thread s.ctl.acting).run = .active := h1
  simp only [State.complete, hb, h3, h1']
  rfl

/-- A word whose body completes on a thread that is still ready. -/
theorem performTo_ok {gd : Guard} {s s' : State} {body : M (BitVec 32)} {npc : BitVec 32} (hg : guardHolds s gd = true)
    (hb : body.run s = .ok (npc, s')) (hr : s'.Ready) : performTo gd s body = .next (s'.advance npc) := by
  simp only [performTo, hg, if_true, hb, State.finish]
  rw [State.complete_ready hr]

theorem perform_ok {gd : Guard} {s s' : State} {body : M Unit} (hg : guardHolds s gd = true)
    (hb : body.run s = .ok ((), s')) (hr : s'.Ready) : perform gd s body = .next (s'.advance (s.me.ctx.pc + 4)) :=
  performTo_ok hg (by simp [hb]) hr

/-- A word whose body leaves the rotation. -/
theorem perform_leave {gd : Guard} {s t : State} {body : M Unit} (hg : guardHolds s gd = true)
    (hb : body.run s = .error (.leave t)) : perform gd s body = .next t := by
  simp [perform, performTo, hg, hb, State.finish]

/-- A word whose body traps on a thread in the rotation. -/
theorem perform_trap {gd : Guard} {s : State} {body : M Unit} {c a : Nat} (hg : guardHolds s gd = true)
    (hr : s.me.run = .active) (hb : body.run s = .error (.trap c a)) : perform gd s body = .next (s.trapped c a) := by
  have hr' : (s.thread s.ctl.acting).run = .active := hr
  simp only [perform, performTo, hg, if_true, M_bind, hb, State.finish, hr']
  rfl

/-- A word whose guard does not hold (R81). -/
theorem perform_off {gd : Guard} {s : State} (body : M Unit) (hg : guardHolds s gd = false) (hr : s.Ready) :
    perform gd s body = .next s.done := by
  simp only [perform, performTo, hg]
  rw [State.complete_ready hr]
  rfl

end Sys2Proof.Machine
end

