-- ==== Sys2Proof/Laws/Words.lean ====
section
/-! SUPPORT. Reading a word back: the codes of the operand types, and what each range of bits of an encoded word reads
as. -/

-- One theorem at a time: a theorem that waits for the kernel holds a thread, and each thread takes stack.
set_option Elab.async false

namespace Sys2Proof

theorem Reg.code_lt (r : Reg) : r.code < 2 ^ 4 := by
  cases r with
  | g n => exact Nat.lt_of_lt_of_le n.isLt (by decide)
  | _ => decide
theorem Scope.code_lt (r : Scope) : r.code < 2 ^ 3 := by cases r <;> decide
theorem Size.code_lt (r : Size) : r.code < 2 ^ 2 := by cases r <;> decide
theorem LaneI.code_lt (r : LaneI) : r.code < 2 ^ 2 := by cases r <;> decide
theorem LaneF.code_lt (r : LaneF) : r.code < 2 ^ 2 := by cases r <;> decide
theorem Fmt.code_lt (r : Fmt) : r.code < 2 ^ 3 := by cases r <;> decide
theorem RSpace.code_lt (r : RSpace) : r.code < 2 ^ 1 := by cases r <;> decide
theorem SysReg.num_lt (r : SysReg) : r.num < 2 ^ 12 := by cases r <;> decide

theorem seg_lt (n : Fin 8) : n.val < 2 ^ 4 := Nat.lt_of_lt_of_le n.isLt (by decide)

namespace Laws

/-! ## Codes -/

theorem reg_code {r : Reg} (h : r.plain = true) : reg r.code = .ok r := by
  cases r with
  | g n => simp [reg, Reg.code]
  | _ => first | rfl | simp [Reg.plain] at h
theorem regK_code (r : Reg) : regK r.code = .ok r := by
  cases r with
  | g n =>
    have h : n.val ≠ 11 := by omega
    simp [regK, reg, Reg.code, h]
  | _ => rfl
theorem pair_code {r : Reg} (h : r.even = true) : pair r.code = .ok r := by
  cases r with
  | g n =>
    have e : n.val % 2 = 0 := by simpa [Reg.even] using h
    simp [pair, Reg.code, e]
  | _ => simp [Reg.even] at h
theorem seg_val (n : Fin 8) : seg n.val = .ok n := by simp [seg]
theorem scope_code (s : Scope) : scope s.code = .ok s := by cases s <;> rfl
theorem size_code (s : Size) : size s.code = s := by cases s <;> rfl
theorem laneI_code (l : LaneI) : laneI l.code = some l := by cases l <;> rfl
theorem laneF_code (l : LaneF) : laneF l.code = some l := by cases l <;> rfl
theorem fmt_code (f : Fmt) : fmt f.code = some f := by cases f <;> rfl
theorem rspace_code (s : RSpace) : rspace s.code = s := by cases s <;> rfl
theorem ofNum_num (n : SysReg) : SysReg.ofNum n.num = some n := by cases n <;> rfl

/-! ## Fields -/

/-- Two ranges of bits are apart. -/
def apart (p w lo n : Nat) : Bool := decide (lo + n ≤ p) || decide (p + w ≤ lo)

theorem apart_comm (p w lo n : Nat) : apart p w lo n = apart lo n p w := Bool.or_comm ..

/-- A field put where a number has zeros reads back. -/
theorem bits_put {a f p w : Nat} (ha : bits a p w = 0) (hf : f < 2 ^ w) : bits (a + f * 2 ^ p) p w = f := by
  have hp : 0 < 2 ^ p := Nat.two_pow_pos p
  simp only [bits] at ha ⊢
  rw [Nat.add_mul_div_right _ _ hp, Nat.add_mod, ha, Nat.zero_add, Nat.mod_mod, Nat.mod_eq_of_lt hf]

theorem bits_put_above {a f p lo n : Nat} (h : lo + n ≤ p) : bits (a + f * 2 ^ p) lo n = bits a lo n := by
  obtain ⟨d, rfl⟩ := Nat.exists_eq_add_of_le h
  have hp : 0 < 2 ^ lo := Nat.two_pow_pos lo
  have e : f * 2 ^ (lo + n + d) = (f * 2 ^ d) * 2 ^ n * 2 ^ lo := by ring
  simp only [bits]
  rw [e, Nat.add_mul_div_right _ _ hp, Nat.add_mul_mod_self_right]

theorem bits_put_below {a f p w lo n : Nat} (ha : bits a p w = 0) (hf : f < 2 ^ w) (h : p + w ≤ lo) :
    bits (a + f * 2 ^ p) lo n = bits a lo n := by
  obtain ⟨d, rfl⟩ := Nat.exists_eq_add_of_le h
  have hp : 0 < 2 ^ p := Nat.two_pow_pos p
  have hw : 0 < 2 ^ w := Nat.two_pow_pos w
  have e : 2 ^ (p + w + d) = 2 ^ p * 2 ^ w * 2 ^ d := by ring
  simp only [bits] at ha ⊢
  rw [e, ← Nat.div_div_eq_div_mul, ← Nat.div_div_eq_div_mul, ← Nat.div_div_eq_div_mul, ← Nat.div_div_eq_div_mul,
    Nat.add_mul_div_right _ _ hp]
  have : (a / 2 ^ p + f) / 2 ^ w = a / 2 ^ p / 2 ^ w := by
    have := Nat.div_add_mod (a / 2 ^ p) (2 ^ w)
    rw [ha, Nat.add_zero] at this
    rw [← this, Nat.mul_add_div hw, Nat.div_eq_of_lt hf, Nat.mul_div_cancel_left _ hw, Nat.add_zero]
  rw [this]

/-- A field put where a number has zeros leaves the fields apart from it as they were. -/
theorem bits_put_apart {a f p w lo n : Nat} (ha : bits a p w = 0) (hf : f < 2 ^ w) (h : apart p w lo n = true) :
    bits (a + f * 2 ^ p) lo n = bits a lo n := by
  simp only [apart, Bool.or_eq_true, decide_eq_true_eq] at h
  exact h.elim bits_put_above (bits_put_below ha hf)

/-- A number with fields put in one after the other: value, place, width. -/
def put (a : Nat) : List (Nat × Nat × Nat) → Nat
  | [] => a
  | f :: t => put (a + f.1 * 2 ^ f.2.1) t

/-- The values fit their widths. -/
def Fit : List (Nat × Nat × Nat) → Prop
  | [] => True
  | f :: t => f.1 < 2 ^ f.2.2 ∧ Fit t

/-- A number reads the values at the places. -/
def Reads (a : Nat) : List (Nat × Nat × Nat) → Prop
  | [] => True
  | f :: t => bits a f.2.1 f.2.2 = f.1 ∧ Reads a t

/-- The places are clear in the number, apart from each other, and below 32. -/
def clear (a : Nat) : List (Nat × Nat) → Bool
  | [] => true
  | f :: t => bits a f.1 f.2 == 0 && decide (f.1 + f.2 ≤ 32) && t.all (fun g => apart f.1 f.2 g.1 g.2) && clear a t

theorem clear_put {a f p w : Nat} (ha : bits a p w = 0) (hf : f < 2 ^ w) :
    ∀ t : List (Nat × Nat), t.all (fun g => apart p w g.1 g.2) = true → clear a t = true →
      clear (a + f * 2 ^ p) t = true
  | [], _, _ => rfl
  | g :: t, h, hc => by
    simp only [List.all_cons, Bool.and_eq_true] at h
    simp only [clear, Bool.and_eq_true] at hc ⊢
    rw [bits_put_apart ha hf h.1]
    exact ⟨hc.1, clear_put ha hf t h.2 hc.2⟩

theorem bits_put_all : ∀ (fs : List (Nat × Nat × Nat)) {a lo n : Nat}, clear a (fs.map (·.2)) = true → Fit fs →
    (fs.map (·.2)).all (fun f => apart f.1 f.2 lo n) = true → bits (put a fs) lo n = bits a lo n
  | [], _, _, _, _, _, _ => rfl
  | f :: t, a, lo, n, hc, hv, h => by
    simp only [List.map_cons, clear, Bool.and_eq_true, beq_iff_eq] at hc
    simp only [List.map_cons, List.all_cons, Bool.and_eq_true] at h
    rw [put, bits_put_all t (clear_put hc.1.1.1 hv.1 _ hc.1.2 hc.2) hv.2 h.2, bits_put_apart hc.1.1.1 hv.1 h.1]

theorem reads_put : ∀ (fs : List (Nat × Nat × Nat)) {a : Nat}, clear a (fs.map (·.2)) = true → Fit fs →
    Reads (put a fs) fs
  | [], _, _, _ => trivial
  | f :: t, a, hc, hv => by
    simp only [List.map_cons, clear, Bool.and_eq_true, beq_iff_eq] at hc
    have hc' := clear_put hc.1.1.1 hv.1 _ hc.1.2 hc.2
    refine ⟨?_, reads_put t hc' hv.2⟩
    rw [put, bits_put_all t hc' hv.2, bits_put hc.1.1.1 hv.1]
    have := hc.1.2
    simp only [List.all_eq_true] at this ⊢
    intro g hg
    rw [apart_comm]
    exact this g hg

/-- The low 32 bits of a number read as the number does. -/
theorem bits_mod {a lo n : Nat} (h : lo + n ≤ 32) : bits (a % 2 ^ 32) lo n = bits a lo n := by
  obtain ⟨d, hd⟩ := Nat.exists_eq_add_of_le h
  have e : 2 ^ 32 = 2 ^ lo * (2 ^ n * 2 ^ d) := by rw [hd]; ring
  simp only [bits]
  rw [e, Nat.mod_mul_right_div_self, Nat.mod_mul_right_mod]

theorem reads_mod : ∀ (fs : List (Nat × Nat × Nat)) {a b : Nat}, clear b (fs.map (·.2)) = true → Reads a fs →
    Reads (a % 2 ^ 32) fs
  | [], _, _, _, _ => trivial
  | f :: t, a, b, hc, h => by
    simp only [List.map_cons, clear, Bool.and_eq_true, decide_eq_true_eq] at hc
    exact ⟨(bits_mod hc.1.1.2).trans h.1, reads_mod t hc.2 h.2⟩

/-- The fields of an encoded word read as the operands' codes. -/
theorem word_fields {i : Instr} {w : BitVec 32} (K : Nat) (fs : List (Nat × Nat × Nat)) (ps : List (Nat × Nat))
    (h : encode i = some w) (hn : encodeNat i = some (put K fs)) (hp : fs.map (·.2) = ps) (hc : clear K ps = true)
    (hv : Fit fs) : Reads w.toNat fs := by
  subst hp
  simp only [encode, hn, Option.map_some, Option.some.injEq] at h
  rw [← h, BitVec.toNat_ofNat]
  exact reads_mod fs hc (reads_put fs hc hv)

/-- The other bits of an encoded word are those of its opcode. -/
theorem word_rest {i : Instr} {w : BitVec 32} (K : Nat) (fs : List (Nat × Nat × Nat)) (ps : List (Nat × Nat))
    (h : encode i = some w) (hn : encodeNat i = some (put K fs)) (hp : fs.map (·.2) = ps) (hc : clear K ps = true)
    (hv : Fit fs) (lo n : Nat) {x : Nat}
    (hd : (ps.all (fun f => apart f.1 f.2 lo n) && decide (lo + n ≤ 32) && bits K lo n == x) = true) :
    bits w.toNat lo n = x := by
  subst hp
  simp only [Bool.and_eq_true, decide_eq_true_eq, beq_iff_eq] at hd
  simp only [encode, hn, Option.map_some, Option.some.injEq] at h
  rw [← h, BitVec.toNat_ofNat, bits_mod hd.1.2, bits_put_all fs hc hv hd.1.1, hd.2]

/-- The encoder puts the guard and the fields into the opcode. -/
theorem enc_put (K : Nat) (gd : Guard) : ∀ fs : List (Nat × Nat × Nat),
    enc K gd (fs.map fun f => (f.1, f.2.1)) = some (put K ((gd.toNat, 21, 5) :: fs)) := by
  have h : ∀ (fs : List (Nat × Nat × Nat)) (a : Nat),
      (fs.map fun f => (f.1, f.2.1)).foldl (fun a f => a + f.1 * 2 ^ f.2) a = put a fs := by
    intro fs
    induction fs with
    | nil => intro a; rfl
    | cons f t ih => intro a; exact ih _
  exact fun fs => congrArg some (h fs _)

/-- An encoded word: its fields read as the operands' codes, its other bits as those of its opcode. -/
theorem word_reads {i : Instr} {w : BitVec 32} (K : Nat) (gd : Guard) (fs : List (Nat × Nat × Nat))
    (ps : List (Nat × Nat)) (h : encode i = some w) (hn : encodeNat i = enc K gd (fs.map fun f => (f.1, f.2.1)))
    (hp : fs.map (·.2) = ps) (hc : clear K ((21, 5) :: ps) = true) (hv : Fit fs) :
    bits w.toNat 21 5 = gd.toNat ∧ Reads w.toNat fs ∧ ∀ (lo n : Nat) {x : Nat},
      (((21, 5) :: ps).all (fun f => apart f.1 f.2 lo n) && decide (lo + n ≤ 32) && bits K lo n == x) = true →
        bits w.toNat lo n = x := by
  subst hp
  have hn := hn.trans (enc_put K gd fs)
  have hv : Fit ((gd.toNat, 21, 5) :: fs) := ⟨gd.isLt, hv⟩
  have r := word_fields K _ _ h hn rfl hc hv
  exact ⟨r.1, r.2, fun lo n _ hd => word_rest K _ _ h hn rfl hc hv lo n hd⟩

/-- A range of bits in two parts. -/
theorem bits_split (a lo n m : Nat) : bits a lo (n + m) = bits a lo n + 2 ^ n * bits a (lo + n) m := by
  simp only [bits]
  rw [Nat.pow_add, Nat.pow_add, Nat.mod_mul, Nat.div_div_eq_div_mul]

end Laws

end Sys2Proof
end

