-- ==== Sys2Proof/Laws/PerInstr.lean ====
section
/-! SUPPORT. The family Roundtrip: for each instruction, that the decoder reads what the encoder writes. -/

-- One theorem at a time: a theorem that waits for the kernel holds a thread, and each thread takes stack.
set_option Elab.async false

namespace Sys2Proof.Laws

/-- The decoder reads back the word of a well-formed instruction (R76, R80, R83 to R105). -/
def Roundtrip.Statement (i : Instr) : Prop :=
  ∀ w, WellFormed i = true → encode i = some w → decodeWord w = .ok i

/-- A happening has no word. -/
theorem Roundtrip.none {i : Instr} (h : encodeNat i = none) : Roundtrip.Statement i := by
  intro w _ e
  simp [encode, h] at e

theorem Roundtrip.add (gd : Guard) (rd : Reg) (ra : Reg) (rb : Reg) : Roundtrip.Statement (.add gd rd ra rb) := by
  intro w hw h
  have hw : (rd.plain && ra.plain && rb.plain) = true := hw
  simp only [Bool.and_eq_true] at hw
  obtain ⟨b21_5, f, r⟩ := word_reads 0x04000000 gd [(rd.code, 17, 4), (ra.code, 13, 4), (rb.code, 9, 4)] [(17, 4), (13, 4), (9, 4)] h rfl rfl (by decide) ⟨rd.code_lt, ra.code_lt, rb.code_lt, trivial⟩
  obtain ⟨b17_4, b13_4, b9_4, -⟩ := f
  have m := r 26 6 (x := 1) (by decide)
  have b4_5 : bits w.toNat 4 5 = 0 := r 4 5 (by decide)
  have b0_9 : bits w.toNat 0 9 = 0 := r 0 9 (by decide)
  have s : decodeForm w.toNat = .ok (.base (.add gd rd ra rb)) := by
    unfold decodeForm; rw [m]; change decInt w.toNat _ = _
    refine Eq.trans (b := (do let rd ← reg (bits w.toNat 17 4); let ra ← reg (bits w.toNat 13 4); let rb ← reg (bits w.toNat 9 4); pure (.base (.add (BitVec.ofNat 5 (bits w.toNat 21 5)) rd ra rb)))) (by unfold decInt; rw [b4_5, if_neg (by decide), b0_9]; rfl) ?_
    simp only [b21_5, b17_4, b13_4, b9_4, bind, Except.bind, pure, Except.pure, reg_code hw.1.1, reg_code hw.1.2, reg_code hw.2, BitVec.ofNat_toNat, BitVec.setWidth_eq]
  rw [decodeWord, s]; rfl

theorem Roundtrip.sub (gd : Guard) (rd : Reg) (ra : Reg) (rb : Reg) : Roundtrip.Statement (.sub gd rd ra rb) := by
  intro w hw h
  have hw : (rd.plain && ra.plain && rb.plain) = true := hw
  simp only [Bool.and_eq_true] at hw
  obtain ⟨b21_5, f, r⟩ := word_reads 0x04000001 gd [(rd.code, 17, 4), (ra.code, 13, 4), (rb.code, 9, 4)] [(17, 4), (13, 4), (9, 4)] h rfl rfl (by decide) ⟨rd.code_lt, ra.code_lt, rb.code_lt, trivial⟩
  obtain ⟨b17_4, b13_4, b9_4, -⟩ := f
  have m := r 26 6 (x := 1) (by decide)
  have b4_5 : bits w.toNat 4 5 = 0 := r 4 5 (by decide)
  have b0_9 : bits w.toNat 0 9 = 1 := r 0 9 (by decide)
  have s : decodeForm w.toNat = .ok (.base (.sub gd rd ra rb)) := by
    unfold decodeForm; rw [m]; change decInt w.toNat _ = _
    refine Eq.trans (b := (do let rd ← reg (bits w.toNat 17 4); let ra ← reg (bits w.toNat 13 4); let rb ← reg (bits w.toNat 9 4); pure (.base (.sub (BitVec.ofNat 5 (bits w.toNat 21 5)) rd ra rb)))) (by unfold decInt; rw [b4_5, if_neg (by decide), b0_9]; rfl) ?_
    simp only [b21_5, b17_4, b13_4, b9_4, bind, Except.bind, pure, Except.pure, reg_code hw.1.1, reg_code hw.1.2, reg_code hw.2, BitVec.ofNat_toNat, BitVec.setWidth_eq]
  rw [decodeWord, s]; rfl

theorem Roundtrip.and (gd : Guard) (rd : Reg) (ra : Reg) (rb : Reg) : Roundtrip.Statement (.and gd rd ra rb) := by
  intro w hw h
  have hw : (rd.plain && ra.plain && rb.plain) = true := hw
  simp only [Bool.and_eq_true] at hw
  obtain ⟨b21_5, f, r⟩ := word_reads 0x04000002 gd [(rd.code, 17, 4), (ra.code, 13, 4), (rb.code, 9, 4)] [(17, 4), (13, 4), (9, 4)] h rfl rfl (by decide) ⟨rd.code_lt, ra.code_lt, rb.code_lt, trivial⟩
  obtain ⟨b17_4, b13_4, b9_4, -⟩ := f
  have m := r 26 6 (x := 1) (by decide)
  have b4_5 : bits w.toNat 4 5 = 0 := r 4 5 (by decide)
  have b0_9 : bits w.toNat 0 9 = 2 := r 0 9 (by decide)
  have s : decodeForm w.toNat = .ok (.base (.and gd rd ra rb)) := by
    unfold decodeForm; rw [m]; change decInt w.toNat _ = _
    refine Eq.trans (b := (do let rd ← reg (bits w.toNat 17 4); let ra ← reg (bits w.toNat 13 4); let rb ← reg (bits w.toNat 9 4); pure (.base (.and (BitVec.ofNat 5 (bits w.toNat 21 5)) rd ra rb)))) (by unfold decInt; rw [b4_5, if_neg (by decide), b0_9]; rfl) ?_
    simp only [b21_5, b17_4, b13_4, b9_4, bind, Except.bind, pure, Except.pure, reg_code hw.1.1, reg_code hw.1.2, reg_code hw.2, BitVec.ofNat_toNat, BitVec.setWidth_eq]
  rw [decodeWord, s]; rfl

theorem Roundtrip.or (gd : Guard) (rd : Reg) (ra : Reg) (rb : Reg) : Roundtrip.Statement (.or gd rd ra rb) := by
  intro w hw h
  have hw : (rd.plain && ra.plain && rb.plain) = true := hw
  simp only [Bool.and_eq_true] at hw
  obtain ⟨b21_5, f, r⟩ := word_reads 0x04000003 gd [(rd.code, 17, 4), (ra.code, 13, 4), (rb.code, 9, 4)] [(17, 4), (13, 4), (9, 4)] h rfl rfl (by decide) ⟨rd.code_lt, ra.code_lt, rb.code_lt, trivial⟩
  obtain ⟨b17_4, b13_4, b9_4, -⟩ := f
  have m := r 26 6 (x := 1) (by decide)
  have b4_5 : bits w.toNat 4 5 = 0 := r 4 5 (by decide)
  have b0_9 : bits w.toNat 0 9 = 3 := r 0 9 (by decide)
  have s : decodeForm w.toNat = .ok (.base (.or gd rd ra rb)) := by
    unfold decodeForm; rw [m]; change decInt w.toNat _ = _
    refine Eq.trans (b := (do let rd ← reg (bits w.toNat 17 4); let ra ← reg (bits w.toNat 13 4); let rb ← reg (bits w.toNat 9 4); pure (.base (.or (BitVec.ofNat 5 (bits w.toNat 21 5)) rd ra rb)))) (by unfold decInt; rw [b4_5, if_neg (by decide), b0_9]; rfl) ?_
    simp only [b21_5, b17_4, b13_4, b9_4, bind, Except.bind, pure, Except.pure, reg_code hw.1.1, reg_code hw.1.2, reg_code hw.2, BitVec.ofNat_toNat, BitVec.setWidth_eq]
  rw [decodeWord, s]; rfl

theorem Roundtrip.xor (gd : Guard) (rd : Reg) (ra : Reg) (rb : Reg) : Roundtrip.Statement (.xor gd rd ra rb) := by
  intro w hw h
  have hw : (rd.plain && ra.plain && rb.plain) = true := hw
  simp only [Bool.and_eq_true] at hw
  obtain ⟨b21_5, f, r⟩ := word_reads 0x04000004 gd [(rd.code, 17, 4), (ra.code, 13, 4), (rb.code, 9, 4)] [(17, 4), (13, 4), (9, 4)] h rfl rfl (by decide) ⟨rd.code_lt, ra.code_lt, rb.code_lt, trivial⟩
  obtain ⟨b17_4, b13_4, b9_4, -⟩ := f
  have m := r 26 6 (x := 1) (by decide)
  have b4_5 : bits w.toNat 4 5 = 0 := r 4 5 (by decide)
  have b0_9 : bits w.toNat 0 9 = 4 := r 0 9 (by decide)
  have s : decodeForm w.toNat = .ok (.base (.xor gd rd ra rb)) := by
    unfold decodeForm; rw [m]; change decInt w.toNat _ = _
    refine Eq.trans (b := (do let rd ← reg (bits w.toNat 17 4); let ra ← reg (bits w.toNat 13 4); let rb ← reg (bits w.toNat 9 4); pure (.base (.xor (BitVec.ofNat 5 (bits w.toNat 21 5)) rd ra rb)))) (by unfold decInt; rw [b4_5, if_neg (by decide), b0_9]; rfl) ?_
    simp only [b21_5, b17_4, b13_4, b9_4, bind, Except.bind, pure, Except.pure, reg_code hw.1.1, reg_code hw.1.2, reg_code hw.2, BitVec.ofNat_toNat, BitVec.setWidth_eq]
  rw [decodeWord, s]; rfl

theorem Roundtrip.andn (gd : Guard) (rd : Reg) (ra : Reg) (rb : Reg) : Roundtrip.Statement (.andn gd rd ra rb) := by
  intro w hw h
  have hw : (rd.plain && ra.plain && rb.plain) = true := hw
  simp only [Bool.and_eq_true] at hw
  obtain ⟨b21_5, f, r⟩ := word_reads 0x04000005 gd [(rd.code, 17, 4), (ra.code, 13, 4), (rb.code, 9, 4)] [(17, 4), (13, 4), (9, 4)] h rfl rfl (by decide) ⟨rd.code_lt, ra.code_lt, rb.code_lt, trivial⟩
  obtain ⟨b17_4, b13_4, b9_4, -⟩ := f
  have m := r 26 6 (x := 1) (by decide)
  have b4_5 : bits w.toNat 4 5 = 0 := r 4 5 (by decide)
  have b0_9 : bits w.toNat 0 9 = 5 := r 0 9 (by decide)
  have s : decodeForm w.toNat = .ok (.base (.andn gd rd ra rb)) := by
    unfold decodeForm; rw [m]; change decInt w.toNat _ = _
    refine Eq.trans (b := (do let rd ← reg (bits w.toNat 17 4); let ra ← reg (bits w.toNat 13 4); let rb ← reg (bits w.toNat 9 4); pure (.base (.andn (BitVec.ofNat 5 (bits w.toNat 21 5)) rd ra rb)))) (by unfold decInt; rw [b4_5, if_neg (by decide), b0_9]; rfl) ?_
    simp only [b21_5, b17_4, b13_4, b9_4, bind, Except.bind, pure, Except.pure, reg_code hw.1.1, reg_code hw.1.2, reg_code hw.2, BitVec.ofNat_toNat, BitVec.setWidth_eq]
  rw [decodeWord, s]; rfl

theorem Roundtrip.orn (gd : Guard) (rd : Reg) (ra : Reg) (rb : Reg) : Roundtrip.Statement (.orn gd rd ra rb) := by
  intro w hw h
  have hw : (rd.plain && ra.plain && rb.plain) = true := hw
  simp only [Bool.and_eq_true] at hw
  obtain ⟨b21_5, f, r⟩ := word_reads 0x04000006 gd [(rd.code, 17, 4), (ra.code, 13, 4), (rb.code, 9, 4)] [(17, 4), (13, 4), (9, 4)] h rfl rfl (by decide) ⟨rd.code_lt, ra.code_lt, rb.code_lt, trivial⟩
  obtain ⟨b17_4, b13_4, b9_4, -⟩ := f
  have m := r 26 6 (x := 1) (by decide)
  have b4_5 : bits w.toNat 4 5 = 0 := r 4 5 (by decide)
  have b0_9 : bits w.toNat 0 9 = 6 := r 0 9 (by decide)
  have s : decodeForm w.toNat = .ok (.base (.orn gd rd ra rb)) := by
    unfold decodeForm; rw [m]; change decInt w.toNat _ = _
    refine Eq.trans (b := (do let rd ← reg (bits w.toNat 17 4); let ra ← reg (bits w.toNat 13 4); let rb ← reg (bits w.toNat 9 4); pure (.base (.orn (BitVec.ofNat 5 (bits w.toNat 21 5)) rd ra rb)))) (by unfold decInt; rw [b4_5, if_neg (by decide), b0_9]; rfl) ?_
    simp only [b21_5, b17_4, b13_4, b9_4, bind, Except.bind, pure, Except.pure, reg_code hw.1.1, reg_code hw.1.2, reg_code hw.2, BitVec.ofNat_toNat, BitVec.setWidth_eq]
  rw [decodeWord, s]; rfl

theorem Roundtrip.min (gd : Guard) (rd : Reg) (ra : Reg) (rb : Reg) : Roundtrip.Statement (.min gd rd ra rb) := by
  intro w hw h
  have hw : (rd.plain && ra.plain && rb.plain) = true := hw
  simp only [Bool.and_eq_true] at hw
  obtain ⟨b21_5, f, r⟩ := word_reads 0x04000008 gd [(rd.code, 17, 4), (ra.code, 13, 4), (rb.code, 9, 4)] [(17, 4), (13, 4), (9, 4)] h rfl rfl (by decide) ⟨rd.code_lt, ra.code_lt, rb.code_lt, trivial⟩
  obtain ⟨b17_4, b13_4, b9_4, -⟩ := f
  have m := r 26 6 (x := 1) (by decide)
  have b4_5 : bits w.toNat 4 5 = 0 := r 4 5 (by decide)
  have b0_9 : bits w.toNat 0 9 = 8 := r 0 9 (by decide)
  have s : decodeForm w.toNat = .ok (.base (.min gd rd ra rb)) := by
    unfold decodeForm; rw [m]; change decInt w.toNat _ = _
    refine Eq.trans (b := (do let rd ← reg (bits w.toNat 17 4); let ra ← reg (bits w.toNat 13 4); let rb ← reg (bits w.toNat 9 4); pure (.base (.min (BitVec.ofNat 5 (bits w.toNat 21 5)) rd ra rb)))) (by unfold decInt; rw [b4_5, if_neg (by decide), b0_9]; rfl) ?_
    simp only [b21_5, b17_4, b13_4, b9_4, bind, Except.bind, pure, Except.pure, reg_code hw.1.1, reg_code hw.1.2, reg_code hw.2, BitVec.ofNat_toNat, BitVec.setWidth_eq]
  rw [decodeWord, s]; rfl

theorem Roundtrip.max (gd : Guard) (rd : Reg) (ra : Reg) (rb : Reg) : Roundtrip.Statement (.max gd rd ra rb) := by
  intro w hw h
  have hw : (rd.plain && ra.plain && rb.plain) = true := hw
  simp only [Bool.and_eq_true] at hw
  obtain ⟨b21_5, f, r⟩ := word_reads 0x04000009 gd [(rd.code, 17, 4), (ra.code, 13, 4), (rb.code, 9, 4)] [(17, 4), (13, 4), (9, 4)] h rfl rfl (by decide) ⟨rd.code_lt, ra.code_lt, rb.code_lt, trivial⟩
  obtain ⟨b17_4, b13_4, b9_4, -⟩ := f
  have m := r 26 6 (x := 1) (by decide)
  have b4_5 : bits w.toNat 4 5 = 0 := r 4 5 (by decide)
  have b0_9 : bits w.toNat 0 9 = 9 := r 0 9 (by decide)
  have s : decodeForm w.toNat = .ok (.base (.max gd rd ra rb)) := by
    unfold decodeForm; rw [m]; change decInt w.toNat _ = _
    refine Eq.trans (b := (do let rd ← reg (bits w.toNat 17 4); let ra ← reg (bits w.toNat 13 4); let rb ← reg (bits w.toNat 9 4); pure (.base (.max (BitVec.ofNat 5 (bits w.toNat 21 5)) rd ra rb)))) (by unfold decInt; rw [b4_5, if_neg (by decide), b0_9]; rfl) ?_
    simp only [b21_5, b17_4, b13_4, b9_4, bind, Except.bind, pure, Except.pure, reg_code hw.1.1, reg_code hw.1.2, reg_code hw.2, BitVec.ofNat_toNat, BitVec.setWidth_eq]
  rw [decodeWord, s]; rfl

theorem Roundtrip.mins (gd : Guard) (rd : Reg) (ra : Reg) (rb : Reg) : Roundtrip.Statement (.mins gd rd ra rb) := by
  intro w hw h
  have hw : (rd.plain && ra.plain && rb.plain) = true := hw
  simp only [Bool.and_eq_true] at hw
  obtain ⟨b21_5, f, r⟩ := word_reads 0x0400000A gd [(rd.code, 17, 4), (ra.code, 13, 4), (rb.code, 9, 4)] [(17, 4), (13, 4), (9, 4)] h rfl rfl (by decide) ⟨rd.code_lt, ra.code_lt, rb.code_lt, trivial⟩
  obtain ⟨b17_4, b13_4, b9_4, -⟩ := f
  have m := r 26 6 (x := 1) (by decide)
  have b4_5 : bits w.toNat 4 5 = 0 := r 4 5 (by decide)
  have b0_9 : bits w.toNat 0 9 = 10 := r 0 9 (by decide)
  have s : decodeForm w.toNat = .ok (.base (.mins gd rd ra rb)) := by
    unfold decodeForm; rw [m]; change decInt w.toNat _ = _
    refine Eq.trans (b := (do let rd ← reg (bits w.toNat 17 4); let ra ← reg (bits w.toNat 13 4); let rb ← reg (bits w.toNat 9 4); pure (.base (.mins (BitVec.ofNat 5 (bits w.toNat 21 5)) rd ra rb)))) (by unfold decInt; rw [b4_5, if_neg (by decide), b0_9]; rfl) ?_
    simp only [b21_5, b17_4, b13_4, b9_4, bind, Except.bind, pure, Except.pure, reg_code hw.1.1, reg_code hw.1.2, reg_code hw.2, BitVec.ofNat_toNat, BitVec.setWidth_eq]
  rw [decodeWord, s]; rfl

theorem Roundtrip.maxs (gd : Guard) (rd : Reg) (ra : Reg) (rb : Reg) : Roundtrip.Statement (.maxs gd rd ra rb) := by
  intro w hw h
  have hw : (rd.plain && ra.plain && rb.plain) = true := hw
  simp only [Bool.and_eq_true] at hw
  obtain ⟨b21_5, f, r⟩ := word_reads 0x0400000B gd [(rd.code, 17, 4), (ra.code, 13, 4), (rb.code, 9, 4)] [(17, 4), (13, 4), (9, 4)] h rfl rfl (by decide) ⟨rd.code_lt, ra.code_lt, rb.code_lt, trivial⟩
  obtain ⟨b17_4, b13_4, b9_4, -⟩ := f
  have m := r 26 6 (x := 1) (by decide)
  have b4_5 : bits w.toNat 4 5 = 0 := r 4 5 (by decide)
  have b0_9 : bits w.toNat 0 9 = 11 := r 0 9 (by decide)
  have s : decodeForm w.toNat = .ok (.base (.maxs gd rd ra rb)) := by
    unfold decodeForm; rw [m]; change decInt w.toNat _ = _
    refine Eq.trans (b := (do let rd ← reg (bits w.toNat 17 4); let ra ← reg (bits w.toNat 13 4); let rb ← reg (bits w.toNat 9 4); pure (.base (.maxs (BitVec.ofNat 5 (bits w.toNat 21 5)) rd ra rb)))) (by unfold decInt; rw [b4_5, if_neg (by decide), b0_9]; rfl) ?_
    simp only [b21_5, b17_4, b13_4, b9_4, bind, Except.bind, pure, Except.pure, reg_code hw.1.1, reg_code hw.1.2, reg_code hw.2, BitVec.ofNat_toNat, BitVec.setWidth_eq]
  rw [decodeWord, s]; rfl

theorem Roundtrip.shl (gd : Guard) (rd : Reg) (ra : Reg) (rb : Reg) : Roundtrip.Statement (.shl gd rd ra rb) := by
  intro w hw h
  have hw : (rd.plain && ra.plain && rb.plain) = true := hw
  simp only [Bool.and_eq_true] at hw
  obtain ⟨b21_5, f, r⟩ := word_reads 0x04000010 gd [(rd.code, 17, 4), (ra.code, 13, 4), (rb.code, 9, 4)] [(17, 4), (13, 4), (9, 4)] h rfl rfl (by decide) ⟨rd.code_lt, ra.code_lt, rb.code_lt, trivial⟩
  obtain ⟨b17_4, b13_4, b9_4, -⟩ := f
  have m := r 26 6 (x := 1) (by decide)
  have b4_5 : bits w.toNat 4 5 = 1 := r 4 5 (by decide)
  have b0_9 : bits w.toNat 0 9 = 16 := r 0 9 (by decide)
  have s : decodeForm w.toNat = .ok (.base (.shl gd rd ra rb)) := by
    unfold decodeForm; rw [m]; change decInt w.toNat _ = _
    refine Eq.trans (b := (do let rd ← reg (bits w.toNat 17 4); let ra ← reg (bits w.toNat 13 4); let rb ← reg (bits w.toNat 9 4); pure (.base (.shl (BitVec.ofNat 5 (bits w.toNat 21 5)) rd ra rb)))) (by unfold decInt; rw [b4_5, if_neg (by decide), b0_9]; rfl) ?_
    simp only [b21_5, b17_4, b13_4, b9_4, bind, Except.bind, pure, Except.pure, reg_code hw.1.1, reg_code hw.1.2, reg_code hw.2, BitVec.ofNat_toNat, BitVec.setWidth_eq]
  rw [decodeWord, s]; rfl

theorem Roundtrip.shr (gd : Guard) (rd : Reg) (ra : Reg) (rb : Reg) : Roundtrip.Statement (.shr gd rd ra rb) := by
  intro w hw h
  have hw : (rd.plain && ra.plain && rb.plain) = true := hw
  simp only [Bool.and_eq_true] at hw
  obtain ⟨b21_5, f, r⟩ := word_reads 0x04000011 gd [(rd.code, 17, 4), (ra.code, 13, 4), (rb.code, 9, 4)] [(17, 4), (13, 4), (9, 4)] h rfl rfl (by decide) ⟨rd.code_lt, ra.code_lt, rb.code_lt, trivial⟩
  obtain ⟨b17_4, b13_4, b9_4, -⟩ := f
  have m := r 26 6 (x := 1) (by decide)
  have b4_5 : bits w.toNat 4 5 = 1 := r 4 5 (by decide)
  have b0_9 : bits w.toNat 0 9 = 17 := r 0 9 (by decide)
  have s : decodeForm w.toNat = .ok (.base (.shr gd rd ra rb)) := by
    unfold decodeForm; rw [m]; change decInt w.toNat _ = _
    refine Eq.trans (b := (do let rd ← reg (bits w.toNat 17 4); let ra ← reg (bits w.toNat 13 4); let rb ← reg (bits w.toNat 9 4); pure (.base (.shr (BitVec.ofNat 5 (bits w.toNat 21 5)) rd ra rb)))) (by unfold decInt; rw [b4_5, if_neg (by decide), b0_9]; rfl) ?_
    simp only [b21_5, b17_4, b13_4, b9_4, bind, Except.bind, pure, Except.pure, reg_code hw.1.1, reg_code hw.1.2, reg_code hw.2, BitVec.ofNat_toNat, BitVec.setWidth_eq]
  rw [decodeWord, s]; rfl

theorem Roundtrip.sra (gd : Guard) (rd : Reg) (ra : Reg) (rb : Reg) : Roundtrip.Statement (.sra gd rd ra rb) := by
  intro w hw h
  have hw : (rd.plain && ra.plain && rb.plain) = true := hw
  simp only [Bool.and_eq_true] at hw
  obtain ⟨b21_5, f, r⟩ := word_reads 0x04000012 gd [(rd.code, 17, 4), (ra.code, 13, 4), (rb.code, 9, 4)] [(17, 4), (13, 4), (9, 4)] h rfl rfl (by decide) ⟨rd.code_lt, ra.code_lt, rb.code_lt, trivial⟩
  obtain ⟨b17_4, b13_4, b9_4, -⟩ := f
  have m := r 26 6 (x := 1) (by decide)
  have b4_5 : bits w.toNat 4 5 = 1 := r 4 5 (by decide)
  have b0_9 : bits w.toNat 0 9 = 18 := r 0 9 (by decide)
  have s : decodeForm w.toNat = .ok (.base (.sra gd rd ra rb)) := by
    unfold decodeForm; rw [m]; change decInt w.toNat _ = _
    refine Eq.trans (b := (do let rd ← reg (bits w.toNat 17 4); let ra ← reg (bits w.toNat 13 4); let rb ← reg (bits w.toNat 9 4); pure (.base (.sra (BitVec.ofNat 5 (bits w.toNat 21 5)) rd ra rb)))) (by unfold decInt; rw [b4_5, if_neg (by decide), b0_9]; rfl) ?_
    simp only [b21_5, b17_4, b13_4, b9_4, bind, Except.bind, pure, Except.pure, reg_code hw.1.1, reg_code hw.1.2, reg_code hw.2, BitVec.ofNat_toNat, BitVec.setWidth_eq]
  rw [decodeWord, s]; rfl

theorem Roundtrip.rol (gd : Guard) (rd : Reg) (ra : Reg) (rb : Reg) : Roundtrip.Statement (.rol gd rd ra rb) := by
  intro w hw h
  have hw : (rd.plain && ra.plain && rb.plain) = true := hw
  simp only [Bool.and_eq_true] at hw
  obtain ⟨b21_5, f, r⟩ := word_reads 0x04000013 gd [(rd.code, 17, 4), (ra.code, 13, 4), (rb.code, 9, 4)] [(17, 4), (13, 4), (9, 4)] h rfl rfl (by decide) ⟨rd.code_lt, ra.code_lt, rb.code_lt, trivial⟩
  obtain ⟨b17_4, b13_4, b9_4, -⟩ := f
  have m := r 26 6 (x := 1) (by decide)
  have b4_5 : bits w.toNat 4 5 = 1 := r 4 5 (by decide)
  have b0_9 : bits w.toNat 0 9 = 19 := r 0 9 (by decide)
  have s : decodeForm w.toNat = .ok (.base (.rol gd rd ra rb)) := by
    unfold decodeForm; rw [m]; change decInt w.toNat _ = _
    refine Eq.trans (b := (do let rd ← reg (bits w.toNat 17 4); let ra ← reg (bits w.toNat 13 4); let rb ← reg (bits w.toNat 9 4); pure (.base (.rol (BitVec.ofNat 5 (bits w.toNat 21 5)) rd ra rb)))) (by unfold decInt; rw [b4_5, if_neg (by decide), b0_9]; rfl) ?_
    simp only [b21_5, b17_4, b13_4, b9_4, bind, Except.bind, pure, Except.pure, reg_code hw.1.1, reg_code hw.1.2, reg_code hw.2, BitVec.ofNat_toNat, BitVec.setWidth_eq]
  rw [decodeWord, s]; rfl

theorem Roundtrip.ror (gd : Guard) (rd : Reg) (ra : Reg) (rb : Reg) : Roundtrip.Statement (.ror gd rd ra rb) := by
  intro w hw h
  have hw : (rd.plain && ra.plain && rb.plain) = true := hw
  simp only [Bool.and_eq_true] at hw
  obtain ⟨b21_5, f, r⟩ := word_reads 0x04000014 gd [(rd.code, 17, 4), (ra.code, 13, 4), (rb.code, 9, 4)] [(17, 4), (13, 4), (9, 4)] h rfl rfl (by decide) ⟨rd.code_lt, ra.code_lt, rb.code_lt, trivial⟩
  obtain ⟨b17_4, b13_4, b9_4, -⟩ := f
  have m := r 26 6 (x := 1) (by decide)
  have b4_5 : bits w.toNat 4 5 = 1 := r 4 5 (by decide)
  have b0_9 : bits w.toNat 0 9 = 20 := r 0 9 (by decide)
  have s : decodeForm w.toNat = .ok (.base (.ror gd rd ra rb)) := by
    unfold decodeForm; rw [m]; change decInt w.toNat _ = _
    refine Eq.trans (b := (do let rd ← reg (bits w.toNat 17 4); let ra ← reg (bits w.toNat 13 4); let rb ← reg (bits w.toNat 9 4); pure (.base (.ror (BitVec.ofNat 5 (bits w.toNat 21 5)) rd ra rb)))) (by unfold decInt; rw [b4_5, if_neg (by decide), b0_9]; rfl) ?_
    simp only [b21_5, b17_4, b13_4, b9_4, bind, Except.bind, pure, Except.pure, reg_code hw.1.1, reg_code hw.1.2, reg_code hw.2, BitVec.ofNat_toNat, BitVec.setWidth_eq]
  rw [decodeWord, s]; rfl

theorem Roundtrip.clz (gd : Guard) (rd : Reg) (ra : Reg) : Roundtrip.Statement (.clz gd rd ra) := by
  intro w hw h
  have hw : (rd.plain && ra.plain) = true := hw
  simp only [Bool.and_eq_true] at hw
  obtain ⟨b21_5, f, r⟩ := word_reads 0x04000018 gd [(rd.code, 17, 4), (ra.code, 13, 4)] [(17, 4), (13, 4)] h rfl rfl (by decide) ⟨rd.code_lt, ra.code_lt, trivial⟩
  obtain ⟨b17_4, b13_4, -⟩ := f
  have m := r 26 6 (x := 1) (by decide)
  have b4_5 : bits w.toNat 4 5 = 1 := r 4 5 (by decide)
  have b0_9 : bits w.toNat 0 9 = 24 := r 0 9 (by decide)
  have b9_4 : bits w.toNat 9 4 = 0 := r 9 4 (by decide)
  have s : decodeForm w.toNat = .ok (.base (.clz gd rd ra)) := by
    unfold decodeForm; rw [m]; change decInt w.toNat _ = _
    refine Eq.trans (b := zero (bits w.toNat 9 4) (do let rd ← reg (bits w.toNat 17 4); let ra ← reg (bits w.toNat 13 4); pure (.base (.clz (BitVec.ofNat 5 (bits w.toNat 21 5)) rd ra)))) (by unfold decInt; rw [b4_5, if_neg (by decide), b0_9]; rfl) ?_
    simp only [b21_5, b9_4, b17_4, b13_4, zero, bind, Except.bind, pure, Except.pure, reg_code hw.1, reg_code hw.2, BitVec.ofNat_toNat, BitVec.setWidth_eq, ↓reduceIte]
  rw [decodeWord, s]; rfl

theorem Roundtrip.ctz (gd : Guard) (rd : Reg) (ra : Reg) : Roundtrip.Statement (.ctz gd rd ra) := by
  intro w hw h
  have hw : (rd.plain && ra.plain) = true := hw
  simp only [Bool.and_eq_true] at hw
  obtain ⟨b21_5, f, r⟩ := word_reads 0x04000019 gd [(rd.code, 17, 4), (ra.code, 13, 4)] [(17, 4), (13, 4)] h rfl rfl (by decide) ⟨rd.code_lt, ra.code_lt, trivial⟩
  obtain ⟨b17_4, b13_4, -⟩ := f
  have m := r 26 6 (x := 1) (by decide)
  have b4_5 : bits w.toNat 4 5 = 1 := r 4 5 (by decide)
  have b0_9 : bits w.toNat 0 9 = 25 := r 0 9 (by decide)
  have b9_4 : bits w.toNat 9 4 = 0 := r 9 4 (by decide)
  have s : decodeForm w.toNat = .ok (.base (.ctz gd rd ra)) := by
    unfold decodeForm; rw [m]; change decInt w.toNat _ = _
    refine Eq.trans (b := zero (bits w.toNat 9 4) (do let rd ← reg (bits w.toNat 17 4); let ra ← reg (bits w.toNat 13 4); pure (.base (.ctz (BitVec.ofNat 5 (bits w.toNat 21 5)) rd ra)))) (by unfold decInt; rw [b4_5, if_neg (by decide), b0_9]; rfl) ?_
    simp only [b21_5, b9_4, b17_4, b13_4, zero, bind, Except.bind, pure, Except.pure, reg_code hw.1, reg_code hw.2, BitVec.ofNat_toNat, BitVec.setWidth_eq, ↓reduceIte]
  rw [decodeWord, s]; rfl

theorem Roundtrip.popc (gd : Guard) (rd : Reg) (ra : Reg) : Roundtrip.Statement (.popc gd rd ra) := by
  intro w hw h
  have hw : (rd.plain && ra.plain) = true := hw
  simp only [Bool.and_eq_true] at hw
  obtain ⟨b21_5, f, r⟩ := word_reads 0x0400001A gd [(rd.code, 17, 4), (ra.code, 13, 4)] [(17, 4), (13, 4)] h rfl rfl (by decide) ⟨rd.code_lt, ra.code_lt, trivial⟩
  obtain ⟨b17_4, b13_4, -⟩ := f
  have m := r 26 6 (x := 1) (by decide)
  have b4_5 : bits w.toNat 4 5 = 1 := r 4 5 (by decide)
  have b0_9 : bits w.toNat 0 9 = 26 := r 0 9 (by decide)
  have b9_4 : bits w.toNat 9 4 = 0 := r 9 4 (by decide)
  have s : decodeForm w.toNat = .ok (.base (.popc gd rd ra)) := by
    unfold decodeForm; rw [m]; change decInt w.toNat _ = _
    refine Eq.trans (b := zero (bits w.toNat 9 4) (do let rd ← reg (bits w.toNat 17 4); let ra ← reg (bits w.toNat 13 4); pure (.base (.popc (BitVec.ofNat 5 (bits w.toNat 21 5)) rd ra)))) (by unfold decInt; rw [b4_5, if_neg (by decide), b0_9]; rfl) ?_
    simp only [b21_5, b9_4, b17_4, b13_4, zero, bind, Except.bind, pure, Except.pure, reg_code hw.1, reg_code hw.2, BitVec.ofNat_toNat, BitVec.setWidth_eq, ↓reduceIte]
  rw [decodeWord, s]; rfl

theorem Roundtrip.sextB (gd : Guard) (rd : Reg) (ra : Reg) : Roundtrip.Statement (.sextB gd rd ra) := by
  intro w hw h
  have hw : (rd.plain && ra.plain) = true := hw
  simp only [Bool.and_eq_true] at hw
  obtain ⟨b21_5, f, r⟩ := word_reads 0x04000020 gd [(rd.code, 17, 4), (ra.code, 13, 4)] [(17, 4), (13, 4)] h rfl rfl (by decide) ⟨rd.code_lt, ra.code_lt, trivial⟩
  obtain ⟨b17_4, b13_4, -⟩ := f
  have m := r 26 6 (x := 1) (by decide)
  have b4_5 : bits w.toNat 4 5 = 2 := r 4 5 (by decide)
  have b0_9 : bits w.toNat 0 9 = 32 := r 0 9 (by decide)
  have b9_4 : bits w.toNat 9 4 = 0 := r 9 4 (by decide)
  have s : decodeForm w.toNat = .ok (.base (.sextB gd rd ra)) := by
    unfold decodeForm; rw [m]; change decInt w.toNat _ = _
    refine Eq.trans (b := zero (bits w.toNat 9 4) (do let rd ← reg (bits w.toNat 17 4); let ra ← reg (bits w.toNat 13 4); pure (.base (.sextB (BitVec.ofNat 5 (bits w.toNat 21 5)) rd ra)))) (by unfold decInt; rw [b4_5, if_neg (by decide), b0_9]; rfl) ?_
    simp only [b21_5, b9_4, b17_4, b13_4, zero, bind, Except.bind, pure, Except.pure, reg_code hw.1, reg_code hw.2, BitVec.ofNat_toNat, BitVec.setWidth_eq, ↓reduceIte]
  rw [decodeWord, s]; rfl

theorem Roundtrip.sextH (gd : Guard) (rd : Reg) (ra : Reg) : Roundtrip.Statement (.sextH gd rd ra) := by
  intro w hw h
  have hw : (rd.plain && ra.plain) = true := hw
  simp only [Bool.and_eq_true] at hw
  obtain ⟨b21_5, f, r⟩ := word_reads 0x04000021 gd [(rd.code, 17, 4), (ra.code, 13, 4)] [(17, 4), (13, 4)] h rfl rfl (by decide) ⟨rd.code_lt, ra.code_lt, trivial⟩
  obtain ⟨b17_4, b13_4, -⟩ := f
  have m := r 26 6 (x := 1) (by decide)
  have b4_5 : bits w.toNat 4 5 = 2 := r 4 5 (by decide)
  have b0_9 : bits w.toNat 0 9 = 33 := r 0 9 (by decide)
  have b9_4 : bits w.toNat 9 4 = 0 := r 9 4 (by decide)
  have s : decodeForm w.toNat = .ok (.base (.sextH gd rd ra)) := by
    unfold decodeForm; rw [m]; change decInt w.toNat _ = _
    refine Eq.trans (b := zero (bits w.toNat 9 4) (do let rd ← reg (bits w.toNat 17 4); let ra ← reg (bits w.toNat 13 4); pure (.base (.sextH (BitVec.ofNat 5 (bits w.toNat 21 5)) rd ra)))) (by unfold decInt; rw [b4_5, if_neg (by decide), b0_9]; rfl) ?_
    simp only [b21_5, b9_4, b17_4, b13_4, zero, bind, Except.bind, pure, Except.pure, reg_code hw.1, reg_code hw.2, BitVec.ofNat_toNat, BitVec.setWidth_eq, ↓reduceIte]
  rw [decodeWord, s]; rfl

theorem Roundtrip.sextW (gd : Guard) (rd : Reg) (ra : Reg) : Roundtrip.Statement (.sextW gd rd ra) := by
  intro w hw h
  have hw : (rd.plain && ra.plain) = true := hw
  simp only [Bool.and_eq_true] at hw
  obtain ⟨b21_5, f, r⟩ := word_reads 0x04000022 gd [(rd.code, 17, 4), (ra.code, 13, 4)] [(17, 4), (13, 4)] h rfl rfl (by decide) ⟨rd.code_lt, ra.code_lt, trivial⟩
  obtain ⟨b17_4, b13_4, -⟩ := f
  have m := r 26 6 (x := 1) (by decide)
  have b4_5 : bits w.toNat 4 5 = 2 := r 4 5 (by decide)
  have b0_9 : bits w.toNat 0 9 = 34 := r 0 9 (by decide)
  have b9_4 : bits w.toNat 9 4 = 0 := r 9 4 (by decide)
  have s : decodeForm w.toNat = .ok (.base (.sextW gd rd ra)) := by
    unfold decodeForm; rw [m]; change decInt w.toNat _ = _
    refine Eq.trans (b := zero (bits w.toNat 9 4) (do let rd ← reg (bits w.toNat 17 4); let ra ← reg (bits w.toNat 13 4); pure (.base (.sextW (BitVec.ofNat 5 (bits w.toNat 21 5)) rd ra)))) (by unfold decInt; rw [b4_5, if_neg (by decide), b0_9]; rfl) ?_
    simp only [b21_5, b9_4, b17_4, b13_4, zero, bind, Except.bind, pure, Except.pure, reg_code hw.1, reg_code hw.2, BitVec.ofNat_toNat, BitVec.setWidth_eq, ↓reduceIte]
  rw [decodeWord, s]; rfl

theorem Roundtrip.zextB (gd : Guard) (rd : Reg) (ra : Reg) : Roundtrip.Statement (.zextB gd rd ra) := by
  intro w hw h
  have hw : (rd.plain && ra.plain) = true := hw
  simp only [Bool.and_eq_true] at hw
  obtain ⟨b21_5, f, r⟩ := word_reads 0x04000024 gd [(rd.code, 17, 4), (ra.code, 13, 4)] [(17, 4), (13, 4)] h rfl rfl (by decide) ⟨rd.code_lt, ra.code_lt, trivial⟩
  obtain ⟨b17_4, b13_4, -⟩ := f
  have m := r 26 6 (x := 1) (by decide)
  have b4_5 : bits w.toNat 4 5 = 2 := r 4 5 (by decide)
  have b0_9 : bits w.toNat 0 9 = 36 := r 0 9 (by decide)
  have b9_4 : bits w.toNat 9 4 = 0 := r 9 4 (by decide)
  have s : decodeForm w.toNat = .ok (.base (.zextB gd rd ra)) := by
    unfold decodeForm; rw [m]; change decInt w.toNat _ = _
    refine Eq.trans (b := zero (bits w.toNat 9 4) (do let rd ← reg (bits w.toNat 17 4); let ra ← reg (bits w.toNat 13 4); pure (.base (.zextB (BitVec.ofNat 5 (bits w.toNat 21 5)) rd ra)))) (by unfold decInt; rw [b4_5, if_neg (by decide), b0_9]; rfl) ?_
    simp only [b21_5, b9_4, b17_4, b13_4, zero, bind, Except.bind, pure, Except.pure, reg_code hw.1, reg_code hw.2, BitVec.ofNat_toNat, BitVec.setWidth_eq, ↓reduceIte]
  rw [decodeWord, s]; rfl

theorem Roundtrip.zextH (gd : Guard) (rd : Reg) (ra : Reg) : Roundtrip.Statement (.zextH gd rd ra) := by
  intro w hw h
  have hw : (rd.plain && ra.plain) = true := hw
  simp only [Bool.and_eq_true] at hw
  obtain ⟨b21_5, f, r⟩ := word_reads 0x04000025 gd [(rd.code, 17, 4), (ra.code, 13, 4)] [(17, 4), (13, 4)] h rfl rfl (by decide) ⟨rd.code_lt, ra.code_lt, trivial⟩
  obtain ⟨b17_4, b13_4, -⟩ := f
  have m := r 26 6 (x := 1) (by decide)
  have b4_5 : bits w.toNat 4 5 = 2 := r 4 5 (by decide)
  have b0_9 : bits w.toNat 0 9 = 37 := r 0 9 (by decide)
  have b9_4 : bits w.toNat 9 4 = 0 := r 9 4 (by decide)
  have s : decodeForm w.toNat = .ok (.base (.zextH gd rd ra)) := by
    unfold decodeForm; rw [m]; change decInt w.toNat _ = _
    refine Eq.trans (b := zero (bits w.toNat 9 4) (do let rd ← reg (bits w.toNat 17 4); let ra ← reg (bits w.toNat 13 4); pure (.base (.zextH (BitVec.ofNat 5 (bits w.toNat 21 5)) rd ra)))) (by unfold decInt; rw [b4_5, if_neg (by decide), b0_9]; rfl) ?_
    simp only [b21_5, b9_4, b17_4, b13_4, zero, bind, Except.bind, pure, Except.pure, reg_code hw.1, reg_code hw.2, BitVec.ofNat_toNat, BitVec.setWidth_eq, ↓reduceIte]
  rw [decodeWord, s]; rfl

theorem Roundtrip.zextW (gd : Guard) (rd : Reg) (ra : Reg) : Roundtrip.Statement (.zextW gd rd ra) := by
  intro w hw h
  have hw : (rd.plain && ra.plain) = true := hw
  simp only [Bool.and_eq_true] at hw
  obtain ⟨b21_5, f, r⟩ := word_reads 0x04000026 gd [(rd.code, 17, 4), (ra.code, 13, 4)] [(17, 4), (13, 4)] h rfl rfl (by decide) ⟨rd.code_lt, ra.code_lt, trivial⟩
  obtain ⟨b17_4, b13_4, -⟩ := f
  have m := r 26 6 (x := 1) (by decide)
  have b4_5 : bits w.toNat 4 5 = 2 := r 4 5 (by decide)
  have b0_9 : bits w.toNat 0 9 = 38 := r 0 9 (by decide)
  have b9_4 : bits w.toNat 9 4 = 0 := r 9 4 (by decide)
  have s : decodeForm w.toNat = .ok (.base (.zextW gd rd ra)) := by
    unfold decodeForm; rw [m]; change decInt w.toNat _ = _
    refine Eq.trans (b := zero (bits w.toNat 9 4) (do let rd ← reg (bits w.toNat 17 4); let ra ← reg (bits w.toNat 13 4); pure (.base (.zextW (BitVec.ofNat 5 (bits w.toNat 21 5)) rd ra)))) (by unfold decInt; rw [b4_5, if_neg (by decide), b0_9]; rfl) ?_
    simp only [b21_5, b9_4, b17_4, b13_4, zero, bind, Except.bind, pure, Except.pure, reg_code hw.1, reg_code hw.2, BitVec.ofNat_toNat, BitVec.setWidth_eq, ↓reduceIte]
  rw [decodeWord, s]; rfl

theorem Roundtrip.mov (gd : Guard) (rd : Reg) (ra : Reg) : Roundtrip.Statement (.mov gd rd ra) := by
  intro w hw h
  have hw : (rd.plain && ra.plain) = true := hw
  simp only [Bool.and_eq_true] at hw
  obtain ⟨b21_5, f, r⟩ := word_reads 0x04000030 gd [(rd.code, 17, 4), (ra.code, 13, 4)] [(17, 4), (13, 4)] h rfl rfl (by decide) ⟨rd.code_lt, ra.code_lt, trivial⟩
  obtain ⟨b17_4, b13_4, -⟩ := f
  have m := r 26 6 (x := 1) (by decide)
  have b4_5 : bits w.toNat 4 5 = 3 := r 4 5 (by decide)
  have b0_9 : bits w.toNat 0 9 = 48 := r 0 9 (by decide)
  have b9_4 : bits w.toNat 9 4 = 0 := r 9 4 (by decide)
  have s : decodeForm w.toNat = .ok (.base (.mov gd rd ra)) := by
    unfold decodeForm; rw [m]; change decInt w.toNat _ = _
    refine Eq.trans (b := zero (bits w.toNat 9 4) (do let rd ← reg (bits w.toNat 17 4); let ra ← reg (bits w.toNat 13 4); pure (.base (.mov (BitVec.ofNat 5 (bits w.toNat 21 5)) rd ra)))) (by unfold decInt; rw [b4_5, if_neg (by decide), b0_9]; rfl) ?_
    simp only [b21_5, b9_4, b17_4, b13_4, zero, bind, Except.bind, pure, Except.pure, reg_code hw.1, reg_code hw.2, BitVec.ofNat_toNat, BitVec.setWidth_eq, ↓reduceIte]
  rw [decodeWord, s]; rfl

theorem Roundtrip.ldk (gd : Guard) (rd : Reg) (ra : Reg) : Roundtrip.Statement (.ldk gd rd ra) := by
  intro w hw h
  have hw : (rd.plain && ra.plain) = true := hw
  simp only [Bool.and_eq_true] at hw
  obtain ⟨b21_5, f, r⟩ := word_reads 0x04000038 gd [(rd.code, 17, 4), (ra.code, 13, 4)] [(17, 4), (13, 4)] h rfl rfl (by decide) ⟨rd.code_lt, ra.code_lt, trivial⟩
  obtain ⟨b17_4, b13_4, -⟩ := f
  have m := r 26 6 (x := 1) (by decide)
  have b4_5 : bits w.toNat 4 5 = 3 := r 4 5 (by decide)
  have b0_9 : bits w.toNat 0 9 = 56 := r 0 9 (by decide)
  have b9_4 : bits w.toNat 9 4 = 0 := r 9 4 (by decide)
  have s : decodeForm w.toNat = .ok (.base (.ldk gd rd ra)) := by
    unfold decodeForm; rw [m]; change decInt w.toNat _ = _
    refine Eq.trans (b := zero (bits w.toNat 9 4) (do let rd ← reg (bits w.toNat 17 4); let ra ← reg (bits w.toNat 13 4); pure (.base (.ldk (BitVec.ofNat 5 (bits w.toNat 21 5)) rd ra)))) (by unfold decInt; rw [b4_5, if_neg (by decide), b0_9]; rfl) ?_
    simp only [b21_5, b9_4, b17_4, b13_4, zero, bind, Except.bind, pure, Except.pure, reg_code hw.1, reg_code hw.2, BitVec.ofNat_toNat, BitVec.setWidth_eq, ↓reduceIte]
  rw [decodeWord, s]; rfl

theorem Roundtrip.stk (gd : Guard) (ra : Reg) (rb : Reg) : Roundtrip.Statement (.stk gd ra rb) := by
  intro w hw h
  have hw : (ra.plain && rb.plain) = true := hw
  simp only [Bool.and_eq_true] at hw
  obtain ⟨b21_5, f, r⟩ := word_reads 0x04000039 gd [(ra.code, 13, 4), (rb.code, 9, 4)] [(13, 4), (9, 4)] h rfl rfl (by decide) ⟨ra.code_lt, rb.code_lt, trivial⟩
  obtain ⟨b13_4, b9_4, -⟩ := f
  have m := r 26 6 (x := 1) (by decide)
  have b4_5 : bits w.toNat 4 5 = 3 := r 4 5 (by decide)
  have b0_9 : bits w.toNat 0 9 = 57 := r 0 9 (by decide)
  have b17_4 : bits w.toNat 17 4 = 0 := r 17 4 (by decide)
  have s : decodeForm w.toNat = .ok (.base (.stk gd ra rb)) := by
    unfold decodeForm; rw [m]; change decInt w.toNat _ = _
    refine Eq.trans (b := zero (bits w.toNat 17 4) (do let ra ← reg (bits w.toNat 13 4); let rb ← reg (bits w.toNat 9 4); pure (.base (.stk (BitVec.ofNat 5 (bits w.toNat 21 5)) ra rb)))) (by unfold decInt; rw [b4_5, if_neg (by decide), b0_9]; rfl) ?_
    simp only [b21_5, b17_4, b13_4, b9_4, zero, bind, Except.bind, pure, Except.pure, reg_code hw.1, reg_code hw.2, BitVec.ofNat_toNat, BitVec.setWidth_eq, ↓reduceIte]
  rw [decodeWord, s]; rfl

theorem Roundtrip.sel (gd : Guard) (rd : Reg) (ra : Reg) (rb : Reg) (p : Pred) : Roundtrip.Statement (.sel gd rd ra rb p) := by
  intro w hw h
  have hw : (rd.plain && ra.plain && rb.plain) = true := hw
  simp only [Bool.and_eq_true] at hw
  obtain ⟨b21_5, f, r⟩ := word_reads 0x04000100 gd [(rd.code, 17, 4), (ra.code, 13, 4), (rb.code, 9, 4), (p.toNat, 0, 4)] [(17, 4), (13, 4), (9, 4), (0, 4)] h rfl rfl (by decide) ⟨rd.code_lt, ra.code_lt, rb.code_lt, p.isLt, trivial⟩
  obtain ⟨b17_4, b13_4, b9_4, b0_4, -⟩ := f
  have m := r 26 6 (x := 1) (by decide)
  have b4_5 : bits w.toNat 4 5 = 16 := r 4 5 (by decide)
  have s : decodeForm w.toNat = .ok (.base (.sel gd rd ra rb p)) := by
    unfold decodeForm; rw [m]; change decInt w.toNat _ = _
    refine Eq.trans (b := (do let rd ← reg (bits w.toNat 17 4); let ra ← reg (bits w.toNat 13 4); let rb ← reg (bits w.toNat 9 4); let p := BitVec.ofNat 4 (bits w.toNat 0 4); pure (.base (.sel (BitVec.ofNat 5 (bits w.toNat 21 5)) rd ra rb p)))) (by unfold decInt; rw [b4_5, if_pos rfl]) ?_
    simp only [b21_5, b4_5, b17_4, b13_4, b9_4, b0_4, bind, Except.bind, pure, Except.pure, reg_code hw.1.1, reg_code hw.1.2, reg_code hw.2, BitVec.ofNat_toNat, BitVec.setWidth_eq, ↓reduceIte]
  rw [decodeWord, s]; rfl

theorem Roundtrip.nop (gd : Guard) : Roundtrip.Statement (.nop gd) := by
  intro w _ h
  obtain ⟨b21_5, -, r⟩ := word_reads 0x040001F0 gd [] [] h rfl rfl (by decide) trivial
  have m := r 26 6 (x := 1) (by decide)
  have b4_5 : bits w.toNat 4 5 = 31 := r 4 5 (by decide)
  have b0_9 : bits w.toNat 0 9 = 496 := r 0 9 (by decide)
  have b9_12 : bits w.toNat 9 12 = 0 := r 9 12 (by decide)
  have s : decodeForm w.toNat = .ok (.base (.nop gd)) := by
    unfold decodeForm; rw [m]; change decInt w.toNat _ = _
    unfold decInt; rw [b4_5, if_neg (by decide)]; split <;> simp_all [zero, pure, Except.pure]
  rw [decodeWord, s]; rfl

theorem Roundtrip.addK (gd : Guard) (rd : Reg) (ra : Reg) (k : BitVec 8) : Roundtrip.Statement (.addK gd rd ra k) := by
  intro w _ h
  obtain ⟨b21_5, f, r⟩ := word_reads 0x08000000 gd [(rd.code, 17, 4), (ra.code, 13, 4), (k.toNat, 5, 8)] [(17, 4), (13, 4), (5, 8)] h rfl rfl (by decide) ⟨rd.code_lt, ra.code_lt, k.isLt, trivial⟩
  obtain ⟨b17_4, b13_4, b5_8, -⟩ := f
  have m := r 26 6 (x := 2) (by decide)
  have b0_5 : bits w.toNat 0 5 = 0 := r 0 5 (by decide)
  have s : decodeForm w.toNat = .ok (.base (.addK gd rd ra k)) := by
    unfold decodeForm; rw [m]; change decIntK w.toNat _ = _
    refine Eq.trans (b := (do let rd ← regK (bits w.toNat 17 4); let ra ← regK (bits w.toNat 13 4); let k := BitVec.ofNat 8 (bits w.toNat 5 8); pure (.base (.addK (BitVec.ofNat 5 (bits w.toNat 21 5)) rd ra k)))) (by unfold decIntK; rw [b0_5]; rfl) ?_
    simp only [b21_5, b17_4, b13_4, b5_8, bind, Except.bind, pure, Except.pure, regK_code rd, regK_code ra, BitVec.ofNat_toNat, BitVec.setWidth_eq]
  rw [decodeWord, s]; rfl

theorem Roundtrip.subK (gd : Guard) (rd : Reg) (ra : Reg) (k : BitVec 8) : Roundtrip.Statement (.subK gd rd ra k) := by
  intro w _ h
  obtain ⟨b21_5, f, r⟩ := word_reads 0x08000001 gd [(rd.code, 17, 4), (ra.code, 13, 4), (k.toNat, 5, 8)] [(17, 4), (13, 4), (5, 8)] h rfl rfl (by decide) ⟨rd.code_lt, ra.code_lt, k.isLt, trivial⟩
  obtain ⟨b17_4, b13_4, b5_8, -⟩ := f
  have m := r 26 6 (x := 2) (by decide)
  have b0_5 : bits w.toNat 0 5 = 1 := r 0 5 (by decide)
  have s : decodeForm w.toNat = .ok (.base (.subK gd rd ra k)) := by
    unfold decodeForm; rw [m]; change decIntK w.toNat _ = _
    refine Eq.trans (b := (do let rd ← regK (bits w.toNat 17 4); let ra ← regK (bits w.toNat 13 4); let k := BitVec.ofNat 8 (bits w.toNat 5 8); pure (.base (.subK (BitVec.ofNat 5 (bits w.toNat 21 5)) rd ra k)))) (by unfold decIntK; rw [b0_5]; rfl) ?_
    simp only [b21_5, b17_4, b13_4, b5_8, bind, Except.bind, pure, Except.pure, regK_code rd, regK_code ra, BitVec.ofNat_toNat, BitVec.setWidth_eq]
  rw [decodeWord, s]; rfl

theorem Roundtrip.andK (gd : Guard) (rd : Reg) (ra : Reg) (k : BitVec 8) : Roundtrip.Statement (.andK gd rd ra k) := by
  intro w _ h
  obtain ⟨b21_5, f, r⟩ := word_reads 0x08000002 gd [(rd.code, 17, 4), (ra.code, 13, 4), (k.toNat, 5, 8)] [(17, 4), (13, 4), (5, 8)] h rfl rfl (by decide) ⟨rd.code_lt, ra.code_lt, k.isLt, trivial⟩
  obtain ⟨b17_4, b13_4, b5_8, -⟩ := f
  have m := r 26 6 (x := 2) (by decide)
  have b0_5 : bits w.toNat 0 5 = 2 := r 0 5 (by decide)
  have s : decodeForm w.toNat = .ok (.base (.andK gd rd ra k)) := by
    unfold decodeForm; rw [m]; change decIntK w.toNat _ = _
    refine Eq.trans (b := (do let rd ← regK (bits w.toNat 17 4); let ra ← regK (bits w.toNat 13 4); let k := BitVec.ofNat 8 (bits w.toNat 5 8); pure (.base (.andK (BitVec.ofNat 5 (bits w.toNat 21 5)) rd ra k)))) (by unfold decIntK; rw [b0_5]; rfl) ?_
    simp only [b21_5, b17_4, b13_4, b5_8, bind, Except.bind, pure, Except.pure, regK_code rd, regK_code ra, BitVec.ofNat_toNat, BitVec.setWidth_eq]
  rw [decodeWord, s]; rfl

theorem Roundtrip.orK (gd : Guard) (rd : Reg) (ra : Reg) (k : BitVec 8) : Roundtrip.Statement (.orK gd rd ra k) := by
  intro w _ h
  obtain ⟨b21_5, f, r⟩ := word_reads 0x08000003 gd [(rd.code, 17, 4), (ra.code, 13, 4), (k.toNat, 5, 8)] [(17, 4), (13, 4), (5, 8)] h rfl rfl (by decide) ⟨rd.code_lt, ra.code_lt, k.isLt, trivial⟩
  obtain ⟨b17_4, b13_4, b5_8, -⟩ := f
  have m := r 26 6 (x := 2) (by decide)
  have b0_5 : bits w.toNat 0 5 = 3 := r 0 5 (by decide)
  have s : decodeForm w.toNat = .ok (.base (.orK gd rd ra k)) := by
    unfold decodeForm; rw [m]; change decIntK w.toNat _ = _
    refine Eq.trans (b := (do let rd ← regK (bits w.toNat 17 4); let ra ← regK (bits w.toNat 13 4); let k := BitVec.ofNat 8 (bits w.toNat 5 8); pure (.base (.orK (BitVec.ofNat 5 (bits w.toNat 21 5)) rd ra k)))) (by unfold decIntK; rw [b0_5]; rfl) ?_
    simp only [b21_5, b17_4, b13_4, b5_8, bind, Except.bind, pure, Except.pure, regK_code rd, regK_code ra, BitVec.ofNat_toNat, BitVec.setWidth_eq]
  rw [decodeWord, s]; rfl

theorem Roundtrip.xorK (gd : Guard) (rd : Reg) (ra : Reg) (k : BitVec 8) : Roundtrip.Statement (.xorK gd rd ra k) := by
  intro w _ h
  obtain ⟨b21_5, f, r⟩ := word_reads 0x08000004 gd [(rd.code, 17, 4), (ra.code, 13, 4), (k.toNat, 5, 8)] [(17, 4), (13, 4), (5, 8)] h rfl rfl (by decide) ⟨rd.code_lt, ra.code_lt, k.isLt, trivial⟩
  obtain ⟨b17_4, b13_4, b5_8, -⟩ := f
  have m := r 26 6 (x := 2) (by decide)
  have b0_5 : bits w.toNat 0 5 = 4 := r 0 5 (by decide)
  have s : decodeForm w.toNat = .ok (.base (.xorK gd rd ra k)) := by
    unfold decodeForm; rw [m]; change decIntK w.toNat _ = _
    refine Eq.trans (b := (do let rd ← regK (bits w.toNat 17 4); let ra ← regK (bits w.toNat 13 4); let k := BitVec.ofNat 8 (bits w.toNat 5 8); pure (.base (.xorK (BitVec.ofNat 5 (bits w.toNat 21 5)) rd ra k)))) (by unfold decIntK; rw [b0_5]; rfl) ?_
    simp only [b21_5, b17_4, b13_4, b5_8, bind, Except.bind, pure, Except.pure, regK_code rd, regK_code ra, BitVec.ofNat_toNat, BitVec.setWidth_eq]
  rw [decodeWord, s]; rfl

theorem Roundtrip.andnK (gd : Guard) (rd : Reg) (ra : Reg) (k : BitVec 8) : Roundtrip.Statement (.andnK gd rd ra k) := by
  intro w _ h
  obtain ⟨b21_5, f, r⟩ := word_reads 0x08000005 gd [(rd.code, 17, 4), (ra.code, 13, 4), (k.toNat, 5, 8)] [(17, 4), (13, 4), (5, 8)] h rfl rfl (by decide) ⟨rd.code_lt, ra.code_lt, k.isLt, trivial⟩
  obtain ⟨b17_4, b13_4, b5_8, -⟩ := f
  have m := r 26 6 (x := 2) (by decide)
  have b0_5 : bits w.toNat 0 5 = 5 := r 0 5 (by decide)
  have s : decodeForm w.toNat = .ok (.base (.andnK gd rd ra k)) := by
    unfold decodeForm; rw [m]; change decIntK w.toNat _ = _
    refine Eq.trans (b := (do let rd ← regK (bits w.toNat 17 4); let ra ← regK (bits w.toNat 13 4); let k := BitVec.ofNat 8 (bits w.toNat 5 8); pure (.base (.andnK (BitVec.ofNat 5 (bits w.toNat 21 5)) rd ra k)))) (by unfold decIntK; rw [b0_5]; rfl) ?_
    simp only [b21_5, b17_4, b13_4, b5_8, bind, Except.bind, pure, Except.pure, regK_code rd, regK_code ra, BitVec.ofNat_toNat, BitVec.setWidth_eq]
  rw [decodeWord, s]; rfl

theorem Roundtrip.ornK (gd : Guard) (rd : Reg) (ra : Reg) (k : BitVec 8) : Roundtrip.Statement (.ornK gd rd ra k) := by
  intro w _ h
  obtain ⟨b21_5, f, r⟩ := word_reads 0x08000006 gd [(rd.code, 17, 4), (ra.code, 13, 4), (k.toNat, 5, 8)] [(17, 4), (13, 4), (5, 8)] h rfl rfl (by decide) ⟨rd.code_lt, ra.code_lt, k.isLt, trivial⟩
  obtain ⟨b17_4, b13_4, b5_8, -⟩ := f
  have m := r 26 6 (x := 2) (by decide)
  have b0_5 : bits w.toNat 0 5 = 6 := r 0 5 (by decide)
  have s : decodeForm w.toNat = .ok (.base (.ornK gd rd ra k)) := by
    unfold decodeForm; rw [m]; change decIntK w.toNat _ = _
    refine Eq.trans (b := (do let rd ← regK (bits w.toNat 17 4); let ra ← regK (bits w.toNat 13 4); let k := BitVec.ofNat 8 (bits w.toNat 5 8); pure (.base (.ornK (BitVec.ofNat 5 (bits w.toNat 21 5)) rd ra k)))) (by unfold decIntK; rw [b0_5]; rfl) ?_
    simp only [b21_5, b17_4, b13_4, b5_8, bind, Except.bind, pure, Except.pure, regK_code rd, regK_code ra, BitVec.ofNat_toNat, BitVec.setWidth_eq]
  rw [decodeWord, s]; rfl

theorem Roundtrip.minK (gd : Guard) (rd : Reg) (ra : Reg) (k : BitVec 8) : Roundtrip.Statement (.minK gd rd ra k) := by
  intro w _ h
  obtain ⟨b21_5, f, r⟩ := word_reads 0x08000008 gd [(rd.code, 17, 4), (ra.code, 13, 4), (k.toNat, 5, 8)] [(17, 4), (13, 4), (5, 8)] h rfl rfl (by decide) ⟨rd.code_lt, ra.code_lt, k.isLt, trivial⟩
  obtain ⟨b17_4, b13_4, b5_8, -⟩ := f
  have m := r 26 6 (x := 2) (by decide)
  have b0_5 : bits w.toNat 0 5 = 8 := r 0 5 (by decide)
  have s : decodeForm w.toNat = .ok (.base (.minK gd rd ra k)) := by
    unfold decodeForm; rw [m]; change decIntK w.toNat _ = _
    refine Eq.trans (b := (do let rd ← regK (bits w.toNat 17 4); let ra ← regK (bits w.toNat 13 4); let k := BitVec.ofNat 8 (bits w.toNat 5 8); pure (.base (.minK (BitVec.ofNat 5 (bits w.toNat 21 5)) rd ra k)))) (by unfold decIntK; rw [b0_5]; rfl) ?_
    simp only [b21_5, b17_4, b13_4, b5_8, bind, Except.bind, pure, Except.pure, regK_code rd, regK_code ra, BitVec.ofNat_toNat, BitVec.setWidth_eq]
  rw [decodeWord, s]; rfl

theorem Roundtrip.maxK (gd : Guard) (rd : Reg) (ra : Reg) (k : BitVec 8) : Roundtrip.Statement (.maxK gd rd ra k) := by
  intro w _ h
  obtain ⟨b21_5, f, r⟩ := word_reads 0x08000009 gd [(rd.code, 17, 4), (ra.code, 13, 4), (k.toNat, 5, 8)] [(17, 4), (13, 4), (5, 8)] h rfl rfl (by decide) ⟨rd.code_lt, ra.code_lt, k.isLt, trivial⟩
  obtain ⟨b17_4, b13_4, b5_8, -⟩ := f
  have m := r 26 6 (x := 2) (by decide)
  have b0_5 : bits w.toNat 0 5 = 9 := r 0 5 (by decide)
  have s : decodeForm w.toNat = .ok (.base (.maxK gd rd ra k)) := by
    unfold decodeForm; rw [m]; change decIntK w.toNat _ = _
    refine Eq.trans (b := (do let rd ← regK (bits w.toNat 17 4); let ra ← regK (bits w.toNat 13 4); let k := BitVec.ofNat 8 (bits w.toNat 5 8); pure (.base (.maxK (BitVec.ofNat 5 (bits w.toNat 21 5)) rd ra k)))) (by unfold decIntK; rw [b0_5]; rfl) ?_
    simp only [b21_5, b17_4, b13_4, b5_8, bind, Except.bind, pure, Except.pure, regK_code rd, regK_code ra, BitVec.ofNat_toNat, BitVec.setWidth_eq]
  rw [decodeWord, s]; rfl

theorem Roundtrip.minsK (gd : Guard) (rd : Reg) (ra : Reg) (k : BitVec 8) : Roundtrip.Statement (.minsK gd rd ra k) := by
  intro w _ h
  obtain ⟨b21_5, f, r⟩ := word_reads 0x0800000A gd [(rd.code, 17, 4), (ra.code, 13, 4), (k.toNat, 5, 8)] [(17, 4), (13, 4), (5, 8)] h rfl rfl (by decide) ⟨rd.code_lt, ra.code_lt, k.isLt, trivial⟩
  obtain ⟨b17_4, b13_4, b5_8, -⟩ := f
  have m := r 26 6 (x := 2) (by decide)
  have b0_5 : bits w.toNat 0 5 = 10 := r 0 5 (by decide)
  have s : decodeForm w.toNat = .ok (.base (.minsK gd rd ra k)) := by
    unfold decodeForm; rw [m]; change decIntK w.toNat _ = _
    refine Eq.trans (b := (do let rd ← regK (bits w.toNat 17 4); let ra ← regK (bits w.toNat 13 4); let k := BitVec.ofNat 8 (bits w.toNat 5 8); pure (.base (.minsK (BitVec.ofNat 5 (bits w.toNat 21 5)) rd ra k)))) (by unfold decIntK; rw [b0_5]; rfl) ?_
    simp only [b21_5, b17_4, b13_4, b5_8, bind, Except.bind, pure, Except.pure, regK_code rd, regK_code ra, BitVec.ofNat_toNat, BitVec.setWidth_eq]
  rw [decodeWord, s]; rfl

theorem Roundtrip.maxsK (gd : Guard) (rd : Reg) (ra : Reg) (k : BitVec 8) : Roundtrip.Statement (.maxsK gd rd ra k) := by
  intro w _ h
  obtain ⟨b21_5, f, r⟩ := word_reads 0x0800000B gd [(rd.code, 17, 4), (ra.code, 13, 4), (k.toNat, 5, 8)] [(17, 4), (13, 4), (5, 8)] h rfl rfl (by decide) ⟨rd.code_lt, ra.code_lt, k.isLt, trivial⟩
  obtain ⟨b17_4, b13_4, b5_8, -⟩ := f
  have m := r 26 6 (x := 2) (by decide)
  have b0_5 : bits w.toNat 0 5 = 11 := r 0 5 (by decide)
  have s : decodeForm w.toNat = .ok (.base (.maxsK gd rd ra k)) := by
    unfold decodeForm; rw [m]; change decIntK w.toNat _ = _
    refine Eq.trans (b := (do let rd ← regK (bits w.toNat 17 4); let ra ← regK (bits w.toNat 13 4); let k := BitVec.ofNat 8 (bits w.toNat 5 8); pure (.base (.maxsK (BitVec.ofNat 5 (bits w.toNat 21 5)) rd ra k)))) (by unfold decIntK; rw [b0_5]; rfl) ?_
    simp only [b21_5, b17_4, b13_4, b5_8, bind, Except.bind, pure, Except.pure, regK_code rd, regK_code ra, BitVec.ofNat_toNat, BitVec.setWidth_eq]
  rw [decodeWord, s]; rfl

theorem Roundtrip.movK (gd : Guard) (rd : Reg) (k : BitVec 8) : Roundtrip.Statement (.movK gd rd k) := by
  intro w _ h
  obtain ⟨b21_5, f, r⟩ := word_reads 0x08000010 gd [(rd.code, 17, 4), (k.toNat, 5, 8)] [(17, 4), (5, 8)] h rfl rfl (by decide) ⟨rd.code_lt, k.isLt, trivial⟩
  obtain ⟨b17_4, b5_8, -⟩ := f
  have m := r 26 6 (x := 2) (by decide)
  have b0_5 : bits w.toNat 0 5 = 16 := r 0 5 (by decide)
  have b13_4 : bits w.toNat 13 4 = 0 := r 13 4 (by decide)
  have s : decodeForm w.toNat = .ok (.base (.movK gd rd k)) := by
    unfold decodeForm; rw [m]; change decIntK w.toNat _ = _
    refine Eq.trans (b := zero (bits w.toNat 13 4) (do let rd ← regK (bits w.toNat 17 4); let k := BitVec.ofNat 8 (bits w.toNat 5 8); pure (.base (.movK (BitVec.ofNat 5 (bits w.toNat 21 5)) rd k)))) (by unfold decIntK; rw [b0_5]; rfl) ?_
    simp only [b21_5, b13_4, b17_4, b5_8, zero, bind, Except.bind, pure, Except.pure, regK_code rd, BitVec.ofNat_toNat, BitVec.setWidth_eq, ↓reduceIte]
  rw [decodeWord, s]; rfl

theorem Roundtrip.stkK (gd : Guard) (ra : Reg) (k : BitVec 8) : Roundtrip.Statement (.stkK gd ra k) := by
  intro w _ h
  obtain ⟨b21_5, f, r⟩ := word_reads 0x08000011 gd [(ra.code, 13, 4), (k.toNat, 5, 8)] [(13, 4), (5, 8)] h rfl rfl (by decide) ⟨ra.code_lt, k.isLt, trivial⟩
  obtain ⟨b13_4, b5_8, -⟩ := f
  have m := r 26 6 (x := 2) (by decide)
  have b0_5 : bits w.toNat 0 5 = 17 := r 0 5 (by decide)
  have b17_4 : bits w.toNat 17 4 = 0 := r 17 4 (by decide)
  have s : decodeForm w.toNat = .ok (.base (.stkK gd ra k)) := by
    unfold decodeForm; rw [m]; change decIntK w.toNat _ = _
    refine Eq.trans (b := zero (bits w.toNat 17 4) (do let ra ← regK (bits w.toNat 13 4); let k := BitVec.ofNat 8 (bits w.toNat 5 8); pure (.base (.stkK (BitVec.ofNat 5 (bits w.toNat 21 5)) ra k)))) (by unfold decIntK; rw [b0_5]; rfl) ?_
    simp only [b21_5, b17_4, b13_4, b5_8, zero, bind, Except.bind, pure, Except.pure, regK_code ra, BitVec.ofNat_toNat, BitVec.setWidth_eq, ↓reduceIte]
  rw [decodeWord, s]; rfl

theorem Roundtrip.cmpEq (gd : Guard) (p : Pred) (ra : Reg) (rb : Reg) : Roundtrip.Statement (.cmpEq gd p ra rb) := by
  intro w hw h
  have hw : (ra.plain && rb.plain) = true := hw
  simp only [Bool.and_eq_true] at hw
  obtain ⟨b21_5, f, r⟩ := word_reads 0x0C000000 gd [(p.toNat, 17, 4), (ra.code, 13, 4), (rb.code, 9, 4)] [(17, 4), (13, 4), (9, 4)] h rfl rfl (by decide) ⟨p.isLt, ra.code_lt, rb.code_lt, trivial⟩
  obtain ⟨b17_4, b13_4, b9_4, -⟩ := f
  have m := r 26 6 (x := 3) (by decide)
  have b4_1 : bits w.toNat 4 1 = 0 := r 4 1 (by decide)
  have b0_4 : bits w.toNat 0 4 = 0 := r 0 4 (by decide)
  have b5_4 : bits w.toNat 5 4 = 0 := r 5 4 (by decide)
  have s : decodeForm w.toNat = .ok (.base (.cmpEq gd p ra rb)) := by
    unfold decodeForm; rw [m]; change decCmp w.toNat _ = _
    refine Eq.trans (b := zero (bits w.toNat 5 4) (do let p := BitVec.ofNat 4 (bits w.toNat 17 4); let ra ← reg (bits w.toNat 13 4); let rb ← reg (bits w.toNat 9 4); pure (.base (.cmpEq (BitVec.ofNat 5 (bits w.toNat 21 5)) p ra rb)))) (by unfold decCmp; rw [b4_1, if_pos rfl, b0_4]; rfl) ?_
    simp only [b21_5, b5_4, b17_4, b13_4, b9_4, zero, bind, Except.bind, pure, Except.pure, reg_code hw.1, reg_code hw.2, BitVec.ofNat_toNat, BitVec.setWidth_eq, ↓reduceIte]
  rw [decodeWord, s]; rfl

theorem Roundtrip.cmpNe (gd : Guard) (p : Pred) (ra : Reg) (rb : Reg) : Roundtrip.Statement (.cmpNe gd p ra rb) := by
  intro w hw h
  have hw : (ra.plain && rb.plain) = true := hw
  simp only [Bool.and_eq_true] at hw
  obtain ⟨b21_5, f, r⟩ := word_reads 0x0C000001 gd [(p.toNat, 17, 4), (ra.code, 13, 4), (rb.code, 9, 4)] [(17, 4), (13, 4), (9, 4)] h rfl rfl (by decide) ⟨p.isLt, ra.code_lt, rb.code_lt, trivial⟩
  obtain ⟨b17_4, b13_4, b9_4, -⟩ := f
  have m := r 26 6 (x := 3) (by decide)
  have b4_1 : bits w.toNat 4 1 = 0 := r 4 1 (by decide)
  have b0_4 : bits w.toNat 0 4 = 1 := r 0 4 (by decide)
  have b5_4 : bits w.toNat 5 4 = 0 := r 5 4 (by decide)
  have s : decodeForm w.toNat = .ok (.base (.cmpNe gd p ra rb)) := by
    unfold decodeForm; rw [m]; change decCmp w.toNat _ = _
    refine Eq.trans (b := zero (bits w.toNat 5 4) (do let p := BitVec.ofNat 4 (bits w.toNat 17 4); let ra ← reg (bits w.toNat 13 4); let rb ← reg (bits w.toNat 9 4); pure (.base (.cmpNe (BitVec.ofNat 5 (bits w.toNat 21 5)) p ra rb)))) (by unfold decCmp; rw [b4_1, if_pos rfl, b0_4]; rfl) ?_
    simp only [b21_5, b5_4, b17_4, b13_4, b9_4, zero, bind, Except.bind, pure, Except.pure, reg_code hw.1, reg_code hw.2, BitVec.ofNat_toNat, BitVec.setWidth_eq, ↓reduceIte]
  rw [decodeWord, s]; rfl

theorem Roundtrip.cmpLt (gd : Guard) (p : Pred) (ra : Reg) (rb : Reg) : Roundtrip.Statement (.cmpLt gd p ra rb) := by
  intro w hw h
  have hw : (ra.plain && rb.plain) = true := hw
  simp only [Bool.and_eq_true] at hw
  obtain ⟨b21_5, f, r⟩ := word_reads 0x0C000002 gd [(p.toNat, 17, 4), (ra.code, 13, 4), (rb.code, 9, 4)] [(17, 4), (13, 4), (9, 4)] h rfl rfl (by decide) ⟨p.isLt, ra.code_lt, rb.code_lt, trivial⟩
  obtain ⟨b17_4, b13_4, b9_4, -⟩ := f
  have m := r 26 6 (x := 3) (by decide)
  have b4_1 : bits w.toNat 4 1 = 0 := r 4 1 (by decide)
  have b0_4 : bits w.toNat 0 4 = 2 := r 0 4 (by decide)
  have b5_4 : bits w.toNat 5 4 = 0 := r 5 4 (by decide)
  have s : decodeForm w.toNat = .ok (.base (.cmpLt gd p ra rb)) := by
    unfold decodeForm; rw [m]; change decCmp w.toNat _ = _
    refine Eq.trans (b := zero (bits w.toNat 5 4) (do let p := BitVec.ofNat 4 (bits w.toNat 17 4); let ra ← reg (bits w.toNat 13 4); let rb ← reg (bits w.toNat 9 4); pure (.base (.cmpLt (BitVec.ofNat 5 (bits w.toNat 21 5)) p ra rb)))) (by unfold decCmp; rw [b4_1, if_pos rfl, b0_4]; rfl) ?_
    simp only [b21_5, b5_4, b17_4, b13_4, b9_4, zero, bind, Except.bind, pure, Except.pure, reg_code hw.1, reg_code hw.2, BitVec.ofNat_toNat, BitVec.setWidth_eq, ↓reduceIte]
  rw [decodeWord, s]; rfl

theorem Roundtrip.cmpGe (gd : Guard) (p : Pred) (ra : Reg) (rb : Reg) : Roundtrip.Statement (.cmpGe gd p ra rb) := by
  intro w hw h
  have hw : (ra.plain && rb.plain) = true := hw
  simp only [Bool.and_eq_true] at hw
  obtain ⟨b21_5, f, r⟩ := word_reads 0x0C000003 gd [(p.toNat, 17, 4), (ra.code, 13, 4), (rb.code, 9, 4)] [(17, 4), (13, 4), (9, 4)] h rfl rfl (by decide) ⟨p.isLt, ra.code_lt, rb.code_lt, trivial⟩
  obtain ⟨b17_4, b13_4, b9_4, -⟩ := f
  have m := r 26 6 (x := 3) (by decide)
  have b4_1 : bits w.toNat 4 1 = 0 := r 4 1 (by decide)
  have b0_4 : bits w.toNat 0 4 = 3 := r 0 4 (by decide)
  have b5_4 : bits w.toNat 5 4 = 0 := r 5 4 (by decide)
  have s : decodeForm w.toNat = .ok (.base (.cmpGe gd p ra rb)) := by
    unfold decodeForm; rw [m]; change decCmp w.toNat _ = _
    refine Eq.trans (b := zero (bits w.toNat 5 4) (do let p := BitVec.ofNat 4 (bits w.toNat 17 4); let ra ← reg (bits w.toNat 13 4); let rb ← reg (bits w.toNat 9 4); pure (.base (.cmpGe (BitVec.ofNat 5 (bits w.toNat 21 5)) p ra rb)))) (by unfold decCmp; rw [b4_1, if_pos rfl, b0_4]; rfl) ?_
    simp only [b21_5, b5_4, b17_4, b13_4, b9_4, zero, bind, Except.bind, pure, Except.pure, reg_code hw.1, reg_code hw.2, BitVec.ofNat_toNat, BitVec.setWidth_eq, ↓reduceIte]
  rw [decodeWord, s]; rfl

theorem Roundtrip.cmpLe (gd : Guard) (p : Pred) (ra : Reg) (rb : Reg) : Roundtrip.Statement (.cmpLe gd p ra rb) := by
  intro w hw h
  have hw : (ra.plain && rb.plain) = true := hw
  simp only [Bool.and_eq_true] at hw
  obtain ⟨b21_5, f, r⟩ := word_reads 0x0C000004 gd [(p.toNat, 17, 4), (ra.code, 13, 4), (rb.code, 9, 4)] [(17, 4), (13, 4), (9, 4)] h rfl rfl (by decide) ⟨p.isLt, ra.code_lt, rb.code_lt, trivial⟩
  obtain ⟨b17_4, b13_4, b9_4, -⟩ := f
  have m := r 26 6 (x := 3) (by decide)
  have b4_1 : bits w.toNat 4 1 = 0 := r 4 1 (by decide)
  have b0_4 : bits w.toNat 0 4 = 4 := r 0 4 (by decide)
  have b5_4 : bits w.toNat 5 4 = 0 := r 5 4 (by decide)
  have s : decodeForm w.toNat = .ok (.base (.cmpLe gd p ra rb)) := by
    unfold decodeForm; rw [m]; change decCmp w.toNat _ = _
    refine Eq.trans (b := zero (bits w.toNat 5 4) (do let p := BitVec.ofNat 4 (bits w.toNat 17 4); let ra ← reg (bits w.toNat 13 4); let rb ← reg (bits w.toNat 9 4); pure (.base (.cmpLe (BitVec.ofNat 5 (bits w.toNat 21 5)) p ra rb)))) (by unfold decCmp; rw [b4_1, if_pos rfl, b0_4]; rfl) ?_
    simp only [b21_5, b5_4, b17_4, b13_4, b9_4, zero, bind, Except.bind, pure, Except.pure, reg_code hw.1, reg_code hw.2, BitVec.ofNat_toNat, BitVec.setWidth_eq, ↓reduceIte]
  rw [decodeWord, s]; rfl

theorem Roundtrip.cmpGt (gd : Guard) (p : Pred) (ra : Reg) (rb : Reg) : Roundtrip.Statement (.cmpGt gd p ra rb) := by
  intro w hw h
  have hw : (ra.plain && rb.plain) = true := hw
  simp only [Bool.and_eq_true] at hw
  obtain ⟨b21_5, f, r⟩ := word_reads 0x0C000005 gd [(p.toNat, 17, 4), (ra.code, 13, 4), (rb.code, 9, 4)] [(17, 4), (13, 4), (9, 4)] h rfl rfl (by decide) ⟨p.isLt, ra.code_lt, rb.code_lt, trivial⟩
  obtain ⟨b17_4, b13_4, b9_4, -⟩ := f
  have m := r 26 6 (x := 3) (by decide)
  have b4_1 : bits w.toNat 4 1 = 0 := r 4 1 (by decide)
  have b0_4 : bits w.toNat 0 4 = 5 := r 0 4 (by decide)
  have b5_4 : bits w.toNat 5 4 = 0 := r 5 4 (by decide)
  have s : decodeForm w.toNat = .ok (.base (.cmpGt gd p ra rb)) := by
    unfold decodeForm; rw [m]; change decCmp w.toNat _ = _
    refine Eq.trans (b := zero (bits w.toNat 5 4) (do let p := BitVec.ofNat 4 (bits w.toNat 17 4); let ra ← reg (bits w.toNat 13 4); let rb ← reg (bits w.toNat 9 4); pure (.base (.cmpGt (BitVec.ofNat 5 (bits w.toNat 21 5)) p ra rb)))) (by unfold decCmp; rw [b4_1, if_pos rfl, b0_4]; rfl) ?_
    simp only [b21_5, b5_4, b17_4, b13_4, b9_4, zero, bind, Except.bind, pure, Except.pure, reg_code hw.1, reg_code hw.2, BitVec.ofNat_toNat, BitVec.setWidth_eq, ↓reduceIte]
  rw [decodeWord, s]; rfl

theorem Roundtrip.cmpLtu (gd : Guard) (p : Pred) (ra : Reg) (rb : Reg) : Roundtrip.Statement (.cmpLtu gd p ra rb) := by
  intro w hw h
  have hw : (ra.plain && rb.plain) = true := hw
  simp only [Bool.and_eq_true] at hw
  obtain ⟨b21_5, f, r⟩ := word_reads 0x0C000006 gd [(p.toNat, 17, 4), (ra.code, 13, 4), (rb.code, 9, 4)] [(17, 4), (13, 4), (9, 4)] h rfl rfl (by decide) ⟨p.isLt, ra.code_lt, rb.code_lt, trivial⟩
  obtain ⟨b17_4, b13_4, b9_4, -⟩ := f
  have m := r 26 6 (x := 3) (by decide)
  have b4_1 : bits w.toNat 4 1 = 0 := r 4 1 (by decide)
  have b0_4 : bits w.toNat 0 4 = 6 := r 0 4 (by decide)
  have b5_4 : bits w.toNat 5 4 = 0 := r 5 4 (by decide)
  have s : decodeForm w.toNat = .ok (.base (.cmpLtu gd p ra rb)) := by
    unfold decodeForm; rw [m]; change decCmp w.toNat _ = _
    refine Eq.trans (b := zero (bits w.toNat 5 4) (do let p := BitVec.ofNat 4 (bits w.toNat 17 4); let ra ← reg (bits w.toNat 13 4); let rb ← reg (bits w.toNat 9 4); pure (.base (.cmpLtu (BitVec.ofNat 5 (bits w.toNat 21 5)) p ra rb)))) (by unfold decCmp; rw [b4_1, if_pos rfl, b0_4]; rfl) ?_
    simp only [b21_5, b5_4, b17_4, b13_4, b9_4, zero, bind, Except.bind, pure, Except.pure, reg_code hw.1, reg_code hw.2, BitVec.ofNat_toNat, BitVec.setWidth_eq, ↓reduceIte]
  rw [decodeWord, s]; rfl

theorem Roundtrip.cmpGeu (gd : Guard) (p : Pred) (ra : Reg) (rb : Reg) : Roundtrip.Statement (.cmpGeu gd p ra rb) := by
  intro w hw h
  have hw : (ra.plain && rb.plain) = true := hw
  simp only [Bool.and_eq_true] at hw
  obtain ⟨b21_5, f, r⟩ := word_reads 0x0C000007 gd [(p.toNat, 17, 4), (ra.code, 13, 4), (rb.code, 9, 4)] [(17, 4), (13, 4), (9, 4)] h rfl rfl (by decide) ⟨p.isLt, ra.code_lt, rb.code_lt, trivial⟩
  obtain ⟨b17_4, b13_4, b9_4, -⟩ := f
  have m := r 26 6 (x := 3) (by decide)
  have b4_1 : bits w.toNat 4 1 = 0 := r 4 1 (by decide)
  have b0_4 : bits w.toNat 0 4 = 7 := r 0 4 (by decide)
  have b5_4 : bits w.toNat 5 4 = 0 := r 5 4 (by decide)
  have s : decodeForm w.toNat = .ok (.base (.cmpGeu gd p ra rb)) := by
    unfold decodeForm; rw [m]; change decCmp w.toNat _ = _
    refine Eq.trans (b := zero (bits w.toNat 5 4) (do let p := BitVec.ofNat 4 (bits w.toNat 17 4); let ra ← reg (bits w.toNat 13 4); let rb ← reg (bits w.toNat 9 4); pure (.base (.cmpGeu (BitVec.ofNat 5 (bits w.toNat 21 5)) p ra rb)))) (by unfold decCmp; rw [b4_1, if_pos rfl, b0_4]; rfl) ?_
    simp only [b21_5, b5_4, b17_4, b13_4, b9_4, zero, bind, Except.bind, pure, Except.pure, reg_code hw.1, reg_code hw.2, BitVec.ofNat_toNat, BitVec.setWidth_eq, ↓reduceIte]
  rw [decodeWord, s]; rfl

theorem Roundtrip.cmpLeu (gd : Guard) (p : Pred) (ra : Reg) (rb : Reg) : Roundtrip.Statement (.cmpLeu gd p ra rb) := by
  intro w hw h
  have hw : (ra.plain && rb.plain) = true := hw
  simp only [Bool.and_eq_true] at hw
  obtain ⟨b21_5, f, r⟩ := word_reads 0x0C000008 gd [(p.toNat, 17, 4), (ra.code, 13, 4), (rb.code, 9, 4)] [(17, 4), (13, 4), (9, 4)] h rfl rfl (by decide) ⟨p.isLt, ra.code_lt, rb.code_lt, trivial⟩
  obtain ⟨b17_4, b13_4, b9_4, -⟩ := f
  have m := r 26 6 (x := 3) (by decide)
  have b4_1 : bits w.toNat 4 1 = 0 := r 4 1 (by decide)
  have b0_4 : bits w.toNat 0 4 = 8 := r 0 4 (by decide)
  have b5_4 : bits w.toNat 5 4 = 0 := r 5 4 (by decide)
  have s : decodeForm w.toNat = .ok (.base (.cmpLeu gd p ra rb)) := by
    unfold decodeForm; rw [m]; change decCmp w.toNat _ = _
    refine Eq.trans (b := zero (bits w.toNat 5 4) (do let p := BitVec.ofNat 4 (bits w.toNat 17 4); let ra ← reg (bits w.toNat 13 4); let rb ← reg (bits w.toNat 9 4); pure (.base (.cmpLeu (BitVec.ofNat 5 (bits w.toNat 21 5)) p ra rb)))) (by unfold decCmp; rw [b4_1, if_pos rfl, b0_4]; rfl) ?_
    simp only [b21_5, b5_4, b17_4, b13_4, b9_4, zero, bind, Except.bind, pure, Except.pure, reg_code hw.1, reg_code hw.2, BitVec.ofNat_toNat, BitVec.setWidth_eq, ↓reduceIte]
  rw [decodeWord, s]; rfl

theorem Roundtrip.cmpGtu (gd : Guard) (p : Pred) (ra : Reg) (rb : Reg) : Roundtrip.Statement (.cmpGtu gd p ra rb) := by
  intro w hw h
  have hw : (ra.plain && rb.plain) = true := hw
  simp only [Bool.and_eq_true] at hw
  obtain ⟨b21_5, f, r⟩ := word_reads 0x0C000009 gd [(p.toNat, 17, 4), (ra.code, 13, 4), (rb.code, 9, 4)] [(17, 4), (13, 4), (9, 4)] h rfl rfl (by decide) ⟨p.isLt, ra.code_lt, rb.code_lt, trivial⟩
  obtain ⟨b17_4, b13_4, b9_4, -⟩ := f
  have m := r 26 6 (x := 3) (by decide)
  have b4_1 : bits w.toNat 4 1 = 0 := r 4 1 (by decide)
  have b0_4 : bits w.toNat 0 4 = 9 := r 0 4 (by decide)
  have b5_4 : bits w.toNat 5 4 = 0 := r 5 4 (by decide)
  have s : decodeForm w.toNat = .ok (.base (.cmpGtu gd p ra rb)) := by
    unfold decodeForm; rw [m]; change decCmp w.toNat _ = _
    refine Eq.trans (b := zero (bits w.toNat 5 4) (do let p := BitVec.ofNat 4 (bits w.toNat 17 4); let ra ← reg (bits w.toNat 13 4); let rb ← reg (bits w.toNat 9 4); pure (.base (.cmpGtu (BitVec.ofNat 5 (bits w.toNat 21 5)) p ra rb)))) (by unfold decCmp; rw [b4_1, if_pos rfl, b0_4]; rfl) ?_
    simp only [b21_5, b5_4, b17_4, b13_4, b9_4, zero, bind, Except.bind, pure, Except.pure, reg_code hw.1, reg_code hw.2, BitVec.ofNat_toNat, BitVec.setWidth_eq, ↓reduceIte]
  rw [decodeWord, s]; rfl

theorem Roundtrip.tst (gd : Guard) (p : Pred) (ra : Reg) (rb : Reg) : Roundtrip.Statement (.tst gd p ra rb) := by
  intro w hw h
  have hw : (ra.plain && rb.plain) = true := hw
  simp only [Bool.and_eq_true] at hw
  obtain ⟨b21_5, f, r⟩ := word_reads 0x0C00000A gd [(p.toNat, 17, 4), (ra.code, 13, 4), (rb.code, 9, 4)] [(17, 4), (13, 4), (9, 4)] h rfl rfl (by decide) ⟨p.isLt, ra.code_lt, rb.code_lt, trivial⟩
  obtain ⟨b17_4, b13_4, b9_4, -⟩ := f
  have m := r 26 6 (x := 3) (by decide)
  have b4_1 : bits w.toNat 4 1 = 0 := r 4 1 (by decide)
  have b0_4 : bits w.toNat 0 4 = 10 := r 0 4 (by decide)
  have b5_4 : bits w.toNat 5 4 = 0 := r 5 4 (by decide)
  have s : decodeForm w.toNat = .ok (.base (.tst gd p ra rb)) := by
    unfold decodeForm; rw [m]; change decCmp w.toNat _ = _
    refine Eq.trans (b := zero (bits w.toNat 5 4) (do let p := BitVec.ofNat 4 (bits w.toNat 17 4); let ra ← reg (bits w.toNat 13 4); let rb ← reg (bits w.toNat 9 4); pure (.base (.tst (BitVec.ofNat 5 (bits w.toNat 21 5)) p ra rb)))) (by unfold decCmp; rw [b4_1, if_pos rfl, b0_4]; rfl) ?_
    simp only [b21_5, b5_4, b17_4, b13_4, b9_4, zero, bind, Except.bind, pure, Except.pure, reg_code hw.1, reg_code hw.2, BitVec.ofNat_toNat, BitVec.setWidth_eq, ↓reduceIte]
  rw [decodeWord, s]; rfl

theorem Roundtrip.cmpEqK (gd : Guard) (p : Pred) (ra : Reg) (k : BitVec 8) : Roundtrip.Statement (.cmpEqK gd p ra k) := by
  intro w _ h
  obtain ⟨b21_5, f, r⟩ := word_reads 0x0C000010 gd [(p.toNat, 17, 4), (ra.code, 13, 4), (k.toNat, 5, 8)] [(17, 4), (13, 4), (5, 8)] h rfl rfl (by decide) ⟨p.isLt, ra.code_lt, k.isLt, trivial⟩
  obtain ⟨b17_4, b13_4, b5_8, -⟩ := f
  have m := r 26 6 (x := 3) (by decide)
  have b4_1 : bits w.toNat 4 1 = 1 := r 4 1 (by decide)
  have b0_4 : bits w.toNat 0 4 = 0 := r 0 4 (by decide)
  have s : decodeForm w.toNat = .ok (.base (.cmpEqK gd p ra k)) := by
    unfold decodeForm; rw [m]; change decCmp w.toNat _ = _
    refine Eq.trans (b := (do let p := BitVec.ofNat 4 (bits w.toNat 17 4); let ra ← regK (bits w.toNat 13 4); let k := BitVec.ofNat 8 (bits w.toNat 5 8); pure (.base (.cmpEqK (BitVec.ofNat 5 (bits w.toNat 21 5)) p ra k)))) (by unfold decCmp; rw [b4_1, if_neg (by decide), b0_4]; rfl) ?_
    simp only [b21_5, b17_4, b13_4, b5_8, bind, Except.bind, pure, Except.pure, regK_code ra, BitVec.ofNat_toNat, BitVec.setWidth_eq]
  rw [decodeWord, s]; rfl

theorem Roundtrip.cmpNeK (gd : Guard) (p : Pred) (ra : Reg) (k : BitVec 8) : Roundtrip.Statement (.cmpNeK gd p ra k) := by
  intro w _ h
  obtain ⟨b21_5, f, r⟩ := word_reads 0x0C000011 gd [(p.toNat, 17, 4), (ra.code, 13, 4), (k.toNat, 5, 8)] [(17, 4), (13, 4), (5, 8)] h rfl rfl (by decide) ⟨p.isLt, ra.code_lt, k.isLt, trivial⟩
  obtain ⟨b17_4, b13_4, b5_8, -⟩ := f
  have m := r 26 6 (x := 3) (by decide)
  have b4_1 : bits w.toNat 4 1 = 1 := r 4 1 (by decide)
  have b0_4 : bits w.toNat 0 4 = 1 := r 0 4 (by decide)
  have s : decodeForm w.toNat = .ok (.base (.cmpNeK gd p ra k)) := by
    unfold decodeForm; rw [m]; change decCmp w.toNat _ = _
    refine Eq.trans (b := (do let p := BitVec.ofNat 4 (bits w.toNat 17 4); let ra ← regK (bits w.toNat 13 4); let k := BitVec.ofNat 8 (bits w.toNat 5 8); pure (.base (.cmpNeK (BitVec.ofNat 5 (bits w.toNat 21 5)) p ra k)))) (by unfold decCmp; rw [b4_1, if_neg (by decide), b0_4]; rfl) ?_
    simp only [b21_5, b17_4, b13_4, b5_8, bind, Except.bind, pure, Except.pure, regK_code ra, BitVec.ofNat_toNat, BitVec.setWidth_eq]
  rw [decodeWord, s]; rfl

theorem Roundtrip.cmpLtK (gd : Guard) (p : Pred) (ra : Reg) (k : BitVec 8) : Roundtrip.Statement (.cmpLtK gd p ra k) := by
  intro w _ h
  obtain ⟨b21_5, f, r⟩ := word_reads 0x0C000012 gd [(p.toNat, 17, 4), (ra.code, 13, 4), (k.toNat, 5, 8)] [(17, 4), (13, 4), (5, 8)] h rfl rfl (by decide) ⟨p.isLt, ra.code_lt, k.isLt, trivial⟩
  obtain ⟨b17_4, b13_4, b5_8, -⟩ := f
  have m := r 26 6 (x := 3) (by decide)
  have b4_1 : bits w.toNat 4 1 = 1 := r 4 1 (by decide)
  have b0_4 : bits w.toNat 0 4 = 2 := r 0 4 (by decide)
  have s : decodeForm w.toNat = .ok (.base (.cmpLtK gd p ra k)) := by
    unfold decodeForm; rw [m]; change decCmp w.toNat _ = _
    refine Eq.trans (b := (do let p := BitVec.ofNat 4 (bits w.toNat 17 4); let ra ← regK (bits w.toNat 13 4); let k := BitVec.ofNat 8 (bits w.toNat 5 8); pure (.base (.cmpLtK (BitVec.ofNat 5 (bits w.toNat 21 5)) p ra k)))) (by unfold decCmp; rw [b4_1, if_neg (by decide), b0_4]; rfl) ?_
    simp only [b21_5, b17_4, b13_4, b5_8, bind, Except.bind, pure, Except.pure, regK_code ra, BitVec.ofNat_toNat, BitVec.setWidth_eq]
  rw [decodeWord, s]; rfl

theorem Roundtrip.cmpGeK (gd : Guard) (p : Pred) (ra : Reg) (k : BitVec 8) : Roundtrip.Statement (.cmpGeK gd p ra k) := by
  intro w _ h
  obtain ⟨b21_5, f, r⟩ := word_reads 0x0C000013 gd [(p.toNat, 17, 4), (ra.code, 13, 4), (k.toNat, 5, 8)] [(17, 4), (13, 4), (5, 8)] h rfl rfl (by decide) ⟨p.isLt, ra.code_lt, k.isLt, trivial⟩
  obtain ⟨b17_4, b13_4, b5_8, -⟩ := f
  have m := r 26 6 (x := 3) (by decide)
  have b4_1 : bits w.toNat 4 1 = 1 := r 4 1 (by decide)
  have b0_4 : bits w.toNat 0 4 = 3 := r 0 4 (by decide)
  have s : decodeForm w.toNat = .ok (.base (.cmpGeK gd p ra k)) := by
    unfold decodeForm; rw [m]; change decCmp w.toNat _ = _
    refine Eq.trans (b := (do let p := BitVec.ofNat 4 (bits w.toNat 17 4); let ra ← regK (bits w.toNat 13 4); let k := BitVec.ofNat 8 (bits w.toNat 5 8); pure (.base (.cmpGeK (BitVec.ofNat 5 (bits w.toNat 21 5)) p ra k)))) (by unfold decCmp; rw [b4_1, if_neg (by decide), b0_4]; rfl) ?_
    simp only [b21_5, b17_4, b13_4, b5_8, bind, Except.bind, pure, Except.pure, regK_code ra, BitVec.ofNat_toNat, BitVec.setWidth_eq]
  rw [decodeWord, s]; rfl

theorem Roundtrip.cmpLeK (gd : Guard) (p : Pred) (ra : Reg) (k : BitVec 8) : Roundtrip.Statement (.cmpLeK gd p ra k) := by
  intro w _ h
  obtain ⟨b21_5, f, r⟩ := word_reads 0x0C000014 gd [(p.toNat, 17, 4), (ra.code, 13, 4), (k.toNat, 5, 8)] [(17, 4), (13, 4), (5, 8)] h rfl rfl (by decide) ⟨p.isLt, ra.code_lt, k.isLt, trivial⟩
  obtain ⟨b17_4, b13_4, b5_8, -⟩ := f
  have m := r 26 6 (x := 3) (by decide)
  have b4_1 : bits w.toNat 4 1 = 1 := r 4 1 (by decide)
  have b0_4 : bits w.toNat 0 4 = 4 := r 0 4 (by decide)
  have s : decodeForm w.toNat = .ok (.base (.cmpLeK gd p ra k)) := by
    unfold decodeForm; rw [m]; change decCmp w.toNat _ = _
    refine Eq.trans (b := (do let p := BitVec.ofNat 4 (bits w.toNat 17 4); let ra ← regK (bits w.toNat 13 4); let k := BitVec.ofNat 8 (bits w.toNat 5 8); pure (.base (.cmpLeK (BitVec.ofNat 5 (bits w.toNat 21 5)) p ra k)))) (by unfold decCmp; rw [b4_1, if_neg (by decide), b0_4]; rfl) ?_
    simp only [b21_5, b17_4, b13_4, b5_8, bind, Except.bind, pure, Except.pure, regK_code ra, BitVec.ofNat_toNat, BitVec.setWidth_eq]
  rw [decodeWord, s]; rfl

theorem Roundtrip.cmpGtK (gd : Guard) (p : Pred) (ra : Reg) (k : BitVec 8) : Roundtrip.Statement (.cmpGtK gd p ra k) := by
  intro w _ h
  obtain ⟨b21_5, f, r⟩ := word_reads 0x0C000015 gd [(p.toNat, 17, 4), (ra.code, 13, 4), (k.toNat, 5, 8)] [(17, 4), (13, 4), (5, 8)] h rfl rfl (by decide) ⟨p.isLt, ra.code_lt, k.isLt, trivial⟩
  obtain ⟨b17_4, b13_4, b5_8, -⟩ := f
  have m := r 26 6 (x := 3) (by decide)
  have b4_1 : bits w.toNat 4 1 = 1 := r 4 1 (by decide)
  have b0_4 : bits w.toNat 0 4 = 5 := r 0 4 (by decide)
  have s : decodeForm w.toNat = .ok (.base (.cmpGtK gd p ra k)) := by
    unfold decodeForm; rw [m]; change decCmp w.toNat _ = _
    refine Eq.trans (b := (do let p := BitVec.ofNat 4 (bits w.toNat 17 4); let ra ← regK (bits w.toNat 13 4); let k := BitVec.ofNat 8 (bits w.toNat 5 8); pure (.base (.cmpGtK (BitVec.ofNat 5 (bits w.toNat 21 5)) p ra k)))) (by unfold decCmp; rw [b4_1, if_neg (by decide), b0_4]; rfl) ?_
    simp only [b21_5, b17_4, b13_4, b5_8, bind, Except.bind, pure, Except.pure, regK_code ra, BitVec.ofNat_toNat, BitVec.setWidth_eq]
  rw [decodeWord, s]; rfl

theorem Roundtrip.cmpLtuK (gd : Guard) (p : Pred) (ra : Reg) (k : BitVec 8) : Roundtrip.Statement (.cmpLtuK gd p ra k) := by
  intro w _ h
  obtain ⟨b21_5, f, r⟩ := word_reads 0x0C000016 gd [(p.toNat, 17, 4), (ra.code, 13, 4), (k.toNat, 5, 8)] [(17, 4), (13, 4), (5, 8)] h rfl rfl (by decide) ⟨p.isLt, ra.code_lt, k.isLt, trivial⟩
  obtain ⟨b17_4, b13_4, b5_8, -⟩ := f
  have m := r 26 6 (x := 3) (by decide)
  have b4_1 : bits w.toNat 4 1 = 1 := r 4 1 (by decide)
  have b0_4 : bits w.toNat 0 4 = 6 := r 0 4 (by decide)
  have s : decodeForm w.toNat = .ok (.base (.cmpLtuK gd p ra k)) := by
    unfold decodeForm; rw [m]; change decCmp w.toNat _ = _
    refine Eq.trans (b := (do let p := BitVec.ofNat 4 (bits w.toNat 17 4); let ra ← regK (bits w.toNat 13 4); let k := BitVec.ofNat 8 (bits w.toNat 5 8); pure (.base (.cmpLtuK (BitVec.ofNat 5 (bits w.toNat 21 5)) p ra k)))) (by unfold decCmp; rw [b4_1, if_neg (by decide), b0_4]; rfl) ?_
    simp only [b21_5, b17_4, b13_4, b5_8, bind, Except.bind, pure, Except.pure, regK_code ra, BitVec.ofNat_toNat, BitVec.setWidth_eq]
  rw [decodeWord, s]; rfl

theorem Roundtrip.cmpGeuK (gd : Guard) (p : Pred) (ra : Reg) (k : BitVec 8) : Roundtrip.Statement (.cmpGeuK gd p ra k) := by
  intro w _ h
  obtain ⟨b21_5, f, r⟩ := word_reads 0x0C000017 gd [(p.toNat, 17, 4), (ra.code, 13, 4), (k.toNat, 5, 8)] [(17, 4), (13, 4), (5, 8)] h rfl rfl (by decide) ⟨p.isLt, ra.code_lt, k.isLt, trivial⟩
  obtain ⟨b17_4, b13_4, b5_8, -⟩ := f
  have m := r 26 6 (x := 3) (by decide)
  have b4_1 : bits w.toNat 4 1 = 1 := r 4 1 (by decide)
  have b0_4 : bits w.toNat 0 4 = 7 := r 0 4 (by decide)
  have s : decodeForm w.toNat = .ok (.base (.cmpGeuK gd p ra k)) := by
    unfold decodeForm; rw [m]; change decCmp w.toNat _ = _
    refine Eq.trans (b := (do let p := BitVec.ofNat 4 (bits w.toNat 17 4); let ra ← regK (bits w.toNat 13 4); let k := BitVec.ofNat 8 (bits w.toNat 5 8); pure (.base (.cmpGeuK (BitVec.ofNat 5 (bits w.toNat 21 5)) p ra k)))) (by unfold decCmp; rw [b4_1, if_neg (by decide), b0_4]; rfl) ?_
    simp only [b21_5, b17_4, b13_4, b5_8, bind, Except.bind, pure, Except.pure, regK_code ra, BitVec.ofNat_toNat, BitVec.setWidth_eq]
  rw [decodeWord, s]; rfl

theorem Roundtrip.cmpLeuK (gd : Guard) (p : Pred) (ra : Reg) (k : BitVec 8) : Roundtrip.Statement (.cmpLeuK gd p ra k) := by
  intro w _ h
  obtain ⟨b21_5, f, r⟩ := word_reads 0x0C000018 gd [(p.toNat, 17, 4), (ra.code, 13, 4), (k.toNat, 5, 8)] [(17, 4), (13, 4), (5, 8)] h rfl rfl (by decide) ⟨p.isLt, ra.code_lt, k.isLt, trivial⟩
  obtain ⟨b17_4, b13_4, b5_8, -⟩ := f
  have m := r 26 6 (x := 3) (by decide)
  have b4_1 : bits w.toNat 4 1 = 1 := r 4 1 (by decide)
  have b0_4 : bits w.toNat 0 4 = 8 := r 0 4 (by decide)
  have s : decodeForm w.toNat = .ok (.base (.cmpLeuK gd p ra k)) := by
    unfold decodeForm; rw [m]; change decCmp w.toNat _ = _
    refine Eq.trans (b := (do let p := BitVec.ofNat 4 (bits w.toNat 17 4); let ra ← regK (bits w.toNat 13 4); let k := BitVec.ofNat 8 (bits w.toNat 5 8); pure (.base (.cmpLeuK (BitVec.ofNat 5 (bits w.toNat 21 5)) p ra k)))) (by unfold decCmp; rw [b4_1, if_neg (by decide), b0_4]; rfl) ?_
    simp only [b21_5, b17_4, b13_4, b5_8, bind, Except.bind, pure, Except.pure, regK_code ra, BitVec.ofNat_toNat, BitVec.setWidth_eq]
  rw [decodeWord, s]; rfl

theorem Roundtrip.cmpGtuK (gd : Guard) (p : Pred) (ra : Reg) (k : BitVec 8) : Roundtrip.Statement (.cmpGtuK gd p ra k) := by
  intro w _ h
  obtain ⟨b21_5, f, r⟩ := word_reads 0x0C000019 gd [(p.toNat, 17, 4), (ra.code, 13, 4), (k.toNat, 5, 8)] [(17, 4), (13, 4), (5, 8)] h rfl rfl (by decide) ⟨p.isLt, ra.code_lt, k.isLt, trivial⟩
  obtain ⟨b17_4, b13_4, b5_8, -⟩ := f
  have m := r 26 6 (x := 3) (by decide)
  have b4_1 : bits w.toNat 4 1 = 1 := r 4 1 (by decide)
  have b0_4 : bits w.toNat 0 4 = 9 := r 0 4 (by decide)
  have s : decodeForm w.toNat = .ok (.base (.cmpGtuK gd p ra k)) := by
    unfold decodeForm; rw [m]; change decCmp w.toNat _ = _
    refine Eq.trans (b := (do let p := BitVec.ofNat 4 (bits w.toNat 17 4); let ra ← regK (bits w.toNat 13 4); let k := BitVec.ofNat 8 (bits w.toNat 5 8); pure (.base (.cmpGtuK (BitVec.ofNat 5 (bits w.toNat 21 5)) p ra k)))) (by unfold decCmp; rw [b4_1, if_neg (by decide), b0_4]; rfl) ?_
    simp only [b21_5, b17_4, b13_4, b5_8, bind, Except.bind, pure, Except.pure, regK_code ra, BitVec.ofNat_toNat, BitVec.setWidth_eq]
  rw [decodeWord, s]; rfl

theorem Roundtrip.tstK (gd : Guard) (p : Pred) (ra : Reg) (k : BitVec 8) : Roundtrip.Statement (.tstK gd p ra k) := by
  intro w _ h
  obtain ⟨b21_5, f, r⟩ := word_reads 0x0C00001A gd [(p.toNat, 17, 4), (ra.code, 13, 4), (k.toNat, 5, 8)] [(17, 4), (13, 4), (5, 8)] h rfl rfl (by decide) ⟨p.isLt, ra.code_lt, k.isLt, trivial⟩
  obtain ⟨b17_4, b13_4, b5_8, -⟩ := f
  have m := r 26 6 (x := 3) (by decide)
  have b4_1 : bits w.toNat 4 1 = 1 := r 4 1 (by decide)
  have b0_4 : bits w.toNat 0 4 = 10 := r 0 4 (by decide)
  have s : decodeForm w.toNat = .ok (.base (.tstK gd p ra k)) := by
    unfold decodeForm; rw [m]; change decCmp w.toNat _ = _
    refine Eq.trans (b := (do let p := BitVec.ofNat 4 (bits w.toNat 17 4); let ra ← regK (bits w.toNat 13 4); let k := BitVec.ofNat 8 (bits w.toNat 5 8); pure (.base (.tstK (BitVec.ofNat 5 (bits w.toNat 21 5)) p ra k)))) (by unfold decCmp; rw [b4_1, if_neg (by decide), b0_4]; rfl) ?_
    simp only [b21_5, b17_4, b13_4, b5_8, bind, Except.bind, pure, Except.pure, regK_code ra, BitVec.ofNat_toNat, BitVec.setWidth_eq]
  rw [decodeWord, s]; rfl

theorem Roundtrip.pand (gd : Guard) (rd : Pred) (ra : Pred) (rb : Pred) : Roundtrip.Statement (.pand gd rd ra rb) := by
  intro w _ h
  obtain ⟨b21_5, f, r⟩ := word_reads 0x10000000 gd [(rd.toNat, 17, 4), (ra.toNat, 13, 4), (rb.toNat, 9, 4)] [(17, 4), (13, 4), (9, 4)] h rfl rfl (by decide) ⟨rd.isLt, ra.isLt, rb.isLt, trivial⟩
  obtain ⟨b17_4, b13_4, b9_4, -⟩ := f
  have m := r 26 6 (x := 4) (by decide)
  have b0_9 : bits w.toNat 0 9 = 0 := r 0 9 (by decide)
  have s : decodeForm w.toNat = .ok (.base (.pand gd rd ra rb)) := by
    unfold decodeForm; rw [m]; change decPred w.toNat _ = _
    refine Eq.trans (b := (do let rd := BitVec.ofNat 4 (bits w.toNat 17 4); let ra := BitVec.ofNat 4 (bits w.toNat 13 4); let rb := BitVec.ofNat 4 (bits w.toNat 9 4); pure (.base (.pand (BitVec.ofNat 5 (bits w.toNat 21 5)) rd ra rb)))) (by unfold decPred; rw [b0_9]; rfl) ?_
    simp only [b21_5, b17_4, b13_4, b9_4, pure, Except.pure, BitVec.ofNat_toNat, BitVec.setWidth_eq]
  rw [decodeWord, s]; rfl

theorem Roundtrip.por (gd : Guard) (rd : Pred) (ra : Pred) (rb : Pred) : Roundtrip.Statement (.por gd rd ra rb) := by
  intro w _ h
  obtain ⟨b21_5, f, r⟩ := word_reads 0x10000001 gd [(rd.toNat, 17, 4), (ra.toNat, 13, 4), (rb.toNat, 9, 4)] [(17, 4), (13, 4), (9, 4)] h rfl rfl (by decide) ⟨rd.isLt, ra.isLt, rb.isLt, trivial⟩
  obtain ⟨b17_4, b13_4, b9_4, -⟩ := f
  have m := r 26 6 (x := 4) (by decide)
  have b0_9 : bits w.toNat 0 9 = 1 := r 0 9 (by decide)
  have s : decodeForm w.toNat = .ok (.base (.por gd rd ra rb)) := by
    unfold decodeForm; rw [m]; change decPred w.toNat _ = _
    refine Eq.trans (b := (do let rd := BitVec.ofNat 4 (bits w.toNat 17 4); let ra := BitVec.ofNat 4 (bits w.toNat 13 4); let rb := BitVec.ofNat 4 (bits w.toNat 9 4); pure (.base (.por (BitVec.ofNat 5 (bits w.toNat 21 5)) rd ra rb)))) (by unfold decPred; rw [b0_9]; rfl) ?_
    simp only [b21_5, b17_4, b13_4, b9_4, pure, Except.pure, BitVec.ofNat_toNat, BitVec.setWidth_eq]
  rw [decodeWord, s]; rfl

theorem Roundtrip.pxor (gd : Guard) (rd : Pred) (ra : Pred) (rb : Pred) : Roundtrip.Statement (.pxor gd rd ra rb) := by
  intro w _ h
  obtain ⟨b21_5, f, r⟩ := word_reads 0x10000002 gd [(rd.toNat, 17, 4), (ra.toNat, 13, 4), (rb.toNat, 9, 4)] [(17, 4), (13, 4), (9, 4)] h rfl rfl (by decide) ⟨rd.isLt, ra.isLt, rb.isLt, trivial⟩
  obtain ⟨b17_4, b13_4, b9_4, -⟩ := f
  have m := r 26 6 (x := 4) (by decide)
  have b0_9 : bits w.toNat 0 9 = 2 := r 0 9 (by decide)
  have s : decodeForm w.toNat = .ok (.base (.pxor gd rd ra rb)) := by
    unfold decodeForm; rw [m]; change decPred w.toNat _ = _
    refine Eq.trans (b := (do let rd := BitVec.ofNat 4 (bits w.toNat 17 4); let ra := BitVec.ofNat 4 (bits w.toNat 13 4); let rb := BitVec.ofNat 4 (bits w.toNat 9 4); pure (.base (.pxor (BitVec.ofNat 5 (bits w.toNat 21 5)) rd ra rb)))) (by unfold decPred; rw [b0_9]; rfl) ?_
    simp only [b21_5, b17_4, b13_4, b9_4, pure, Except.pure, BitVec.ofNat_toNat, BitVec.setWidth_eq]
  rw [decodeWord, s]; rfl

theorem Roundtrip.pnot (gd : Guard) (rd : Pred) (ra : Pred) : Roundtrip.Statement (.pnot gd rd ra) := by
  intro w _ h
  obtain ⟨b21_5, f, r⟩ := word_reads 0x10000003 gd [(rd.toNat, 17, 4), (ra.toNat, 13, 4)] [(17, 4), (13, 4)] h rfl rfl (by decide) ⟨rd.isLt, ra.isLt, trivial⟩
  obtain ⟨b17_4, b13_4, -⟩ := f
  have m := r 26 6 (x := 4) (by decide)
  have b0_9 : bits w.toNat 0 9 = 3 := r 0 9 (by decide)
  have b9_4 : bits w.toNat 9 4 = 0 := r 9 4 (by decide)
  have s : decodeForm w.toNat = .ok (.base (.pnot gd rd ra)) := by
    unfold decodeForm; rw [m]; change decPred w.toNat _ = _
    refine Eq.trans (b := zero (bits w.toNat 9 4) (do let rd := BitVec.ofNat 4 (bits w.toNat 17 4); let ra := BitVec.ofNat 4 (bits w.toNat 13 4); pure (.base (.pnot (BitVec.ofNat 5 (bits w.toNat 21 5)) rd ra)))) (by unfold decPred; rw [b0_9]; rfl) ?_
    simp only [b21_5, b9_4, b17_4, b13_4, zero, pure, Except.pure, BitVec.ofNat_toNat, BitVec.setWidth_eq, ↓reduceIte]
  rw [decodeWord, s]; rfl

theorem Roundtrip.pmov (gd : Guard) (rd : Pred) (ra : Pred) : Roundtrip.Statement (.pmov gd rd ra) := by
  intro w _ h
  obtain ⟨b21_5, f, r⟩ := word_reads 0x10000004 gd [(rd.toNat, 17, 4), (ra.toNat, 13, 4)] [(17, 4), (13, 4)] h rfl rfl (by decide) ⟨rd.isLt, ra.isLt, trivial⟩
  obtain ⟨b17_4, b13_4, -⟩ := f
  have m := r 26 6 (x := 4) (by decide)
  have b0_9 : bits w.toNat 0 9 = 4 := r 0 9 (by decide)
  have b9_4 : bits w.toNat 9 4 = 0 := r 9 4 (by decide)
  have s : decodeForm w.toNat = .ok (.base (.pmov gd rd ra)) := by
    unfold decodeForm; rw [m]; change decPred w.toNat _ = _
    refine Eq.trans (b := zero (bits w.toNat 9 4) (do let rd := BitVec.ofNat 4 (bits w.toNat 17 4); let ra := BitVec.ofNat 4 (bits w.toNat 13 4); pure (.base (.pmov (BitVec.ofNat 5 (bits w.toNat 21 5)) rd ra)))) (by unfold decPred; rw [b0_9]; rfl) ?_
    simp only [b21_5, b9_4, b17_4, b13_4, zero, pure, Except.pure, BitVec.ofNat_toNat, BitVec.setWidth_eq, ↓reduceIte]
  rw [decodeWord, s]; rfl

theorem Roundtrip.bfx (gd : Guard) (rd : Reg) (ra : Reg) (p : BitVec 6) (l : BitVec 5) : Roundtrip.Statement (.bfx gd rd ra p l) := by
  intro w hw h
  have hw : (rd.plain && ra.plain && decide (p.toNat + l.toNat + 1 ≤ 64)) = true := hw
  simp only [Bool.and_eq_true] at hw
  obtain ⟨b21_5, f, r⟩ := word_reads 0x14000000 gd [(rd.code, 17, 4), (ra.code, 13, 4), (p.toNat, 5, 6), (l.toNat, 0, 5)] [(17, 4), (13, 4), (5, 6), (0, 5)] h rfl rfl (by decide) ⟨rd.code_lt, ra.code_lt, p.isLt, l.isLt, trivial⟩
  obtain ⟨b17_4, b13_4, b5_6, b0_5, -⟩ := f
  have m := r 26 6 (x := 5) (by decide)
  have b11_2 : bits w.toNat 11 2 = 0 := r 11 2 (by decide)
  have x1 : ¬ 64 < p.toNat + l.toNat + 1 := Nat.not_lt.2 (of_decide_eq_true hw.2)
  have s : decodeForm w.toNat = .ok (.base (.bfx gd rd ra p l)) := by
    unfold decodeForm; rw [m]; change decBits w.toNat _ = _
    refine Eq.trans (b := if 64 < bits w.toNat 5 6 + bits w.toNat 0 5 + 1 then .error .minor else (do let rd ← reg (bits w.toNat 17 4); let ra ← reg (bits w.toNat 13 4); let p := BitVec.ofNat 6 (bits w.toNat 5 6); let l := BitVec.ofNat 5 (bits w.toNat 0 5); pure (.base (.bfx (BitVec.ofNat 5 (bits w.toNat 21 5)) rd ra p l)))) (by unfold decBits; rw [b11_2]; rfl) ?_
    simp only [b21_5, b5_6, b0_5, b17_4, b13_4, bind, Except.bind, pure, Except.pure, reg_code hw.1.1, reg_code hw.1.2, BitVec.ofNat_toNat, BitVec.setWidth_eq, x1, ↓reduceIte]
  rw [decodeWord, s]; rfl

theorem Roundtrip.bfxs (gd : Guard) (rd : Reg) (ra : Reg) (p : BitVec 6) (l : BitVec 5) : Roundtrip.Statement (.bfxs gd rd ra p l) := by
  intro w hw h
  have hw : (rd.plain && ra.plain && decide (p.toNat + l.toNat + 1 ≤ 64)) = true := hw
  simp only [Bool.and_eq_true] at hw
  obtain ⟨b21_5, f, r⟩ := word_reads 0x14000800 gd [(rd.code, 17, 4), (ra.code, 13, 4), (p.toNat, 5, 6), (l.toNat, 0, 5)] [(17, 4), (13, 4), (5, 6), (0, 5)] h rfl rfl (by decide) ⟨rd.code_lt, ra.code_lt, p.isLt, l.isLt, trivial⟩
  obtain ⟨b17_4, b13_4, b5_6, b0_5, -⟩ := f
  have m := r 26 6 (x := 5) (by decide)
  have b11_2 : bits w.toNat 11 2 = 1 := r 11 2 (by decide)
  have x1 : ¬ 64 < p.toNat + l.toNat + 1 := Nat.not_lt.2 (of_decide_eq_true hw.2)
  have s : decodeForm w.toNat = .ok (.base (.bfxs gd rd ra p l)) := by
    unfold decodeForm; rw [m]; change decBits w.toNat _ = _
    refine Eq.trans (b := if 64 < bits w.toNat 5 6 + bits w.toNat 0 5 + 1 then .error .minor else (do let rd ← reg (bits w.toNat 17 4); let ra ← reg (bits w.toNat 13 4); let p := BitVec.ofNat 6 (bits w.toNat 5 6); let l := BitVec.ofNat 5 (bits w.toNat 0 5); pure (.base (.bfxs (BitVec.ofNat 5 (bits w.toNat 21 5)) rd ra p l)))) (by unfold decBits; rw [b11_2]; rfl) ?_
    simp only [b21_5, b5_6, b0_5, b17_4, b13_4, bind, Except.bind, pure, Except.pure, reg_code hw.1.1, reg_code hw.1.2, BitVec.ofNat_toNat, BitVec.setWidth_eq, x1, ↓reduceIte]
  rw [decodeWord, s]; rfl

theorem Roundtrip.bfi (gd : Guard) (rd : Reg) (ra : Reg) (p : BitVec 6) (l : BitVec 5) : Roundtrip.Statement (.bfi gd rd ra p l) := by
  intro w hw h
  have hw : (rd.plain && ra.plain && decide (p.toNat + l.toNat + 1 ≤ 64)) = true := hw
  simp only [Bool.and_eq_true] at hw
  obtain ⟨b21_5, f, r⟩ := word_reads 0x14001000 gd [(rd.code, 17, 4), (ra.code, 13, 4), (p.toNat, 5, 6), (l.toNat, 0, 5)] [(17, 4), (13, 4), (5, 6), (0, 5)] h rfl rfl (by decide) ⟨rd.code_lt, ra.code_lt, p.isLt, l.isLt, trivial⟩
  obtain ⟨b17_4, b13_4, b5_6, b0_5, -⟩ := f
  have m := r 26 6 (x := 5) (by decide)
  have b11_2 : bits w.toNat 11 2 = 2 := r 11 2 (by decide)
  have x1 : ¬ 64 < p.toNat + l.toNat + 1 := Nat.not_lt.2 (of_decide_eq_true hw.2)
  have s : decodeForm w.toNat = .ok (.base (.bfi gd rd ra p l)) := by
    unfold decodeForm; rw [m]; change decBits w.toNat _ = _
    refine Eq.trans (b := if 64 < bits w.toNat 5 6 + bits w.toNat 0 5 + 1 then .error .minor else (do let rd ← reg (bits w.toNat 17 4); let ra ← reg (bits w.toNat 13 4); let p := BitVec.ofNat 6 (bits w.toNat 5 6); let l := BitVec.ofNat 5 (bits w.toNat 0 5); pure (.base (.bfi (BitVec.ofNat 5 (bits w.toNat 21 5)) rd ra p l)))) (by unfold decBits; rw [b11_2]; rfl) ?_
    simp only [b21_5, b5_6, b0_5, b17_4, b13_4, bind, Except.bind, pure, Except.pure, reg_code hw.1.1, reg_code hw.1.2, BitVec.ofNat_toNat, BitVec.setWidth_eq, x1, ↓reduceIte]
  rw [decodeWord, s]; rfl

theorem Roundtrip.shlImm (gd : Guard) (rd : Reg) (ra : Reg) (n : BitVec 6) : Roundtrip.Statement (.shlImm gd rd ra n) := by
  intro w hw h
  have hw : (rd.plain && ra.plain) = true := hw
  simp only [Bool.and_eq_true] at hw
  obtain ⟨b21_5, f, r⟩ := word_reads 0x14001800 gd [(rd.code, 17, 4), (ra.code, 13, 4), (n.toNat, 0, 6)] [(17, 4), (13, 4), (0, 6)] h rfl rfl (by decide) ⟨rd.code_lt, ra.code_lt, n.isLt, trivial⟩
  obtain ⟨b17_4, b13_4, b0_6, -⟩ := f
  have m := r 26 6 (x := 5) (by decide)
  have b11_2 : bits w.toNat 11 2 = 3 := r 11 2 (by decide)
  have b8_3 : bits w.toNat 8 3 = 0 := r 8 3 (by decide)
  have b6_2 : bits w.toNat 6 2 = 0 := r 6 2 (by decide)
  have s : decodeForm w.toNat = .ok (.base (.shlImm gd rd ra n)) := by
    unfold decodeForm; rw [m]; change decBits w.toNat _ = _
    refine Eq.trans (b := zero (bits w.toNat 6 2) (do let rd ← reg (bits w.toNat 17 4); let ra ← reg (bits w.toNat 13 4); let n := BitVec.ofNat 6 (bits w.toNat 0 6); pure (.base (.shlImm (BitVec.ofNat 5 (bits w.toNat 21 5)) rd ra n)))) (by unfold decBits; rw [b11_2, b8_3]; rfl) ?_
    simp only [b21_5, b6_2, b17_4, b13_4, b0_6, zero, bind, Except.bind, pure, Except.pure, reg_code hw.1, reg_code hw.2, BitVec.ofNat_toNat, BitVec.setWidth_eq, ↓reduceIte]
  rw [decodeWord, s]; rfl

theorem Roundtrip.shrImm (gd : Guard) (rd : Reg) (ra : Reg) (n : BitVec 6) : Roundtrip.Statement (.shrImm gd rd ra n) := by
  intro w hw h
  have hw : (rd.plain && ra.plain) = true := hw
  simp only [Bool.and_eq_true] at hw
  obtain ⟨b21_5, f, r⟩ := word_reads 0x14001900 gd [(rd.code, 17, 4), (ra.code, 13, 4), (n.toNat, 0, 6)] [(17, 4), (13, 4), (0, 6)] h rfl rfl (by decide) ⟨rd.code_lt, ra.code_lt, n.isLt, trivial⟩
  obtain ⟨b17_4, b13_4, b0_6, -⟩ := f
  have m := r 26 6 (x := 5) (by decide)
  have b11_2 : bits w.toNat 11 2 = 3 := r 11 2 (by decide)
  have b8_3 : bits w.toNat 8 3 = 1 := r 8 3 (by decide)
  have b6_2 : bits w.toNat 6 2 = 0 := r 6 2 (by decide)
  have s : decodeForm w.toNat = .ok (.base (.shrImm gd rd ra n)) := by
    unfold decodeForm; rw [m]; change decBits w.toNat _ = _
    refine Eq.trans (b := zero (bits w.toNat 6 2) (do let rd ← reg (bits w.toNat 17 4); let ra ← reg (bits w.toNat 13 4); let n := BitVec.ofNat 6 (bits w.toNat 0 6); pure (.base (.shrImm (BitVec.ofNat 5 (bits w.toNat 21 5)) rd ra n)))) (by unfold decBits; rw [b11_2, b8_3]; rfl) ?_
    simp only [b21_5, b6_2, b17_4, b13_4, b0_6, zero, bind, Except.bind, pure, Except.pure, reg_code hw.1, reg_code hw.2, BitVec.ofNat_toNat, BitVec.setWidth_eq, ↓reduceIte]
  rw [decodeWord, s]; rfl

theorem Roundtrip.sraImm (gd : Guard) (rd : Reg) (ra : Reg) (n : BitVec 6) : Roundtrip.Statement (.sraImm gd rd ra n) := by
  intro w hw h
  have hw : (rd.plain && ra.plain) = true := hw
  simp only [Bool.and_eq_true] at hw
  obtain ⟨b21_5, f, r⟩ := word_reads 0x14001A00 gd [(rd.code, 17, 4), (ra.code, 13, 4), (n.toNat, 0, 6)] [(17, 4), (13, 4), (0, 6)] h rfl rfl (by decide) ⟨rd.code_lt, ra.code_lt, n.isLt, trivial⟩
  obtain ⟨b17_4, b13_4, b0_6, -⟩ := f
  have m := r 26 6 (x := 5) (by decide)
  have b11_2 : bits w.toNat 11 2 = 3 := r 11 2 (by decide)
  have b8_3 : bits w.toNat 8 3 = 2 := r 8 3 (by decide)
  have b6_2 : bits w.toNat 6 2 = 0 := r 6 2 (by decide)
  have s : decodeForm w.toNat = .ok (.base (.sraImm gd rd ra n)) := by
    unfold decodeForm; rw [m]; change decBits w.toNat _ = _
    refine Eq.trans (b := zero (bits w.toNat 6 2) (do let rd ← reg (bits w.toNat 17 4); let ra ← reg (bits w.toNat 13 4); let n := BitVec.ofNat 6 (bits w.toNat 0 6); pure (.base (.sraImm (BitVec.ofNat 5 (bits w.toNat 21 5)) rd ra n)))) (by unfold decBits; rw [b11_2, b8_3]; rfl) ?_
    simp only [b21_5, b6_2, b17_4, b13_4, b0_6, zero, bind, Except.bind, pure, Except.pure, reg_code hw.1, reg_code hw.2, BitVec.ofNat_toNat, BitVec.setWidth_eq, ↓reduceIte]
  rw [decodeWord, s]; rfl

theorem Roundtrip.rolImm (gd : Guard) (rd : Reg) (ra : Reg) (n : BitVec 6) : Roundtrip.Statement (.rolImm gd rd ra n) := by
  intro w hw h
  have hw : (rd.plain && ra.plain) = true := hw
  simp only [Bool.and_eq_true] at hw
  obtain ⟨b21_5, f, r⟩ := word_reads 0x14001B00 gd [(rd.code, 17, 4), (ra.code, 13, 4), (n.toNat, 0, 6)] [(17, 4), (13, 4), (0, 6)] h rfl rfl (by decide) ⟨rd.code_lt, ra.code_lt, n.isLt, trivial⟩
  obtain ⟨b17_4, b13_4, b0_6, -⟩ := f
  have m := r 26 6 (x := 5) (by decide)
  have b11_2 : bits w.toNat 11 2 = 3 := r 11 2 (by decide)
  have b8_3 : bits w.toNat 8 3 = 3 := r 8 3 (by decide)
  have b6_2 : bits w.toNat 6 2 = 0 := r 6 2 (by decide)
  have s : decodeForm w.toNat = .ok (.base (.rolImm gd rd ra n)) := by
    unfold decodeForm; rw [m]; change decBits w.toNat _ = _
    refine Eq.trans (b := zero (bits w.toNat 6 2) (do let rd ← reg (bits w.toNat 17 4); let ra ← reg (bits w.toNat 13 4); let n := BitVec.ofNat 6 (bits w.toNat 0 6); pure (.base (.rolImm (BitVec.ofNat 5 (bits w.toNat 21 5)) rd ra n)))) (by unfold decBits; rw [b11_2, b8_3]; rfl) ?_
    simp only [b21_5, b6_2, b17_4, b13_4, b0_6, zero, bind, Except.bind, pure, Except.pure, reg_code hw.1, reg_code hw.2, BitVec.ofNat_toNat, BitVec.setWidth_eq, ↓reduceIte]
  rw [decodeWord, s]; rfl

theorem Roundtrip.rorImm (gd : Guard) (rd : Reg) (ra : Reg) (n : BitVec 6) : Roundtrip.Statement (.rorImm gd rd ra n) := by
  intro w hw h
  have hw : (rd.plain && ra.plain) = true := hw
  simp only [Bool.and_eq_true] at hw
  obtain ⟨b21_5, f, r⟩ := word_reads 0x14001C00 gd [(rd.code, 17, 4), (ra.code, 13, 4), (n.toNat, 0, 6)] [(17, 4), (13, 4), (0, 6)] h rfl rfl (by decide) ⟨rd.code_lt, ra.code_lt, n.isLt, trivial⟩
  obtain ⟨b17_4, b13_4, b0_6, -⟩ := f
  have m := r 26 6 (x := 5) (by decide)
  have b11_2 : bits w.toNat 11 2 = 3 := r 11 2 (by decide)
  have b8_3 : bits w.toNat 8 3 = 4 := r 8 3 (by decide)
  have b6_2 : bits w.toNat 6 2 = 0 := r 6 2 (by decide)
  have s : decodeForm w.toNat = .ok (.base (.rorImm gd rd ra n)) := by
    unfold decodeForm; rw [m]; change decBits w.toNat _ = _
    refine Eq.trans (b := zero (bits w.toNat 6 2) (do let rd ← reg (bits w.toNat 17 4); let ra ← reg (bits w.toNat 13 4); let n := BitVec.ofNat 6 (bits w.toNat 0 6); pure (.base (.rorImm (BitVec.ofNat 5 (bits w.toNat 21 5)) rd ra n)))) (by unfold decBits; rw [b11_2, b8_3]; rfl) ?_
    simp only [b21_5, b6_2, b17_4, b13_4, b0_6, zero, bind, Except.bind, pure, Except.pure, reg_code hw.1, reg_code hw.2, BitVec.ofNat_toNat, BitVec.setWidth_eq, ↓reduceIte]
  rw [decodeWord, s]; rfl

theorem Roundtrip.mul (gd : Guard) (rd : Reg) (ra : Reg) (rb : Reg) : Roundtrip.Statement (.mul gd rd ra rb) := by
  intro w hw h
  have hw : (rd.plain && ra.plain && rb.plain) = true := hw
  simp only [Bool.and_eq_true] at hw
  obtain ⟨b21_5, f, r⟩ := word_reads 0x18000000 gd [(rd.code, 17, 4), (ra.code, 13, 4), (rb.code, 9, 4)] [(17, 4), (13, 4), (9, 4)] h rfl rfl (by decide) ⟨rd.code_lt, ra.code_lt, rb.code_lt, trivial⟩
  obtain ⟨b17_4, b13_4, b9_4, -⟩ := f
  have m := r 26 6 (x := 6) (by decide)
  have b0_9 : bits w.toNat 0 9 = 0 := r 0 9 (by decide)
  have s : decodeForm w.toNat = .ok (.base (.mul gd rd ra rb)) := by
    unfold decodeForm; rw [m]; change decMul w.toNat _ = _
    refine Eq.trans (b := (do let rd ← reg (bits w.toNat 17 4); let ra ← reg (bits w.toNat 13 4); let rb ← reg (bits w.toNat 9 4); pure (.base (.mul (BitVec.ofNat 5 (bits w.toNat 21 5)) rd ra rb)))) (by unfold decMul; rw [b0_9]; rfl) ?_
    simp only [b21_5, b17_4, b13_4, b9_4, bind, Except.bind, pure, Except.pure, reg_code hw.1.1, reg_code hw.1.2, reg_code hw.2, BitVec.ofNat_toNat, BitVec.setWidth_eq]
  rw [decodeWord, s]; rfl

theorem Roundtrip.mulh (gd : Guard) (rd : Reg) (ra : Reg) (rb : Reg) : Roundtrip.Statement (.mulh gd rd ra rb) := by
  intro w hw h
  have hw : (rd.plain && ra.plain && rb.plain) = true := hw
  simp only [Bool.and_eq_true] at hw
  obtain ⟨b21_5, f, r⟩ := word_reads 0x18000001 gd [(rd.code, 17, 4), (ra.code, 13, 4), (rb.code, 9, 4)] [(17, 4), (13, 4), (9, 4)] h rfl rfl (by decide) ⟨rd.code_lt, ra.code_lt, rb.code_lt, trivial⟩
  obtain ⟨b17_4, b13_4, b9_4, -⟩ := f
  have m := r 26 6 (x := 6) (by decide)
  have b0_9 : bits w.toNat 0 9 = 1 := r 0 9 (by decide)
  have s : decodeForm w.toNat = .ok (.base (.mulh gd rd ra rb)) := by
    unfold decodeForm; rw [m]; change decMul w.toNat _ = _
    refine Eq.trans (b := (do let rd ← reg (bits w.toNat 17 4); let ra ← reg (bits w.toNat 13 4); let rb ← reg (bits w.toNat 9 4); pure (.base (.mulh (BitVec.ofNat 5 (bits w.toNat 21 5)) rd ra rb)))) (by unfold decMul; rw [b0_9]; rfl) ?_
    simp only [b21_5, b17_4, b13_4, b9_4, bind, Except.bind, pure, Except.pure, reg_code hw.1.1, reg_code hw.1.2, reg_code hw.2, BitVec.ofNat_toNat, BitVec.setWidth_eq]
  rw [decodeWord, s]; rfl

theorem Roundtrip.mulhs (gd : Guard) (rd : Reg) (ra : Reg) (rb : Reg) : Roundtrip.Statement (.mulhs gd rd ra rb) := by
  intro w hw h
  have hw : (rd.plain && ra.plain && rb.plain) = true := hw
  simp only [Bool.and_eq_true] at hw
  obtain ⟨b21_5, f, r⟩ := word_reads 0x18000002 gd [(rd.code, 17, 4), (ra.code, 13, 4), (rb.code, 9, 4)] [(17, 4), (13, 4), (9, 4)] h rfl rfl (by decide) ⟨rd.code_lt, ra.code_lt, rb.code_lt, trivial⟩
  obtain ⟨b17_4, b13_4, b9_4, -⟩ := f
  have m := r 26 6 (x := 6) (by decide)
  have b0_9 : bits w.toNat 0 9 = 2 := r 0 9 (by decide)
  have s : decodeForm w.toNat = .ok (.base (.mulhs gd rd ra rb)) := by
    unfold decodeForm; rw [m]; change decMul w.toNat _ = _
    refine Eq.trans (b := (do let rd ← reg (bits w.toNat 17 4); let ra ← reg (bits w.toNat 13 4); let rb ← reg (bits w.toNat 9 4); pure (.base (.mulhs (BitVec.ofNat 5 (bits w.toNat 21 5)) rd ra rb)))) (by unfold decMul; rw [b0_9]; rfl) ?_
    simp only [b21_5, b17_4, b13_4, b9_4, bind, Except.bind, pure, Except.pure, reg_code hw.1.1, reg_code hw.1.2, reg_code hw.2, BitVec.ofNat_toNat, BitVec.setWidth_eq]
  rw [decodeWord, s]; rfl

theorem Roundtrip.div (gd : Guard) (rd : Reg) (ra : Reg) (rb : Reg) : Roundtrip.Statement (.div gd rd ra rb) := by
  intro w hw h
  have hw : (rd.plain && ra.plain && rb.plain) = true := hw
  simp only [Bool.and_eq_true] at hw
  obtain ⟨b21_5, f, r⟩ := word_reads 0x18000003 gd [(rd.code, 17, 4), (ra.code, 13, 4), (rb.code, 9, 4)] [(17, 4), (13, 4), (9, 4)] h rfl rfl (by decide) ⟨rd.code_lt, ra.code_lt, rb.code_lt, trivial⟩
  obtain ⟨b17_4, b13_4, b9_4, -⟩ := f
  have m := r 26 6 (x := 6) (by decide)
  have b0_9 : bits w.toNat 0 9 = 3 := r 0 9 (by decide)
  have s : decodeForm w.toNat = .ok (.base (.div gd rd ra rb)) := by
    unfold decodeForm; rw [m]; change decMul w.toNat _ = _
    refine Eq.trans (b := (do let rd ← reg (bits w.toNat 17 4); let ra ← reg (bits w.toNat 13 4); let rb ← reg (bits w.toNat 9 4); pure (.base (.div (BitVec.ofNat 5 (bits w.toNat 21 5)) rd ra rb)))) (by unfold decMul; rw [b0_9]; rfl) ?_
    simp only [b21_5, b17_4, b13_4, b9_4, bind, Except.bind, pure, Except.pure, reg_code hw.1.1, reg_code hw.1.2, reg_code hw.2, BitVec.ofNat_toNat, BitVec.setWidth_eq]
  rw [decodeWord, s]; rfl

theorem Roundtrip.divs (gd : Guard) (rd : Reg) (ra : Reg) (rb : Reg) : Roundtrip.Statement (.divs gd rd ra rb) := by
  intro w hw h
  have hw : (rd.plain && ra.plain && rb.plain) = true := hw
  simp only [Bool.and_eq_true] at hw
  obtain ⟨b21_5, f, r⟩ := word_reads 0x18000004 gd [(rd.code, 17, 4), (ra.code, 13, 4), (rb.code, 9, 4)] [(17, 4), (13, 4), (9, 4)] h rfl rfl (by decide) ⟨rd.code_lt, ra.code_lt, rb.code_lt, trivial⟩
  obtain ⟨b17_4, b13_4, b9_4, -⟩ := f
  have m := r 26 6 (x := 6) (by decide)
  have b0_9 : bits w.toNat 0 9 = 4 := r 0 9 (by decide)
  have s : decodeForm w.toNat = .ok (.base (.divs gd rd ra rb)) := by
    unfold decodeForm; rw [m]; change decMul w.toNat _ = _
    refine Eq.trans (b := (do let rd ← reg (bits w.toNat 17 4); let ra ← reg (bits w.toNat 13 4); let rb ← reg (bits w.toNat 9 4); pure (.base (.divs (BitVec.ofNat 5 (bits w.toNat 21 5)) rd ra rb)))) (by unfold decMul; rw [b0_9]; rfl) ?_
    simp only [b21_5, b17_4, b13_4, b9_4, bind, Except.bind, pure, Except.pure, reg_code hw.1.1, reg_code hw.1.2, reg_code hw.2, BitVec.ofNat_toNat, BitVec.setWidth_eq]
  rw [decodeWord, s]; rfl

theorem Roundtrip.rem (gd : Guard) (rd : Reg) (ra : Reg) (rb : Reg) : Roundtrip.Statement (.rem gd rd ra rb) := by
  intro w hw h
  have hw : (rd.plain && ra.plain && rb.plain) = true := hw
  simp only [Bool.and_eq_true] at hw
  obtain ⟨b21_5, f, r⟩ := word_reads 0x18000005 gd [(rd.code, 17, 4), (ra.code, 13, 4), (rb.code, 9, 4)] [(17, 4), (13, 4), (9, 4)] h rfl rfl (by decide) ⟨rd.code_lt, ra.code_lt, rb.code_lt, trivial⟩
  obtain ⟨b17_4, b13_4, b9_4, -⟩ := f
  have m := r 26 6 (x := 6) (by decide)
  have b0_9 : bits w.toNat 0 9 = 5 := r 0 9 (by decide)
  have s : decodeForm w.toNat = .ok (.base (.rem gd rd ra rb)) := by
    unfold decodeForm; rw [m]; change decMul w.toNat _ = _
    refine Eq.trans (b := (do let rd ← reg (bits w.toNat 17 4); let ra ← reg (bits w.toNat 13 4); let rb ← reg (bits w.toNat 9 4); pure (.base (.rem (BitVec.ofNat 5 (bits w.toNat 21 5)) rd ra rb)))) (by unfold decMul; rw [b0_9]; rfl) ?_
    simp only [b21_5, b17_4, b13_4, b9_4, bind, Except.bind, pure, Except.pure, reg_code hw.1.1, reg_code hw.1.2, reg_code hw.2, BitVec.ofNat_toNat, BitVec.setWidth_eq]
  rw [decodeWord, s]; rfl

theorem Roundtrip.rems (gd : Guard) (rd : Reg) (ra : Reg) (rb : Reg) : Roundtrip.Statement (.rems gd rd ra rb) := by
  intro w hw h
  have hw : (rd.plain && ra.plain && rb.plain) = true := hw
  simp only [Bool.and_eq_true] at hw
  obtain ⟨b21_5, f, r⟩ := word_reads 0x18000006 gd [(rd.code, 17, 4), (ra.code, 13, 4), (rb.code, 9, 4)] [(17, 4), (13, 4), (9, 4)] h rfl rfl (by decide) ⟨rd.code_lt, ra.code_lt, rb.code_lt, trivial⟩
  obtain ⟨b17_4, b13_4, b9_4, -⟩ := f
  have m := r 26 6 (x := 6) (by decide)
  have b0_9 : bits w.toNat 0 9 = 6 := r 0 9 (by decide)
  have s : decodeForm w.toNat = .ok (.base (.rems gd rd ra rb)) := by
    unfold decodeForm; rw [m]; change decMul w.toNat _ = _
    refine Eq.trans (b := (do let rd ← reg (bits w.toNat 17 4); let ra ← reg (bits w.toNat 13 4); let rb ← reg (bits w.toNat 9 4); pure (.base (.rems (BitVec.ofNat 5 (bits w.toNat 21 5)) rd ra rb)))) (by unfold decMul; rw [b0_9]; rfl) ?_
    simp only [b21_5, b17_4, b13_4, b9_4, bind, Except.bind, pure, Except.pure, reg_code hw.1.1, reg_code hw.1.2, reg_code hw.2, BitVec.ofNat_toNat, BitVec.setWidth_eq]
  rw [decodeWord, s]; rfl

theorem Roundtrip.br (gd : Guard) (rd : BitVec 21) : Roundtrip.Statement (.br gd rd) := by
  intro w _ h
  obtain ⟨b21_5, f, r⟩ := word_reads 0x20000000 gd [(rd.toNat, 0, 21)] [(0, 21)] h rfl rfl (by decide) ⟨rd.isLt, trivial⟩
  obtain ⟨b0_21, -⟩ := f
  have m := r 26 6 (x := 8) (by decide)
  have s : decodeForm w.toNat = .ok (.base (.br gd rd)) := by
    unfold decodeForm; rw [m]; change decBr w.toNat _ = _
    refine Eq.trans (b := (do let rd := BitVec.ofNat 21 (bits w.toNat 0 21); pure (.base (.br (BitVec.ofNat 5 (bits w.toNat 21 5)) rd)))) (by unfold decBr; rfl) ?_
    simp only [b21_5, b0_21, pure, Except.pure, BitVec.ofNat_toNat, BitVec.setWidth_eq]
  rw [decodeWord, s]; rfl

theorem Roundtrip.call (gd : Guard) (rd : BitVec 21) : Roundtrip.Statement (.call gd rd) := by
  intro w _ h
  obtain ⟨b21_5, f, r⟩ := word_reads 0x24000000 gd [(rd.toNat, 0, 21)] [(0, 21)] h rfl rfl (by decide) ⟨rd.isLt, trivial⟩
  obtain ⟨b0_21, -⟩ := f
  have m := r 26 6 (x := 9) (by decide)
  have s : decodeForm w.toNat = .ok (.base (.call gd rd)) := by
    unfold decodeForm; rw [m]; change decCall w.toNat _ = _
    refine Eq.trans (b := (do let rd := BitVec.ofNat 21 (bits w.toNat 0 21); pure (.base (.call (BitVec.ofNat 5 (bits w.toNat 21 5)) rd)))) (by unfold decCall; rfl) ?_
    simp only [b21_5, b0_21, pure, Except.pure, BitVec.ofNat_toNat, BitVec.setWidth_eq]
  rw [decodeWord, s]; rfl

theorem Roundtrip.jmp (gd : Guard) (ra : Reg) : Roundtrip.Statement (.jmp gd ra) := by
  intro w hw h
  have hw : (ra.plain) = true := hw
  obtain ⟨b21_5, f, r⟩ := word_reads 0x28000000 gd [(ra.code, 13, 4)] [(13, 4)] h rfl rfl (by decide) ⟨ra.code_lt, trivial⟩
  obtain ⟨b13_4, -⟩ := f
  have m := r 26 6 (x := 10) (by decide)
  have b19_2 : bits w.toNat 19 2 = 0 := r 19 2 (by decide)
  have b0_13 : bits w.toNat 0 13 = 0 := r 0 13 (by decide)
  have b17_2 : bits w.toNat 17 2 = 0 := r 17 2 (by decide)
  have s : decodeForm w.toNat = .ok (.base (.jmp gd ra)) := by
    unfold decodeForm; rw [m]; change decJump w.toNat _ = _
    refine Eq.trans (b := zero (bits w.toNat 0 13 + bits w.toNat 17 2) (do let ra ← reg (bits w.toNat 13 4); pure (.base (.jmp (BitVec.ofNat 5 (bits w.toNat 21 5)) ra)))) (by unfold decJump; rw [b19_2]; rfl) ?_
    simp only [b21_5, b0_13, b17_2, b13_4, zero, bind, Except.bind, pure, Except.pure, reg_code hw, BitVec.ofNat_toNat, BitVec.setWidth_eq, ↓reduceIte]
  rw [decodeWord, s]; rfl

theorem Roundtrip.ret (gd : Guard) : Roundtrip.Statement (.ret gd) := by
  intro w _ h
  obtain ⟨b21_5, -, r⟩ := word_reads 0x28080000 gd [] [] h rfl rfl (by decide) trivial
  have m := r 26 6 (x := 10) (by decide)
  have b19_2 : bits w.toNat 19 2 = 1 := r 19 2 (by decide)
  have b0_19 : bits w.toNat 0 19 = 0 := r 0 19 (by decide)
  have s : decodeForm w.toNat = .ok (.base (.ret gd)) := by
    unfold decodeForm; rw [m]; change decJump w.toNat _ = _
    refine Eq.trans (b := zero (bits w.toNat 0 19) (do pure (.base (.ret (BitVec.ofNat 5 (bits w.toNat 21 5)))))) (by unfold decJump; rw [b19_2]; rfl) ?_
    simp only [b21_5, b0_19, zero, pure, Except.pure, BitVec.ofNat_toNat, BitVec.setWidth_eq, ↓reduceIte]
  rw [decodeWord, s]; rfl

theorem Roundtrip.loop (gd : Guard) (ra : Reg) (rd : BitVec 13) : Roundtrip.Statement (.loop gd ra rd) := by
  intro w hw h
  have hw : (ra.plain && ra.writable) = true := hw
  simp only [Bool.and_eq_true] at hw
  obtain ⟨b21_5, f, r⟩ := word_reads 0x28100000 gd [(ra.code, 13, 4), (rd.toNat, 0, 13)] [(13, 4), (0, 13)] h rfl rfl (by decide) ⟨ra.code_lt, rd.isLt, trivial⟩
  obtain ⟨b13_4, b0_13, -⟩ := f
  have m := r 26 6 (x := 10) (by decide)
  have b19_2 : bits w.toNat 19 2 = 2 := r 19 2 (by decide)
  have b17_2 : bits w.toNat 17 2 = 0 := r 17 2 (by decide)
  have x1 : ra.code ≠ 10 := by intro hc; cases ra with | g n => exact absurd hc (Nat.ne_of_lt n.isLt) | gz => simp [Reg.writable] at hw | k => simp [Reg.plain] at hw | gq => simp [Reg.code] at hc
  have s : decodeForm w.toNat = .ok (.base (.loop gd ra rd)) := by
    unfold decodeForm; rw [m]; change decJump w.toNat _ = _
    refine Eq.trans (b := if bits w.toNat 13 4 = 10 then .error .minor else zero (bits w.toNat 17 2) (do let ra ← reg (bits w.toNat 13 4); let rd := BitVec.ofNat 13 (bits w.toNat 0 13); pure (.base (.loop (BitVec.ofNat 5 (bits w.toNat 21 5)) ra rd)))) (by unfold decJump; rw [b19_2]; rfl) ?_
    simp only [b21_5, b13_4, b17_2, b0_13, zero, bind, Except.bind, pure, Except.pure, reg_code hw.1, BitVec.ofNat_toNat, BitVec.setWidth_eq, x1, ↓reduceIte]
  rw [decodeWord, s]; rfl

theorem Roundtrip.ld (gd : Guard) (rd : Reg) (ra : Reg) (sg : Fin 8) (k : BitVec 8) (sz : Size) : Roundtrip.Statement (.ld gd rd ra sg k sz) := by
  intro w _ h
  obtain ⟨b21_5, f, r⟩ := word_reads 0x30000000 gd [(rd.code, 17, 4), (ra.code, 13, 4), (sg.val, 10, 3), (k.toNat, 2, 8), (sz.code, 0, 2)] [(17, 4), (13, 4), (10, 3), (2, 8), (0, 2)] h rfl rfl (by decide) ⟨rd.code_lt, ra.code_lt, sg.isLt, k.isLt, sz.code_lt, trivial⟩
  obtain ⟨b17_4, b13_4, b10_3, b2_8, b0_2, -⟩ := f
  have m := r 26 6 (x := 12) (by decide)
  have s : decodeForm w.toNat = .ok (.base (.ld gd rd ra sg k sz)) := by
    unfold decodeForm; rw [m]; change decLoad w.toNat _ = _
    refine Eq.trans (b := (do let rd ← regK (bits w.toNat 17 4); let ra ← regK (bits w.toNat 13 4); let sg ← seg (bits w.toNat 10 3); let k := BitVec.ofNat 8 (bits w.toNat 2 8); let sz := size (bits w.toNat 0 2); pure (.base (.ld (BitVec.ofNat 5 (bits w.toNat 21 5)) rd ra sg k sz)))) (by unfold decLoad; rfl) ?_
    simp only [b21_5, b17_4, b13_4, b10_3, b2_8, b0_2, bind, Except.bind, pure, Except.pure, regK_code rd, regK_code ra, seg_val, size_code, BitVec.ofNat_toNat, BitVec.setWidth_eq]
  rw [decodeWord, s]; rfl

theorem Roundtrip.st (gd : Guard) (rd : Reg) (ra : Reg) (sg : Fin 8) (k : BitVec 8) (sz : Size) : Roundtrip.Statement (.st gd rd ra sg k sz) := by
  intro w _ h
  obtain ⟨b21_5, f, r⟩ := word_reads 0x34000000 gd [(rd.code, 17, 4), (ra.code, 13, 4), (sg.val, 10, 3), (k.toNat, 2, 8), (sz.code, 0, 2)] [(17, 4), (13, 4), (10, 3), (2, 8), (0, 2)] h rfl rfl (by decide) ⟨rd.code_lt, ra.code_lt, sg.isLt, k.isLt, sz.code_lt, trivial⟩
  obtain ⟨b17_4, b13_4, b10_3, b2_8, b0_2, -⟩ := f
  have m := r 26 6 (x := 13) (by decide)
  have s : decodeForm w.toNat = .ok (.base (.st gd rd ra sg k sz)) := by
    unfold decodeForm; rw [m]; change decStore w.toNat _ = _
    refine Eq.trans (b := (do let rd ← regK (bits w.toNat 17 4); let ra ← regK (bits w.toNat 13 4); let sg ← seg (bits w.toNat 10 3); let k := BitVec.ofNat 8 (bits w.toNat 2 8); let sz := size (bits w.toNat 0 2); pure (.base (.st (BitVec.ofNat 5 (bits w.toNat 21 5)) rd ra sg k sz)))) (by unfold decStore; rfl) ?_
    simp only [b21_5, b17_4, b13_4, b10_3, b2_8, b0_2, bind, Except.bind, pure, Except.pure, regK_code rd, regK_code ra, seg_val, size_code, BitVec.ofNat_toNat, BitVec.setWidth_eq]
  rw [decodeWord, s]; rfl

theorem Roundtrip.lds (gd : Guard) (rd : Reg) (ra : Reg) (sg : Fin 8) (rb : Reg) (sz : Size) : Roundtrip.Statement (.lds gd rd ra sg rb sz) := by
  intro w hw h
  have hw : (rd.plain && ra.plain && rb.plain && decide (sz ≠ .d)) = true := hw
  simp only [Bool.and_eq_true] at hw
  obtain ⟨b21_5, f, r⟩ := word_reads 0x38000000 gd [(rd.code, 17, 4), (ra.code, 13, 4), (sg.val, 10, 3), (rb.code, 6, 4), (sz.code, 0, 2)] [(17, 4), (13, 4), (10, 3), (6, 4), (0, 2)] h rfl rfl (by decide) ⟨rd.code_lt, ra.code_lt, sg.isLt, rb.code_lt, sz.code_lt, trivial⟩
  obtain ⟨b17_4, b13_4, b10_3, b6_4, b0_2, -⟩ := f
  have m := r 26 6 (x := 14) (by decide)
  have b2_4 : bits w.toNat 2 4 = 0 := r 2 4 (by decide)
  have x1 : sz.code ≠ 3 := by cases sz <;> first | decide | simp at hw
  have s : decodeForm w.toNat = .ok (.base (.lds gd rd ra sg rb sz)) := by
    unfold decodeForm; rw [m]; change decMr w.toNat _ = _
    refine Eq.trans (b := if bits w.toNat 0 2 = 3 then .error .minor else (do let rd ← reg (bits w.toNat 17 4); let ra ← reg (bits w.toNat 13 4); let sg ← seg (bits w.toNat 10 3); let rb ← reg (bits w.toNat 6 4); let sz := size (bits w.toNat 0 2); pure (.base (.lds (BitVec.ofNat 5 (bits w.toNat 21 5)) rd ra sg rb sz)))) (by unfold decMr; rw [b2_4]; rfl) ?_
    simp only [b21_5, b0_2, b17_4, b13_4, b10_3, b6_4, bind, Except.bind, pure, Except.pure, reg_code hw.1.1.1, reg_code hw.1.1.2, seg_val, reg_code hw.1.2, size_code, BitVec.ofNat_toNat, BitVec.setWidth_eq, x1, ↓reduceIte]
  rw [decodeWord, s]; rfl

theorem Roundtrip.ldRr (gd : Guard) (rd : Reg) (ra : Reg) (sg : Fin 8) (rb : Reg) (sz : Size) : Roundtrip.Statement (.ldRr gd rd ra sg rb sz) := by
  intro w hw h
  have hw : (rd.plain && ra.plain && rb.plain) = true := hw
  simp only [Bool.and_eq_true] at hw
  obtain ⟨b21_5, f, r⟩ := word_reads 0x38000004 gd [(rd.code, 17, 4), (ra.code, 13, 4), (sg.val, 10, 3), (rb.code, 6, 4), (sz.code, 0, 2)] [(17, 4), (13, 4), (10, 3), (6, 4), (0, 2)] h rfl rfl (by decide) ⟨rd.code_lt, ra.code_lt, sg.isLt, rb.code_lt, sz.code_lt, trivial⟩
  obtain ⟨b17_4, b13_4, b10_3, b6_4, b0_2, -⟩ := f
  have m := r 26 6 (x := 14) (by decide)
  have b2_4 : bits w.toNat 2 4 = 1 := r 2 4 (by decide)
  have s : decodeForm w.toNat = .ok (.base (.ldRr gd rd ra sg rb sz)) := by
    unfold decodeForm; rw [m]; change decMr w.toNat _ = _
    refine Eq.trans (b := (do let rd ← reg (bits w.toNat 17 4); let ra ← reg (bits w.toNat 13 4); let sg ← seg (bits w.toNat 10 3); let rb ← reg (bits w.toNat 6 4); let sz := size (bits w.toNat 0 2); pure (.base (.ldRr (BitVec.ofNat 5 (bits w.toNat 21 5)) rd ra sg rb sz)))) (by unfold decMr; rw [b2_4]; rfl) ?_
    simp only [b21_5, b17_4, b13_4, b10_3, b6_4, b0_2, bind, Except.bind, pure, Except.pure, reg_code hw.1.1, reg_code hw.1.2, seg_val, reg_code hw.2, size_code, BitVec.ofNat_toNat, BitVec.setWidth_eq]
  rw [decodeWord, s]; rfl

theorem Roundtrip.stRr (gd : Guard) (rd : Reg) (ra : Reg) (sg : Fin 8) (rb : Reg) (sz : Size) : Roundtrip.Statement (.stRr gd rd ra sg rb sz) := by
  intro w hw h
  have hw : (rd.plain && ra.plain && rb.plain) = true := hw
  simp only [Bool.and_eq_true] at hw
  obtain ⟨b21_5, f, r⟩ := word_reads 0x38000008 gd [(rd.code, 17, 4), (ra.code, 13, 4), (sg.val, 10, 3), (rb.code, 6, 4), (sz.code, 0, 2)] [(17, 4), (13, 4), (10, 3), (6, 4), (0, 2)] h rfl rfl (by decide) ⟨rd.code_lt, ra.code_lt, sg.isLt, rb.code_lt, sz.code_lt, trivial⟩
  obtain ⟨b17_4, b13_4, b10_3, b6_4, b0_2, -⟩ := f
  have m := r 26 6 (x := 14) (by decide)
  have b2_4 : bits w.toNat 2 4 = 2 := r 2 4 (by decide)
  have s : decodeForm w.toNat = .ok (.base (.stRr gd rd ra sg rb sz)) := by
    unfold decodeForm; rw [m]; change decMr w.toNat _ = _
    refine Eq.trans (b := (do let rd ← reg (bits w.toNat 17 4); let ra ← reg (bits w.toNat 13 4); let sg ← seg (bits w.toNat 10 3); let rb ← reg (bits w.toNat 6 4); let sz := size (bits w.toNat 0 2); pure (.base (.stRr (BitVec.ofNat 5 (bits w.toNat 21 5)) rd ra sg rb sz)))) (by unfold decMr; rw [b2_4]; rfl) ?_
    simp only [b21_5, b17_4, b13_4, b10_3, b6_4, b0_2, bind, Except.bind, pure, Except.pure, reg_code hw.1.1, reg_code hw.1.2, seg_val, reg_code hw.2, size_code, BitVec.ofNat_toNat, BitVec.setWidth_eq]
  rw [decodeWord, s]; rfl

theorem Roundtrip.ldp (gd : Guard) (rd : Reg) (ra : Reg) (sg : Fin 8) (rb : Reg) : Roundtrip.Statement (.ldp gd rd ra sg rb) := by
  intro w hw h
  have hw : (rd.even && ra.plain && rb.plain) = true := hw
  simp only [Bool.and_eq_true] at hw
  obtain ⟨b21_5, f, r⟩ := word_reads 0x3800000F gd [(rd.code, 17, 4), (ra.code, 13, 4), (sg.val, 10, 3), (rb.code, 6, 4)] [(17, 4), (13, 4), (10, 3), (6, 4)] h rfl rfl (by decide) ⟨rd.code_lt, ra.code_lt, sg.isLt, rb.code_lt, trivial⟩
  obtain ⟨b17_4, b13_4, b10_3, b6_4, -⟩ := f
  have m := r 26 6 (x := 14) (by decide)
  have b2_4 : bits w.toNat 2 4 = 3 := r 2 4 (by decide)
  have b0_2 : bits w.toNat 0 2 = 3 := r 0 2 (by decide)
  have s : decodeForm w.toNat = .ok (.base (.ldp gd rd ra sg rb)) := by
    unfold decodeForm; rw [m]; change decMr w.toNat _ = _
    refine Eq.trans (b := if bits w.toNat 0 2 ≠ 3 then .error .minor else (do let rd ← pair (bits w.toNat 17 4); let ra ← reg (bits w.toNat 13 4); let sg ← seg (bits w.toNat 10 3); let rb ← reg (bits w.toNat 6 4); pure (.base (.ldp (BitVec.ofNat 5 (bits w.toNat 21 5)) rd ra sg rb)))) (by unfold decMr; rw [b2_4]; rfl) ?_
    simp only [b21_5, b0_2, b17_4, b13_4, b10_3, b6_4, bind, Except.bind, pure, Except.pure, pair_code hw.1.1, reg_code hw.1.2, seg_val, reg_code hw.2, BitVec.ofNat_toNat, BitVec.setWidth_eq, ne_eq, not_true_eq_false, ↓reduceIte]
  rw [decodeWord, s]; rfl

theorem Roundtrip.stp (gd : Guard) (rd : Reg) (ra : Reg) (sg : Fin 8) (rb : Reg) : Roundtrip.Statement (.stp gd rd ra sg rb) := by
  intro w hw h
  have hw : (rd.even && ra.plain && rb.plain) = true := hw
  simp only [Bool.and_eq_true] at hw
  obtain ⟨b21_5, f, r⟩ := word_reads 0x38000013 gd [(rd.code, 17, 4), (ra.code, 13, 4), (sg.val, 10, 3), (rb.code, 6, 4)] [(17, 4), (13, 4), (10, 3), (6, 4)] h rfl rfl (by decide) ⟨rd.code_lt, ra.code_lt, sg.isLt, rb.code_lt, trivial⟩
  obtain ⟨b17_4, b13_4, b10_3, b6_4, -⟩ := f
  have m := r 26 6 (x := 14) (by decide)
  have b2_4 : bits w.toNat 2 4 = 4 := r 2 4 (by decide)
  have b0_2 : bits w.toNat 0 2 = 3 := r 0 2 (by decide)
  have s : decodeForm w.toNat = .ok (.base (.stp gd rd ra sg rb)) := by
    unfold decodeForm; rw [m]; change decMr w.toNat _ = _
    refine Eq.trans (b := if bits w.toNat 0 2 ≠ 3 then .error .minor else (do let rd ← pair (bits w.toNat 17 4); let ra ← reg (bits w.toNat 13 4); let sg ← seg (bits w.toNat 10 3); let rb ← reg (bits w.toNat 6 4); pure (.base (.stp (BitVec.ofNat 5 (bits w.toNat 21 5)) rd ra sg rb)))) (by unfold decMr; rw [b2_4]; rfl) ?_
    simp only [b21_5, b0_2, b17_4, b13_4, b10_3, b6_4, bind, Except.bind, pure, Except.pure, pair_code hw.1.1, reg_code hw.1.2, seg_val, reg_code hw.2, BitVec.ofNat_toNat, BitVec.setWidth_eq, ne_eq, not_true_eq_false, ↓reduceIte]
  rw [decodeWord, s]; rfl

theorem Roundtrip.rsv (gd : Guard) (rd : Reg) (ra : Reg) (sg : Fin 8) (rb : Reg) (sz : Size) : Roundtrip.Statement (.rsv gd rd ra sg rb sz) := by
  intro w hw h
  have hw : (rd.plain && ra.plain && rb.plain && decide (sz = .w ∨ sz = .d)) = true := hw
  simp only [Bool.and_eq_true] at hw
  have hs := of_decide_eq_true hw.2
  have hz : sz.code - 2 < 2 ^ 1 := by rcases hs with e | e <;> subst e <;> decide
  have hy : size (2 + (sz.code - 2)) = sz := by rcases hs with e | e <;> subst e <;> decide
  obtain ⟨b21_5, f, r⟩ := word_reads 0x38000016 gd [(rd.code, 17, 4), (ra.code, 13, 4), (sg.val, 10, 3), (rb.code, 6, 4), ((sz.code - 2), 0, 1)] [(17, 4), (13, 4), (10, 3), (6, 4), (0, 1)] h rfl rfl (by decide) ⟨rd.code_lt, ra.code_lt, sg.isLt, rb.code_lt, hz, trivial⟩
  obtain ⟨b17_4, b13_4, b10_3, b6_4, b0_1, -⟩ := f
  have m := r 26 6 (x := 14) (by decide)
  have b2_4 : bits w.toNat 2 4 = 5 := r 2 4 (by decide)
  have b0_2 := bits_split w.toNat 0 1 1
  rw [b0_1, r 1 1 (x := 1) (by decide)] at b0_2
  have x2 : ¬ sz.code - 2 + 2 ^ 1 * 1 < 2 := by omega
  have s : decodeForm w.toNat = .ok (.base (.rsv gd rd ra sg rb sz)) := by
    unfold decodeForm; rw [m]; change decMr w.toNat _ = _
    refine Eq.trans (b := if bits w.toNat 0 2 < 2 then .error .minor else (do let rd ← reg (bits w.toNat 17 4); let ra ← reg (bits w.toNat 13 4); let sg ← seg (bits w.toNat 10 3); let rb ← reg (bits w.toNat 6 4); let sz := size (2 + bits w.toNat 0 1); pure (.base (.rsv (BitVec.ofNat 5 (bits w.toNat 21 5)) rd ra sg rb sz)))) (by unfold decMr; rw [b2_4]; rfl) ?_
    simp only [b21_5, b0_2, b17_4, b13_4, b10_3, b6_4, b0_1, bind, Except.bind, pure, Except.pure, reg_code hw.1.1.1, reg_code hw.1.1.2, seg_val, reg_code hw.1.2, hy, BitVec.ofNat_toNat, BitVec.setWidth_eq, x2, ↓reduceIte]
  rw [decodeWord, s]; rfl

theorem Roundtrip.rls (gd : Guard) (rd : Reg) (ra : Reg) (sg : Fin 8) (rb : Reg) (sz : Size) : Roundtrip.Statement (.rls gd rd ra sg rb sz) := by
  intro w hw h
  have hw : (rd.plain && ra.plain && rb.plain && decide (sz = .w ∨ sz = .d)) = true := hw
  simp only [Bool.and_eq_true] at hw
  have hs := of_decide_eq_true hw.2
  have hz : sz.code - 2 < 2 ^ 1 := by rcases hs with e | e <;> subst e <;> decide
  have hy : size (2 + (sz.code - 2)) = sz := by rcases hs with e | e <;> subst e <;> decide
  obtain ⟨b21_5, f, r⟩ := word_reads 0x3800001A gd [(rd.code, 17, 4), (ra.code, 13, 4), (sg.val, 10, 3), (rb.code, 6, 4), ((sz.code - 2), 0, 1)] [(17, 4), (13, 4), (10, 3), (6, 4), (0, 1)] h rfl rfl (by decide) ⟨rd.code_lt, ra.code_lt, sg.isLt, rb.code_lt, hz, trivial⟩
  obtain ⟨b17_4, b13_4, b10_3, b6_4, b0_1, -⟩ := f
  have m := r 26 6 (x := 14) (by decide)
  have b2_4 : bits w.toNat 2 4 = 6 := r 2 4 (by decide)
  have b0_2 := bits_split w.toNat 0 1 1
  rw [b0_1, r 1 1 (x := 1) (by decide)] at b0_2
  have x2 : ¬ sz.code - 2 + 2 ^ 1 * 1 < 2 := by omega
  have s : decodeForm w.toNat = .ok (.base (.rls gd rd ra sg rb sz)) := by
    unfold decodeForm; rw [m]; change decMr w.toNat _ = _
    refine Eq.trans (b := if bits w.toNat 0 2 < 2 then .error .minor else (do let rd ← reg (bits w.toNat 17 4); let ra ← reg (bits w.toNat 13 4); let sg ← seg (bits w.toNat 10 3); let rb ← reg (bits w.toNat 6 4); let sz := size (2 + bits w.toNat 0 1); pure (.base (.rls (BitVec.ofNat 5 (bits w.toNat 21 5)) rd ra sg rb sz)))) (by unfold decMr; rw [b2_4]; rfl) ?_
    simp only [b21_5, b0_2, b17_4, b13_4, b10_3, b6_4, b0_1, bind, Except.bind, pure, Except.pure, reg_code hw.1.1.1, reg_code hw.1.1.2, seg_val, reg_code hw.1.2, hy, BitVec.ofNat_toNat, BitVec.setWidth_eq, x2, ↓reduceIte]
  rw [decodeWord, s]; rfl

theorem Roundtrip.rlsx (gd : Guard) (ra : Reg) (sg : Fin 8) (rb : Reg) (sz : Size) : Roundtrip.Statement (.rlsx gd ra sg rb sz) := by
  intro w hw h
  have hw : (ra.plain && rb.plain && decide (sz = .w ∨ sz = .d)) = true := hw
  simp only [Bool.and_eq_true] at hw
  have hs := of_decide_eq_true hw.2
  have hz : sz.code - 2 < 2 ^ 1 := by rcases hs with e | e <;> subst e <;> decide
  have hy : size (2 + (sz.code - 2)) = sz := by rcases hs with e | e <;> subst e <;> decide
  obtain ⟨b21_5, f, r⟩ := word_reads 0x3800001E gd [(ra.code, 13, 4), (sg.val, 10, 3), (rb.code, 6, 4), ((sz.code - 2), 0, 1)] [(13, 4), (10, 3), (6, 4), (0, 1)] h rfl rfl (by decide) ⟨ra.code_lt, sg.isLt, rb.code_lt, hz, trivial⟩
  obtain ⟨b13_4, b10_3, b6_4, b0_1, -⟩ := f
  have m := r 26 6 (x := 14) (by decide)
  have b2_4 : bits w.toNat 2 4 = 7 := r 2 4 (by decide)
  have b0_2 := bits_split w.toNat 0 1 1
  rw [b0_1, r 1 1 (x := 1) (by decide)] at b0_2
  have b17_4 : bits w.toNat 17 4 = 0 := r 17 4 (by decide)
  have x2 : ¬ sz.code - 2 + 2 ^ 1 * 1 < 2 := by omega
  have s : decodeForm w.toNat = .ok (.base (.rlsx gd ra sg rb sz)) := by
    unfold decodeForm; rw [m]; change decMr w.toNat _ = _
    refine Eq.trans (b := if bits w.toNat 0 2 < 2 then .error .minor else zero (bits w.toNat 17 4) (do let ra ← reg (bits w.toNat 13 4); let sg ← seg (bits w.toNat 10 3); let rb ← reg (bits w.toNat 6 4); let sz := size (2 + bits w.toNat 0 1); pure (.base (.rlsx (BitVec.ofNat 5 (bits w.toNat 21 5)) ra sg rb sz)))) (by unfold decMr; rw [b2_4]; rfl) ?_
    simp only [b21_5, b0_2, b17_4, b13_4, b10_3, b6_4, b0_1, zero, bind, Except.bind, pure, Except.pure, reg_code hw.1.1, seg_val, reg_code hw.1.2, hy, BitVec.ofNat_toNat, BitVec.setWidth_eq, x2, ↓reduceIte]
  rw [decodeWord, s]; rfl

theorem Roundtrip.logAdd (gd : Guard) (rd : Reg) (ra : Reg) (sg : Fin 8) (rb : Reg) (sz : Size) : Roundtrip.Statement (.logAdd gd rd ra sg rb sz) := by
  intro w hw h
  have hw : (rd.plain && ra.plain && rb.plain) = true := hw
  simp only [Bool.and_eq_true] at hw
  obtain ⟨b21_5, f, r⟩ := word_reads 0x3C000000 gd [(rd.code, 17, 4), (ra.code, 13, 4), (sg.val, 10, 3), (rb.code, 6, 4), (sz.code, 0, 2)] [(17, 4), (13, 4), (10, 3), (6, 4), (0, 2)] h rfl rfl (by decide) ⟨rd.code_lt, ra.code_lt, sg.isLt, rb.code_lt, sz.code_lt, trivial⟩
  obtain ⟨b17_4, b13_4, b10_3, b6_4, b0_2, -⟩ := f
  have m := r 26 6 (x := 15) (by decide)
  have b2_4 : bits w.toNat 2 4 = 0 := r 2 4 (by decide)
  have s : decodeForm w.toNat = .ok (.base (.logAdd gd rd ra sg rb sz)) := by
    unfold decodeForm; rw [m]; change decLog w.toNat _ = _
    refine Eq.trans (b := (do let rd ← reg (bits w.toNat 17 4); let ra ← reg (bits w.toNat 13 4); let sg ← seg (bits w.toNat 10 3); let rb ← reg (bits w.toNat 6 4); let sz := size (bits w.toNat 0 2); pure (.base (.logAdd (BitVec.ofNat 5 (bits w.toNat 21 5)) rd ra sg rb sz)))) (by unfold decLog; rw [b2_4]; rfl) ?_
    simp only [b21_5, b17_4, b13_4, b10_3, b6_4, b0_2, bind, Except.bind, pure, Except.pure, reg_code hw.1.1, reg_code hw.1.2, seg_val, reg_code hw.2, size_code, BitVec.ofNat_toNat, BitVec.setWidth_eq]
  rw [decodeWord, s]; rfl

theorem Roundtrip.logFadd (gd : Guard) (rd : Reg) (ra : Reg) (sg : Fin 8) (rb : Reg) : Roundtrip.Statement (.logFadd gd rd ra sg rb) := by
  intro w hw h
  have hw : (rd.plain && ra.plain && rb.plain) = true := hw
  simp only [Bool.and_eq_true] at hw
  obtain ⟨b21_5, f, r⟩ := word_reads 0x3C000006 gd [(rd.code, 17, 4), (ra.code, 13, 4), (sg.val, 10, 3), (rb.code, 6, 4)] [(17, 4), (13, 4), (10, 3), (6, 4)] h rfl rfl (by decide) ⟨rd.code_lt, ra.code_lt, sg.isLt, rb.code_lt, trivial⟩
  obtain ⟨b17_4, b13_4, b10_3, b6_4, -⟩ := f
  have m := r 26 6 (x := 15) (by decide)
  have b2_4 : bits w.toNat 2 4 = 1 := r 2 4 (by decide)
  have b0_2 : bits w.toNat 0 2 = 2 := r 0 2 (by decide)
  have s : decodeForm w.toNat = .ok (.base (.logFadd gd rd ra sg rb)) := by
    unfold decodeForm; rw [m]; change decLog w.toNat _ = _
    refine Eq.trans (b := if bits w.toNat 0 2 ≠ 2 then .error .minor else (do let rd ← reg (bits w.toNat 17 4); let ra ← reg (bits w.toNat 13 4); let sg ← seg (bits w.toNat 10 3); let rb ← reg (bits w.toNat 6 4); pure (.base (.logFadd (BitVec.ofNat 5 (bits w.toNat 21 5)) rd ra sg rb)))) (by unfold decLog; rw [b2_4]; rfl) ?_
    simp only [b21_5, b0_2, b17_4, b13_4, b10_3, b6_4, bind, Except.bind, pure, Except.pure, reg_code hw.1.1, reg_code hw.1.2, seg_val, reg_code hw.2, BitVec.ofNat_toNat, BitVec.setWidth_eq, ne_eq, not_true_eq_false, ↓reduceIte]
  rw [decodeWord, s]; rfl

theorem Roundtrip.logMin (gd : Guard) (rd : Reg) (ra : Reg) (sg : Fin 8) (rb : Reg) (sz : Size) : Roundtrip.Statement (.logMin gd rd ra sg rb sz) := by
  intro w hw h
  have hw : (rd.plain && ra.plain && rb.plain) = true := hw
  simp only [Bool.and_eq_true] at hw
  obtain ⟨b21_5, f, r⟩ := word_reads 0x3C000008 gd [(rd.code, 17, 4), (ra.code, 13, 4), (sg.val, 10, 3), (rb.code, 6, 4), (sz.code, 0, 2)] [(17, 4), (13, 4), (10, 3), (6, 4), (0, 2)] h rfl rfl (by decide) ⟨rd.code_lt, ra.code_lt, sg.isLt, rb.code_lt, sz.code_lt, trivial⟩
  obtain ⟨b17_4, b13_4, b10_3, b6_4, b0_2, -⟩ := f
  have m := r 26 6 (x := 15) (by decide)
  have b2_4 : bits w.toNat 2 4 = 2 := r 2 4 (by decide)
  have s : decodeForm w.toNat = .ok (.base (.logMin gd rd ra sg rb sz)) := by
    unfold decodeForm; rw [m]; change decLog w.toNat _ = _
    refine Eq.trans (b := (do let rd ← reg (bits w.toNat 17 4); let ra ← reg (bits w.toNat 13 4); let sg ← seg (bits w.toNat 10 3); let rb ← reg (bits w.toNat 6 4); let sz := size (bits w.toNat 0 2); pure (.base (.logMin (BitVec.ofNat 5 (bits w.toNat 21 5)) rd ra sg rb sz)))) (by unfold decLog; rw [b2_4]; rfl) ?_
    simp only [b21_5, b17_4, b13_4, b10_3, b6_4, b0_2, bind, Except.bind, pure, Except.pure, reg_code hw.1.1, reg_code hw.1.2, seg_val, reg_code hw.2, size_code, BitVec.ofNat_toNat, BitVec.setWidth_eq]
  rw [decodeWord, s]; rfl

theorem Roundtrip.logMax (gd : Guard) (rd : Reg) (ra : Reg) (sg : Fin 8) (rb : Reg) (sz : Size) : Roundtrip.Statement (.logMax gd rd ra sg rb sz) := by
  intro w hw h
  have hw : (rd.plain && ra.plain && rb.plain) = true := hw
  simp only [Bool.and_eq_true] at hw
  obtain ⟨b21_5, f, r⟩ := word_reads 0x3C00000C gd [(rd.code, 17, 4), (ra.code, 13, 4), (sg.val, 10, 3), (rb.code, 6, 4), (sz.code, 0, 2)] [(17, 4), (13, 4), (10, 3), (6, 4), (0, 2)] h rfl rfl (by decide) ⟨rd.code_lt, ra.code_lt, sg.isLt, rb.code_lt, sz.code_lt, trivial⟩
  obtain ⟨b17_4, b13_4, b10_3, b6_4, b0_2, -⟩ := f
  have m := r 26 6 (x := 15) (by decide)
  have b2_4 : bits w.toNat 2 4 = 3 := r 2 4 (by decide)
  have s : decodeForm w.toNat = .ok (.base (.logMax gd rd ra sg rb sz)) := by
    unfold decodeForm; rw [m]; change decLog w.toNat _ = _
    refine Eq.trans (b := (do let rd ← reg (bits w.toNat 17 4); let ra ← reg (bits w.toNat 13 4); let sg ← seg (bits w.toNat 10 3); let rb ← reg (bits w.toNat 6 4); let sz := size (bits w.toNat 0 2); pure (.base (.logMax (BitVec.ofNat 5 (bits w.toNat 21 5)) rd ra sg rb sz)))) (by unfold decLog; rw [b2_4]; rfl) ?_
    simp only [b21_5, b17_4, b13_4, b10_3, b6_4, b0_2, bind, Except.bind, pure, Except.pure, reg_code hw.1.1, reg_code hw.1.2, seg_val, reg_code hw.2, size_code, BitVec.ofNat_toNat, BitVec.setWidth_eq]
  rw [decodeWord, s]; rfl

theorem Roundtrip.logOr (gd : Guard) (rd : Reg) (ra : Reg) (sg : Fin 8) (rb : Reg) (sz : Size) : Roundtrip.Statement (.logOr gd rd ra sg rb sz) := by
  intro w hw h
  have hw : (rd.plain && ra.plain && rb.plain) = true := hw
  simp only [Bool.and_eq_true] at hw
  obtain ⟨b21_5, f, r⟩ := word_reads 0x3C000010 gd [(rd.code, 17, 4), (ra.code, 13, 4), (sg.val, 10, 3), (rb.code, 6, 4), (sz.code, 0, 2)] [(17, 4), (13, 4), (10, 3), (6, 4), (0, 2)] h rfl rfl (by decide) ⟨rd.code_lt, ra.code_lt, sg.isLt, rb.code_lt, sz.code_lt, trivial⟩
  obtain ⟨b17_4, b13_4, b10_3, b6_4, b0_2, -⟩ := f
  have m := r 26 6 (x := 15) (by decide)
  have b2_4 : bits w.toNat 2 4 = 4 := r 2 4 (by decide)
  have s : decodeForm w.toNat = .ok (.base (.logOr gd rd ra sg rb sz)) := by
    unfold decodeForm; rw [m]; change decLog w.toNat _ = _
    refine Eq.trans (b := (do let rd ← reg (bits w.toNat 17 4); let ra ← reg (bits w.toNat 13 4); let sg ← seg (bits w.toNat 10 3); let rb ← reg (bits w.toNat 6 4); let sz := size (bits w.toNat 0 2); pure (.base (.logOr (BitVec.ofNat 5 (bits w.toNat 21 5)) rd ra sg rb sz)))) (by unfold decLog; rw [b2_4]; rfl) ?_
    simp only [b21_5, b17_4, b13_4, b10_3, b6_4, b0_2, bind, Except.bind, pure, Except.pure, reg_code hw.1.1, reg_code hw.1.2, seg_val, reg_code hw.2, size_code, BitVec.ofNat_toNat, BitVec.setWidth_eq]
  rw [decodeWord, s]; rfl

theorem Roundtrip.fenceAcq (gd : Guard) (sc : Scope) : Roundtrip.Statement (.fenceAcq gd sc) := by
  intro w _ h
  obtain ⟨b21_5, f, r⟩ := word_reads 0x40000000 gd [(sc.code, 10, 3)] [(10, 3)] h rfl rfl (by decide) ⟨sc.code_lt, trivial⟩
  obtain ⟨b10_3, -⟩ := f
  have m := r 26 6 (x := 16) (by decide)
  have b0_6 : bits w.toNat 0 6 = 0 := r 0 6 (by decide)
  have b6_4 : bits w.toNat 6 4 = 0 := r 6 4 (by decide)
  have b13_8 : bits w.toNat 13 8 = 0 := r 13 8 (by decide)
  have s : decodeForm w.toNat = .ok (.base (.fenceAcq gd sc)) := by
    unfold decodeForm; rw [m]; change decOrd w.toNat _ = _
    refine Eq.trans (b := zero (bits w.toNat 6 4 + bits w.toNat 13 8) (do let sc ← scope (bits w.toNat 10 3); pure (.base (.fenceAcq (BitVec.ofNat 5 (bits w.toNat 21 5)) sc)))) (by unfold decOrd; rw [b0_6]; rfl) ?_
    simp only [b21_5, b6_4, b13_8, b10_3, zero, bind, Except.bind, pure, Except.pure, scope_code, BitVec.ofNat_toNat, BitVec.setWidth_eq, ↓reduceIte]
  rw [decodeWord, s]; rfl

theorem Roundtrip.fenceRel (gd : Guard) (sc : Scope) : Roundtrip.Statement (.fenceRel gd sc) := by
  intro w _ h
  obtain ⟨b21_5, f, r⟩ := word_reads 0x40000001 gd [(sc.code, 10, 3)] [(10, 3)] h rfl rfl (by decide) ⟨sc.code_lt, trivial⟩
  obtain ⟨b10_3, -⟩ := f
  have m := r 26 6 (x := 16) (by decide)
  have b0_6 : bits w.toNat 0 6 = 1 := r 0 6 (by decide)
  have b6_4 : bits w.toNat 6 4 = 0 := r 6 4 (by decide)
  have b13_8 : bits w.toNat 13 8 = 0 := r 13 8 (by decide)
  have s : decodeForm w.toNat = .ok (.base (.fenceRel gd sc)) := by
    unfold decodeForm; rw [m]; change decOrd w.toNat _ = _
    refine Eq.trans (b := zero (bits w.toNat 6 4 + bits w.toNat 13 8) (do let sc ← scope (bits w.toNat 10 3); pure (.base (.fenceRel (BitVec.ofNat 5 (bits w.toNat 21 5)) sc)))) (by unfold decOrd; rw [b0_6]; rfl) ?_
    simp only [b21_5, b6_4, b13_8, b10_3, zero, bind, Except.bind, pure, Except.pure, scope_code, BitVec.ofNat_toNat, BitVec.setWidth_eq, ↓reduceIte]
  rw [decodeWord, s]; rfl

theorem Roundtrip.fenceFull (gd : Guard) (sc : Scope) : Roundtrip.Statement (.fenceFull gd sc) := by
  intro w _ h
  obtain ⟨b21_5, f, r⟩ := word_reads 0x40000002 gd [(sc.code, 10, 3)] [(10, 3)] h rfl rfl (by decide) ⟨sc.code_lt, trivial⟩
  obtain ⟨b10_3, -⟩ := f
  have m := r 26 6 (x := 16) (by decide)
  have b0_6 : bits w.toNat 0 6 = 2 := r 0 6 (by decide)
  have b6_4 : bits w.toNat 6 4 = 0 := r 6 4 (by decide)
  have b13_8 : bits w.toNat 13 8 = 0 := r 13 8 (by decide)
  have s : decodeForm w.toNat = .ok (.base (.fenceFull gd sc)) := by
    unfold decodeForm; rw [m]; change decOrd w.toNat _ = _
    refine Eq.trans (b := zero (bits w.toNat 6 4 + bits w.toNat 13 8) (do let sc ← scope (bits w.toNat 10 3); pure (.base (.fenceFull (BitVec.ofNat 5 (bits w.toNat 21 5)) sc)))) (by unfold decOrd; rw [b0_6]; rfl) ?_
    simp only [b21_5, b6_4, b13_8, b10_3, zero, bind, Except.bind, pure, Except.pure, scope_code, BitVec.ofNat_toNat, BitVec.setWidth_eq, ↓reduceIte]
  rw [decodeWord, s]; rfl

theorem Roundtrip.ldAcqW (gd : Guard) (rd : Reg) (ra : Reg) (sc : Scope) (sg : Fin 8) : Roundtrip.Statement (.ldAcqW gd rd ra sc sg) := by
  intro w hw h
  have hw : (rd.plain && ra.plain) = true := hw
  simp only [Bool.and_eq_true] at hw
  obtain ⟨b21_5, f, r⟩ := word_reads 0x40000004 gd [(rd.code, 17, 4), (ra.code, 13, 4), (sc.code, 10, 3), (sg.val, 6, 4)] [(17, 4), (13, 4), (10, 3), (6, 4)] h rfl rfl (by decide) ⟨rd.code_lt, ra.code_lt, sc.code_lt, seg_lt sg, trivial⟩
  obtain ⟨b17_4, b13_4, b10_3, b6_4, -⟩ := f
  have m := r 26 6 (x := 16) (by decide)
  have b0_6 : bits w.toNat 0 6 = 4 := r 0 6 (by decide)
  have s : decodeForm w.toNat = .ok (.base (.ldAcqW gd rd ra sc sg)) := by
    unfold decodeForm; rw [m]; change decOrd w.toNat _ = _
    refine Eq.trans (b := (do let rd ← reg (bits w.toNat 17 4); let ra ← reg (bits w.toNat 13 4); let sc ← scope (bits w.toNat 10 3); let sg ← seg (bits w.toNat 6 4); pure (.base (.ldAcqW (BitVec.ofNat 5 (bits w.toNat 21 5)) rd ra sc sg)))) (by unfold decOrd; rw [b0_6]; rfl) ?_
    simp only [b21_5, b17_4, b13_4, b10_3, b6_4, bind, Except.bind, pure, Except.pure, reg_code hw.1, reg_code hw.2, scope_code, seg_val, BitVec.ofNat_toNat, BitVec.setWidth_eq]
  rw [decodeWord, s]; rfl

theorem Roundtrip.ldAcqD (gd : Guard) (rd : Reg) (ra : Reg) (sc : Scope) (sg : Fin 8) : Roundtrip.Statement (.ldAcqD gd rd ra sc sg) := by
  intro w hw h
  have hw : (rd.plain && ra.plain) = true := hw
  simp only [Bool.and_eq_true] at hw
  obtain ⟨b21_5, f, r⟩ := word_reads 0x40000005 gd [(rd.code, 17, 4), (ra.code, 13, 4), (sc.code, 10, 3), (sg.val, 6, 4)] [(17, 4), (13, 4), (10, 3), (6, 4)] h rfl rfl (by decide) ⟨rd.code_lt, ra.code_lt, sc.code_lt, seg_lt sg, trivial⟩
  obtain ⟨b17_4, b13_4, b10_3, b6_4, -⟩ := f
  have m := r 26 6 (x := 16) (by decide)
  have b0_6 : bits w.toNat 0 6 = 5 := r 0 6 (by decide)
  have s : decodeForm w.toNat = .ok (.base (.ldAcqD gd rd ra sc sg)) := by
    unfold decodeForm; rw [m]; change decOrd w.toNat _ = _
    refine Eq.trans (b := (do let rd ← reg (bits w.toNat 17 4); let ra ← reg (bits w.toNat 13 4); let sc ← scope (bits w.toNat 10 3); let sg ← seg (bits w.toNat 6 4); pure (.base (.ldAcqD (BitVec.ofNat 5 (bits w.toNat 21 5)) rd ra sc sg)))) (by unfold decOrd; rw [b0_6]; rfl) ?_
    simp only [b21_5, b17_4, b13_4, b10_3, b6_4, bind, Except.bind, pure, Except.pure, reg_code hw.1, reg_code hw.2, scope_code, seg_val, BitVec.ofNat_toNat, BitVec.setWidth_eq]
  rw [decodeWord, s]; rfl

theorem Roundtrip.stRelW (gd : Guard) (rd : Reg) (ra : Reg) (sc : Scope) (sg : Fin 8) : Roundtrip.Statement (.stRelW gd rd ra sc sg) := by
  intro w hw h
  have hw : (rd.plain && ra.plain) = true := hw
  simp only [Bool.and_eq_true] at hw
  obtain ⟨b21_5, f, r⟩ := word_reads 0x40000006 gd [(rd.code, 17, 4), (ra.code, 13, 4), (sc.code, 10, 3), (sg.val, 6, 4)] [(17, 4), (13, 4), (10, 3), (6, 4)] h rfl rfl (by decide) ⟨rd.code_lt, ra.code_lt, sc.code_lt, seg_lt sg, trivial⟩
  obtain ⟨b17_4, b13_4, b10_3, b6_4, -⟩ := f
  have m := r 26 6 (x := 16) (by decide)
  have b0_6 : bits w.toNat 0 6 = 6 := r 0 6 (by decide)
  have s : decodeForm w.toNat = .ok (.base (.stRelW gd rd ra sc sg)) := by
    unfold decodeForm; rw [m]; change decOrd w.toNat _ = _
    refine Eq.trans (b := (do let rd ← reg (bits w.toNat 17 4); let ra ← reg (bits w.toNat 13 4); let sc ← scope (bits w.toNat 10 3); let sg ← seg (bits w.toNat 6 4); pure (.base (.stRelW (BitVec.ofNat 5 (bits w.toNat 21 5)) rd ra sc sg)))) (by unfold decOrd; rw [b0_6]; rfl) ?_
    simp only [b21_5, b17_4, b13_4, b10_3, b6_4, bind, Except.bind, pure, Except.pure, reg_code hw.1, reg_code hw.2, scope_code, seg_val, BitVec.ofNat_toNat, BitVec.setWidth_eq]
  rw [decodeWord, s]; rfl

theorem Roundtrip.stRelD (gd : Guard) (rd : Reg) (ra : Reg) (sc : Scope) (sg : Fin 8) : Roundtrip.Statement (.stRelD gd rd ra sc sg) := by
  intro w hw h
  have hw : (rd.plain && ra.plain) = true := hw
  simp only [Bool.and_eq_true] at hw
  obtain ⟨b21_5, f, r⟩ := word_reads 0x40000007 gd [(rd.code, 17, 4), (ra.code, 13, 4), (sc.code, 10, 3), (sg.val, 6, 4)] [(17, 4), (13, 4), (10, 3), (6, 4)] h rfl rfl (by decide) ⟨rd.code_lt, ra.code_lt, sc.code_lt, seg_lt sg, trivial⟩
  obtain ⟨b17_4, b13_4, b10_3, b6_4, -⟩ := f
  have m := r 26 6 (x := 16) (by decide)
  have b0_6 : bits w.toNat 0 6 = 7 := r 0 6 (by decide)
  have s : decodeForm w.toNat = .ok (.base (.stRelD gd rd ra sc sg)) := by
    unfold decodeForm; rw [m]; change decOrd w.toNat _ = _
    refine Eq.trans (b := (do let rd ← reg (bits w.toNat 17 4); let ra ← reg (bits w.toNat 13 4); let sc ← scope (bits w.toNat 10 3); let sg ← seg (bits w.toNat 6 4); pure (.base (.stRelD (BitVec.ofNat 5 (bits w.toNat 21 5)) rd ra sc sg)))) (by unfold decOrd; rw [b0_6]; rfl) ?_
    simp only [b21_5, b17_4, b13_4, b10_3, b6_4, bind, Except.bind, pure, Except.pure, reg_code hw.1, reg_code hw.2, scope_code, seg_val, BitVec.ofNat_toNat, BitVec.setWidth_eq]
  rw [decodeWord, s]; rfl

theorem Roundtrip.seal (gd : Guard) (ra : Reg) (sc : Scope) (rb : Reg) : Roundtrip.Statement (.seal gd ra sc rb) := by
  intro w hw h
  have hw : (ra.plain && rb.plain) = true := hw
  simp only [Bool.and_eq_true] at hw
  obtain ⟨b21_5, f, r⟩ := word_reads 0x40000008 gd [(ra.code, 13, 4), (sc.code, 10, 3), (rb.code, 6, 4)] [(13, 4), (10, 3), (6, 4)] h rfl rfl (by decide) ⟨ra.code_lt, sc.code_lt, rb.code_lt, trivial⟩
  obtain ⟨b13_4, b10_3, b6_4, -⟩ := f
  have m := r 26 6 (x := 16) (by decide)
  have b0_6 : bits w.toNat 0 6 = 8 := r 0 6 (by decide)
  have b17_4 : bits w.toNat 17 4 = 0 := r 17 4 (by decide)
  have s : decodeForm w.toNat = .ok (.base (.seal gd ra sc rb)) := by
    unfold decodeForm; rw [m]; change decOrd w.toNat _ = _
    refine Eq.trans (b := zero (bits w.toNat 17 4) (do let ra ← reg (bits w.toNat 13 4); let sc ← scope (bits w.toNat 10 3); let rb ← reg (bits w.toNat 6 4); pure (.base (.seal (BitVec.ofNat 5 (bits w.toNat 21 5)) ra sc rb)))) (by unfold decOrd; rw [b0_6]; rfl) ?_
    simp only [b21_5, b17_4, b13_4, b10_3, b6_4, zero, bind, Except.bind, pure, Except.pure, reg_code hw.1, scope_code, reg_code hw.2, BitVec.ofNat_toNat, BitVec.setWidth_eq, ↓reduceIte]
  rw [decodeWord, s]; rfl

theorem Roundtrip.unseal (gd : Guard) (rd : Reg) (ra : Reg) (sc : Scope) : Roundtrip.Statement (.unseal gd rd ra sc) := by
  intro w hw h
  have hw : (rd.plain && ra.plain) = true := hw
  simp only [Bool.and_eq_true] at hw
  obtain ⟨b21_5, f, r⟩ := word_reads 0x40000009 gd [(rd.code, 17, 4), (ra.code, 13, 4), (sc.code, 10, 3)] [(17, 4), (13, 4), (10, 3)] h rfl rfl (by decide) ⟨rd.code_lt, ra.code_lt, sc.code_lt, trivial⟩
  obtain ⟨b17_4, b13_4, b10_3, -⟩ := f
  have m := r 26 6 (x := 16) (by decide)
  have b0_6 : bits w.toNat 0 6 = 9 := r 0 6 (by decide)
  have b6_4 : bits w.toNat 6 4 = 0 := r 6 4 (by decide)
  have s : decodeForm w.toNat = .ok (.base (.unseal gd rd ra sc)) := by
    unfold decodeForm; rw [m]; change decOrd w.toNat _ = _
    refine Eq.trans (b := zero (bits w.toNat 6 4) (do let rd ← reg (bits w.toNat 17 4); let ra ← reg (bits w.toNat 13 4); let sc ← scope (bits w.toNat 10 3); pure (.base (.unseal (BitVec.ofNat 5 (bits w.toNat 21 5)) rd ra sc)))) (by unfold decOrd; rw [b0_6]; rfl) ?_
    simp only [b21_5, b6_4, b17_4, b13_4, b10_3, zero, bind, Except.bind, pure, Except.pure, reg_code hw.1, reg_code hw.2, scope_code, BitVec.ofNat_toNat, BitVec.setWidth_eq, ↓reduceIte]
  rw [decodeWord, s]; rfl

theorem Roundtrip.pref (gd : Guard) (ra : Reg) (sg : Fin 8) : Roundtrip.Statement (.pref gd ra sg) := by
  intro w hw h
  have hw : (ra.plain) = true := hw
  obtain ⟨b21_5, f, r⟩ := word_reads 0x4000000C gd [(ra.code, 13, 4), (sg.val, 6, 4)] [(13, 4), (6, 4)] h rfl rfl (by decide) ⟨ra.code_lt, seg_lt sg, trivial⟩
  obtain ⟨b13_4, b6_4, -⟩ := f
  have m := r 26 6 (x := 16) (by decide)
  have b0_6 : bits w.toNat 0 6 = 12 := r 0 6 (by decide)
  have b10_3 : bits w.toNat 10 3 = 0 := r 10 3 (by decide)
  have b17_4 : bits w.toNat 17 4 = 0 := r 17 4 (by decide)
  have s : decodeForm w.toNat = .ok (.base (.pref gd ra sg)) := by
    unfold decodeForm; rw [m]; change decOrd w.toNat _ = _
    refine Eq.trans (b := zero (bits w.toNat 10 3 + bits w.toNat 17 4) (do let ra ← reg (bits w.toNat 13 4); let sg ← seg (bits w.toNat 6 4); pure (.base (.pref (BitVec.ofNat 5 (bits w.toNat 21 5)) ra sg)))) (by unfold decOrd; rw [b0_6]; rfl) ?_
    simp only [b21_5, b10_3, b17_4, b13_4, b6_4, zero, bind, Except.bind, pure, Except.pure, reg_code hw, seg_val, BitVec.ofNat_toNat, BitVec.setWidth_eq, ↓reduceIte]
  rw [decodeWord, s]; rfl

theorem Roundtrip.cwb (gd : Guard) (ra : Reg) (sg : Fin 8) : Roundtrip.Statement (.cwb gd ra sg) := by
  intro w hw h
  have hw : (ra.plain) = true := hw
  obtain ⟨b21_5, f, r⟩ := word_reads 0x4000000D gd [(ra.code, 13, 4), (sg.val, 6, 4)] [(13, 4), (6, 4)] h rfl rfl (by decide) ⟨ra.code_lt, seg_lt sg, trivial⟩
  obtain ⟨b13_4, b6_4, -⟩ := f
  have m := r 26 6 (x := 16) (by decide)
  have b0_6 : bits w.toNat 0 6 = 13 := r 0 6 (by decide)
  have b10_3 : bits w.toNat 10 3 = 0 := r 10 3 (by decide)
  have b17_4 : bits w.toNat 17 4 = 0 := r 17 4 (by decide)
  have s : decodeForm w.toNat = .ok (.base (.cwb gd ra sg)) := by
    unfold decodeForm; rw [m]; change decOrd w.toNat _ = _
    refine Eq.trans (b := zero (bits w.toNat 10 3 + bits w.toNat 17 4) (do let ra ← reg (bits w.toNat 13 4); let sg ← seg (bits w.toNat 6 4); pure (.base (.cwb (BitVec.ofNat 5 (bits w.toNat 21 5)) ra sg)))) (by unfold decOrd; rw [b0_6]; rfl) ?_
    simp only [b21_5, b10_3, b17_4, b13_4, b6_4, zero, bind, Except.bind, pure, Except.pure, reg_code hw, seg_val, BitVec.ofNat_toNat, BitVec.setWidth_eq, ↓reduceIte]
  rw [decodeWord, s]; rfl

theorem Roundtrip.cdrop (gd : Guard) (ra : Reg) (sg : Fin 8) : Roundtrip.Statement (.cdrop gd ra sg) := by
  intro w hw h
  have hw : (ra.plain) = true := hw
  obtain ⟨b21_5, f, r⟩ := word_reads 0x4000000E gd [(ra.code, 13, 4), (sg.val, 6, 4)] [(13, 4), (6, 4)] h rfl rfl (by decide) ⟨ra.code_lt, seg_lt sg, trivial⟩
  obtain ⟨b13_4, b6_4, -⟩ := f
  have m := r 26 6 (x := 16) (by decide)
  have b0_6 : bits w.toNat 0 6 = 14 := r 0 6 (by decide)
  have b10_3 : bits w.toNat 10 3 = 0 := r 10 3 (by decide)
  have b17_4 : bits w.toNat 17 4 = 0 := r 17 4 (by decide)
  have s : decodeForm w.toNat = .ok (.base (.cdrop gd ra sg)) := by
    unfold decodeForm; rw [m]; change decOrd w.toNat _ = _
    refine Eq.trans (b := zero (bits w.toNat 10 3 + bits w.toNat 17 4) (do let ra ← reg (bits w.toNat 13 4); let sg ← seg (bits w.toNat 6 4); pure (.base (.cdrop (BitVec.ofNat 5 (bits w.toNat 21 5)) ra sg)))) (by unfold decOrd; rw [b0_6]; rfl) ?_
    simp only [b21_5, b10_3, b17_4, b13_4, b6_4, zero, bind, Except.bind, pure, Except.pure, reg_code hw, seg_val, BitVec.ofNat_toNat, BitVec.setWidth_eq, ↓reduceIte]
  rw [decodeWord, s]; rfl

theorem Roundtrip.scbWait (gd : Guard) (ra : Reg) (rb : Reg) : Roundtrip.Statement (.scbWait gd ra rb) := by
  intro w hw h
  have hw : (ra.plain && rb.plain) = true := hw
  simp only [Bool.and_eq_true] at hw
  obtain ⟨b21_5, f, r⟩ := word_reads 0x4000000F gd [(ra.code, 13, 4), (rb.code, 6, 4)] [(13, 4), (6, 4)] h rfl rfl (by decide) ⟨ra.code_lt, rb.code_lt, trivial⟩
  obtain ⟨b13_4, b6_4, -⟩ := f
  have m := r 26 6 (x := 16) (by decide)
  have b0_6 : bits w.toNat 0 6 = 15 := r 0 6 (by decide)
  have b10_3 : bits w.toNat 10 3 = 0 := r 10 3 (by decide)
  have b17_4 : bits w.toNat 17 4 = 0 := r 17 4 (by decide)
  have s : decodeForm w.toNat = .ok (.base (.scbWait gd ra rb)) := by
    unfold decodeForm; rw [m]; change decOrd w.toNat _ = _
    refine Eq.trans (b := zero (bits w.toNat 10 3 + bits w.toNat 17 4) (do let ra ← reg (bits w.toNat 13 4); let rb ← reg (bits w.toNat 6 4); pure (.base (.scbWait (BitVec.ofNat 5 (bits w.toNat 21 5)) ra rb)))) (by unfold decOrd; rw [b0_6]; rfl) ?_
    simp only [b21_5, b10_3, b17_4, b13_4, b6_4, zero, bind, Except.bind, pure, Except.pure, reg_code hw.1, reg_code hw.2, BitVec.ofNat_toNat, BitVec.setWidth_eq, ↓reduceIte]
  rw [decodeWord, s]; rfl

theorem Roundtrip.segLd (gd : Guard) (rd : Fin 8) (ra : Reg) : Roundtrip.Statement (.segLd gd rd ra) := by
  intro w hw h
  have hw : (ra.plain) = true := hw
  obtain ⟨b21_5, f, r⟩ := word_reads 0x44000000 gd [(rd.val, 17, 4), (ra.code, 13, 4)] [(17, 4), (13, 4)] h rfl rfl (by decide) ⟨seg_lt rd, ra.code_lt, trivial⟩
  obtain ⟨b17_4, b13_4, -⟩ := f
  have m := r 26 6 (x := 17) (by decide)
  have b0_6 : bits w.toNat 0 6 = 0 := r 0 6 (by decide)
  have b6_7 : bits w.toNat 6 7 = 0 := r 6 7 (by decide)
  have s : decodeForm w.toNat = .ok (.base (.segLd gd rd ra)) := by
    unfold decodeForm; rw [m]; change decSeg w.toNat _ = _
    refine Eq.trans (b := zero (bits w.toNat 6 7) (do let rd ← seg (bits w.toNat 17 4); let ra ← reg (bits w.toNat 13 4); pure (.base (.segLd (BitVec.ofNat 5 (bits w.toNat 21 5)) rd ra)))) (by unfold decSeg; rw [b0_6]; rfl) ?_
    simp only [b21_5, b6_7, b17_4, b13_4, zero, bind, Except.bind, pure, Except.pure, seg_val, reg_code hw, BitVec.ofNat_toNat, BitVec.setWidth_eq, ↓reduceIte]
  rw [decodeWord, s]; rfl

theorem Roundtrip.segNarrow (gd : Guard) (rd : Fin 8) (ra : Reg) (rb : Reg) : Roundtrip.Statement (.segNarrow gd rd ra rb) := by
  intro w hw h
  have hw : (ra.plain && rb.plain) = true := hw
  simp only [Bool.and_eq_true] at hw
  obtain ⟨b21_5, f, r⟩ := word_reads 0x44000001 gd [(rd.val, 17, 4), (ra.code, 13, 4), (rb.code, 6, 4)] [(17, 4), (13, 4), (6, 4)] h rfl rfl (by decide) ⟨seg_lt rd, ra.code_lt, rb.code_lt, trivial⟩
  obtain ⟨b17_4, b13_4, b6_4, -⟩ := f
  have m := r 26 6 (x := 17) (by decide)
  have b0_6 : bits w.toNat 0 6 = 1 := r 0 6 (by decide)
  have b10_3 : bits w.toNat 10 3 = 0 := r 10 3 (by decide)
  have s : decodeForm w.toNat = .ok (.base (.segNarrow gd rd ra rb)) := by
    unfold decodeForm; rw [m]; change decSeg w.toNat _ = _
    refine Eq.trans (b := zero (bits w.toNat 10 3) (do let rd ← seg (bits w.toNat 17 4); let ra ← reg (bits w.toNat 13 4); let rb ← reg (bits w.toNat 6 4); pure (.base (.segNarrow (BitVec.ofNat 5 (bits w.toNat 21 5)) rd ra rb)))) (by unfold decSeg; rw [b0_6]; rfl) ?_
    simp only [b21_5, b10_3, b17_4, b13_4, b6_4, zero, bind, Except.bind, pure, Except.pure, seg_val, reg_code hw.1, reg_code hw.2, BitVec.ofNat_toNat, BitVec.setWidth_eq, ↓reduceIte]
  rw [decodeWord, s]; rfl

theorem Roundtrip.segGive (gd : Guard) (rd : Fin 8) (ra : Reg) (sc : Scope) : Roundtrip.Statement (.segGive gd rd ra sc) := by
  intro w hw h
  have hw : (ra.plain) = true := hw
  obtain ⟨b21_5, f, r⟩ := word_reads 0x44000002 gd [(rd.val, 17, 4), (ra.code, 13, 4), (sc.code, 10, 3)] [(17, 4), (13, 4), (10, 3)] h rfl rfl (by decide) ⟨seg_lt rd, ra.code_lt, sc.code_lt, trivial⟩
  obtain ⟨b17_4, b13_4, b10_3, -⟩ := f
  have m := r 26 6 (x := 17) (by decide)
  have b0_6 : bits w.toNat 0 6 = 2 := r 0 6 (by decide)
  have b6_4 : bits w.toNat 6 4 = 0 := r 6 4 (by decide)
  have s : decodeForm w.toNat = .ok (.base (.segGive gd rd ra sc)) := by
    unfold decodeForm; rw [m]; change decSeg w.toNat _ = _
    refine Eq.trans (b := zero (bits w.toNat 6 4) (do let rd ← seg (bits w.toNat 17 4); let ra ← reg (bits w.toNat 13 4); let sc ← scope (bits w.toNat 10 3); pure (.base (.segGive (BitVec.ofNat 5 (bits w.toNat 21 5)) rd ra sc)))) (by unfold decSeg; rw [b0_6]; rfl) ?_
    simp only [b21_5, b6_4, b17_4, b13_4, b10_3, zero, bind, Except.bind, pure, Except.pure, seg_val, reg_code hw, scope_code, BitVec.ofNat_toNat, BitVec.setWidth_eq, ↓reduceIte]
  rw [decodeWord, s]; rfl

theorem Roundtrip.segTake (gd : Guard) (rd : Fin 8) (ra : Reg) : Roundtrip.Statement (.segTake gd rd ra) := by
  intro w hw h
  have hw : (ra.plain) = true := hw
  obtain ⟨b21_5, f, r⟩ := word_reads 0x44000003 gd [(rd.val, 17, 4), (ra.code, 13, 4)] [(17, 4), (13, 4)] h rfl rfl (by decide) ⟨seg_lt rd, ra.code_lt, trivial⟩
  obtain ⟨b17_4, b13_4, -⟩ := f
  have m := r 26 6 (x := 17) (by decide)
  have b0_6 : bits w.toNat 0 6 = 3 := r 0 6 (by decide)
  have b6_7 : bits w.toNat 6 7 = 0 := r 6 7 (by decide)
  have s : decodeForm w.toNat = .ok (.base (.segTake gd rd ra)) := by
    unfold decodeForm; rw [m]; change decSeg w.toNat _ = _
    refine Eq.trans (b := zero (bits w.toNat 6 7) (do let rd ← seg (bits w.toNat 17 4); let ra ← reg (bits w.toNat 13 4); pure (.base (.segTake (BitVec.ofNat 5 (bits w.toNat 21 5)) rd ra)))) (by unfold decSeg; rw [b0_6]; rfl) ?_
    simp only [b21_5, b6_7, b17_4, b13_4, zero, bind, Except.bind, pure, Except.pure, seg_val, reg_code hw, BitVec.ofNat_toNat, BitVec.setWidth_eq, ↓reduceIte]
  rw [decodeWord, s]; rfl

theorem Roundtrip.ldx (gd : Guard) (rd : Reg) (ra : Reg) (rb : Reg) (sp : RSpace) (sz : Size) : Roundtrip.Statement (.ldx gd rd ra rb sp sz) := by
  intro w hw h
  have hw : (rd.plain && ra.plain && rb.plain) = true := hw
  simp only [Bool.and_eq_true] at hw
  obtain ⟨b21_5, f, r⟩ := word_reads 0x48000000 gd [(rd.code, 17, 4), (ra.code, 13, 4), (rb.code, 9, 4), (sp.code, 2, 1), (sz.code, 0, 2)] [(17, 4), (13, 4), (9, 4), (2, 1), (0, 2)] h rfl rfl (by decide) ⟨rd.code_lt, ra.code_lt, rb.code_lt, sp.code_lt, sz.code_lt, trivial⟩
  obtain ⟨b17_4, b13_4, b9_4, b2_1, b0_2, -⟩ := f
  have m := r 26 6 (x := 18) (by decide)
  have b2_2 := bits_split w.toNat 2 1 1
  rw [b2_1, r 3 1 (x := 0) (by decide)] at b2_2
  have b4_5 : bits w.toNat 4 5 = 0 := r 4 5 (by decide)
  have x3 : ¬ 1 < sp.code + 2 ^ 1 * 0 := by cases sp <;> decide
  have s : decodeForm w.toNat = .ok (.base (.ldx gd rd ra rb sp sz)) := by
    unfold decodeForm; rw [m]; change decRemote w.toNat _ = _
    refine Eq.trans (b := (do let rd ← reg (bits w.toNat 17 4); let ra ← reg (bits w.toNat 13 4); let rb ← reg (bits w.toNat 9 4); let sp := rspace (bits w.toNat 2 1); let sz := size (bits w.toNat 0 2); pure (.base (.ldx (BitVec.ofNat 5 (bits w.toNat 21 5)) rd ra rb sp sz)))) (by unfold decRemote; rw [b2_2, if_neg x3, b4_5]; rfl) ?_
    simp only [b21_5, b17_4, b13_4, b9_4, b2_1, b0_2, bind, Except.bind, pure, Except.pure, reg_code hw.1.1, reg_code hw.1.2, reg_code hw.2, rspace_code, size_code, BitVec.ofNat_toNat, BitVec.setWidth_eq]
  rw [decodeWord, s]; rfl

theorem Roundtrip.stx (gd : Guard) (rd : Reg) (ra : Reg) (rb : Reg) (sp : RSpace) (sz : Size) : Roundtrip.Statement (.stx gd rd ra rb sp sz) := by
  intro w hw h
  have hw : (rd.plain && ra.plain && rb.plain) = true := hw
  simp only [Bool.and_eq_true] at hw
  obtain ⟨b21_5, f, r⟩ := word_reads 0x48000010 gd [(rd.code, 17, 4), (ra.code, 13, 4), (rb.code, 9, 4), (sp.code, 2, 1), (sz.code, 0, 2)] [(17, 4), (13, 4), (9, 4), (2, 1), (0, 2)] h rfl rfl (by decide) ⟨rd.code_lt, ra.code_lt, rb.code_lt, sp.code_lt, sz.code_lt, trivial⟩
  obtain ⟨b17_4, b13_4, b9_4, b2_1, b0_2, -⟩ := f
  have m := r 26 6 (x := 18) (by decide)
  have b2_2 := bits_split w.toNat 2 1 1
  rw [b2_1, r 3 1 (x := 0) (by decide)] at b2_2
  have b4_5 : bits w.toNat 4 5 = 1 := r 4 5 (by decide)
  have x3 : ¬ 1 < sp.code + 2 ^ 1 * 0 := by cases sp <;> decide
  have s : decodeForm w.toNat = .ok (.base (.stx gd rd ra rb sp sz)) := by
    unfold decodeForm; rw [m]; change decRemote w.toNat _ = _
    refine Eq.trans (b := (do let rd ← reg (bits w.toNat 17 4); let ra ← reg (bits w.toNat 13 4); let rb ← reg (bits w.toNat 9 4); let sp := rspace (bits w.toNat 2 1); let sz := size (bits w.toNat 0 2); pure (.base (.stx (BitVec.ofNat 5 (bits w.toNat 21 5)) rd ra rb sp sz)))) (by unfold decRemote; rw [b2_2, if_neg x3, b4_5]; rfl) ?_
    simp only [b21_5, b17_4, b13_4, b9_4, b2_1, b0_2, bind, Except.bind, pure, Except.pure, reg_code hw.1.1, reg_code hw.1.2, reg_code hw.2, rspace_code, size_code, BitVec.ofNat_toNat, BitVec.setWidth_eq]
  rw [decodeWord, s]; rfl

theorem Roundtrip.stxN4 (gd : Guard) (rd : Reg) (ra : Reg) (rb : Reg) (sp : RSpace) : Roundtrip.Statement (.stxN4 gd rd ra rb sp) := by
  intro w hw h
  have hw : (rd.plain && ra.plain && rb.plain) = true := hw
  simp only [Bool.and_eq_true] at hw
  obtain ⟨b21_5, f, r⟩ := word_reads 0x48000020 gd [(rd.code, 17, 4), (ra.code, 13, 4), (rb.code, 9, 4), (sp.code, 2, 1)] [(17, 4), (13, 4), (9, 4), (2, 1)] h rfl rfl (by decide) ⟨rd.code_lt, ra.code_lt, rb.code_lt, sp.code_lt, trivial⟩
  obtain ⟨b17_4, b13_4, b9_4, b2_1, -⟩ := f
  have m := r 26 6 (x := 18) (by decide)
  have b2_2 := bits_split w.toNat 2 1 1
  rw [b2_1, r 3 1 (x := 0) (by decide)] at b2_2
  have b4_5 : bits w.toNat 4 5 = 2 := r 4 5 (by decide)
  have b0_2 : bits w.toNat 0 2 = 0 := r 0 2 (by decide)
  have x3 : ¬ 1 < sp.code + 2 ^ 1 * 0 := by cases sp <;> decide
  have s : decodeForm w.toNat = .ok (.base (.stxN4 gd rd ra rb sp)) := by
    unfold decodeForm; rw [m]; change decRemote w.toNat _ = _
    refine Eq.trans (b := if bits w.toNat 0 2 = 0 then (do let rd ← reg (bits w.toNat 17 4); let ra ← reg (bits w.toNat 13 4); let rb ← reg (bits w.toNat 9 4); let sp := rspace (bits w.toNat 2 1); pure (.base (.stxN4 (BitVec.ofNat 5 (bits w.toNat 21 5)) rd ra rb sp))) else .error .minor) (by unfold decRemote; rw [b2_2, if_neg x3, b4_5]; rfl) ?_
    simp only [b21_5, b0_2, b17_4, b13_4, b9_4, b2_1, bind, Except.bind, pure, Except.pure, reg_code hw.1.1, reg_code hw.1.2, reg_code hw.2, rspace_code, BitVec.ofNat_toNat, BitVec.setWidth_eq, ↓reduceIte]
  rw [decodeWord, s]; rfl

theorem Roundtrip.objInit (gd : Guard) (ra : Reg) (sc : Scope) (rb : Reg) : Roundtrip.Statement (.objInit gd ra sc rb) := by
  intro w hw h
  have hw : (ra.plain && rb.plain) = true := hw
  simp only [Bool.and_eq_true] at hw
  obtain ⟨b21_5, f, r⟩ := word_reads 0x50000000 gd [(ra.code, 13, 4), (sc.code, 10, 3), (rb.code, 6, 4)] [(13, 4), (10, 3), (6, 4)] h rfl rfl (by decide) ⟨ra.code_lt, sc.code_lt, rb.code_lt, trivial⟩
  obtain ⟨b13_4, b10_3, b6_4, -⟩ := f
  have m := r 26 6 (x := 20) (by decide)
  have b0_6 : bits w.toNat 0 6 = 0 := r 0 6 (by decide)
  have b17_4 : bits w.toNat 17 4 = 0 := r 17 4 (by decide)
  have s : decodeForm w.toNat = .ok (.base (.objInit gd ra sc rb)) := by
    unfold decodeForm; rw [m]; change decObj w.toNat _ = _
    refine Eq.trans (b := zero (bits w.toNat 17 4) (do let ra ← reg (bits w.toNat 13 4); let sc ← scope (bits w.toNat 10 3); let rb ← reg (bits w.toNat 6 4); pure (.base (.objInit (BitVec.ofNat 5 (bits w.toNat 21 5)) ra sc rb)))) (by unfold decObj; rw [b0_6]; rfl) ?_
    simp only [b21_5, b17_4, b13_4, b10_3, b6_4, zero, bind, Except.bind, pure, Except.pure, reg_code hw.1, scope_code, reg_code hw.2, BitVec.ofNat_toNat, BitVec.setWidth_eq, ↓reduceIte]
  rw [decodeWord, s]; rfl

theorem Roundtrip.objFree (gd : Guard) (ra : Reg) (sc : Scope) : Roundtrip.Statement (.objFree gd ra sc) := by
  intro w hw h
  have hw : (ra.plain) = true := hw
  obtain ⟨b21_5, f, r⟩ := word_reads 0x50000001 gd [(ra.code, 13, 4), (sc.code, 10, 3)] [(13, 4), (10, 3)] h rfl rfl (by decide) ⟨ra.code_lt, sc.code_lt, trivial⟩
  obtain ⟨b13_4, b10_3, -⟩ := f
  have m := r 26 6 (x := 20) (by decide)
  have b0_6 : bits w.toNat 0 6 = 1 := r 0 6 (by decide)
  have b6_4 : bits w.toNat 6 4 = 0 := r 6 4 (by decide)
  have b17_4 : bits w.toNat 17 4 = 0 := r 17 4 (by decide)
  have s : decodeForm w.toNat = .ok (.base (.objFree gd ra sc)) := by
    unfold decodeForm; rw [m]; change decObj w.toNat _ = _
    refine Eq.trans (b := zero (bits w.toNat 6 4 + bits w.toNat 17 4) (do let ra ← reg (bits w.toNat 13 4); let sc ← scope (bits w.toNat 10 3); pure (.base (.objFree (BitVec.ofNat 5 (bits w.toNat 21 5)) ra sc)))) (by unfold decObj; rw [b0_6]; rfl) ?_
    simp only [b21_5, b6_4, b17_4, b13_4, b10_3, zero, bind, Except.bind, pure, Except.pure, reg_code hw, scope_code, BitVec.ofNat_toNat, BitVec.setWidth_eq, ↓reduceIte]
  rw [decodeWord, s]; rfl

theorem Roundtrip.objRead (gd : Guard) (rd : Reg) (ra : Reg) (sc : Scope) : Roundtrip.Statement (.objRead gd rd ra sc) := by
  intro w hw h
  have hw : (rd.plain && ra.plain) = true := hw
  simp only [Bool.and_eq_true] at hw
  obtain ⟨b21_5, f, r⟩ := word_reads 0x50000002 gd [(rd.code, 17, 4), (ra.code, 13, 4), (sc.code, 10, 3)] [(17, 4), (13, 4), (10, 3)] h rfl rfl (by decide) ⟨rd.code_lt, ra.code_lt, sc.code_lt, trivial⟩
  obtain ⟨b17_4, b13_4, b10_3, -⟩ := f
  have m := r 26 6 (x := 20) (by decide)
  have b0_6 : bits w.toNat 0 6 = 2 := r 0 6 (by decide)
  have b6_4 : bits w.toNat 6 4 = 0 := r 6 4 (by decide)
  have s : decodeForm w.toNat = .ok (.base (.objRead gd rd ra sc)) := by
    unfold decodeForm; rw [m]; change decObj w.toNat _ = _
    refine Eq.trans (b := zero (bits w.toNat 6 4) (do let rd ← reg (bits w.toNat 17 4); let ra ← reg (bits w.toNat 13 4); let sc ← scope (bits w.toNat 10 3); pure (.base (.objRead (BitVec.ofNat 5 (bits w.toNat 21 5)) rd ra sc)))) (by unfold decObj; rw [b0_6]; rfl) ?_
    simp only [b21_5, b6_4, b17_4, b13_4, b10_3, zero, bind, Except.bind, pure, Except.pure, reg_code hw.1, reg_code hw.2, scope_code, BitVec.ofNat_toNat, BitVec.setWidth_eq, ↓reduceIte]
  rw [decodeWord, s]; rfl

theorem Roundtrip.cntAdd (gd : Guard) (rd : Reg) (ra : Reg) (sc : Scope) (rb : Reg) : Roundtrip.Statement (.cntAdd gd rd ra sc rb) := by
  intro w hw h
  have hw : (rd.plain && ra.plain && rb.plain) = true := hw
  simp only [Bool.and_eq_true] at hw
  obtain ⟨b21_5, f, r⟩ := word_reads 0x50000008 gd [(rd.code, 17, 4), (ra.code, 13, 4), (sc.code, 10, 3), (rb.code, 6, 4)] [(17, 4), (13, 4), (10, 3), (6, 4)] h rfl rfl (by decide) ⟨rd.code_lt, ra.code_lt, sc.code_lt, rb.code_lt, trivial⟩
  obtain ⟨b17_4, b13_4, b10_3, b6_4, -⟩ := f
  have m := r 26 6 (x := 20) (by decide)
  have b0_6 : bits w.toNat 0 6 = 8 := r 0 6 (by decide)
  have s : decodeForm w.toNat = .ok (.base (.cntAdd gd rd ra sc rb)) := by
    unfold decodeForm; rw [m]; change decObj w.toNat _ = _
    refine Eq.trans (b := (do let rd ← reg (bits w.toNat 17 4); let ra ← reg (bits w.toNat 13 4); let sc ← scope (bits w.toNat 10 3); let rb ← reg (bits w.toNat 6 4); pure (.base (.cntAdd (BitVec.ofNat 5 (bits w.toNat 21 5)) rd ra sc rb)))) (by unfold decObj; rw [b0_6]; rfl) ?_
    simp only [b21_5, b17_4, b13_4, b10_3, b6_4, bind, Except.bind, pure, Except.pure, reg_code hw.1.1, reg_code hw.1.2, scope_code, reg_code hw.2, BitVec.ofNat_toNat, BitVec.setWidth_eq]
  rw [decodeWord, s]; rfl

theorem Roundtrip.cntSwap (gd : Guard) (rd : Reg) (ra : Reg) (sc : Scope) (rb : Reg) : Roundtrip.Statement (.cntSwap gd rd ra sc rb) := by
  intro w hw h
  have hw : (rd.plain && ra.plain && rb.plain) = true := hw
  simp only [Bool.and_eq_true] at hw
  obtain ⟨b21_5, f, r⟩ := word_reads 0x50000009 gd [(rd.code, 17, 4), (ra.code, 13, 4), (sc.code, 10, 3), (rb.code, 6, 4)] [(17, 4), (13, 4), (10, 3), (6, 4)] h rfl rfl (by decide) ⟨rd.code_lt, ra.code_lt, sc.code_lt, rb.code_lt, trivial⟩
  obtain ⟨b17_4, b13_4, b10_3, b6_4, -⟩ := f
  have m := r 26 6 (x := 20) (by decide)
  have b0_6 : bits w.toNat 0 6 = 9 := r 0 6 (by decide)
  have s : decodeForm w.toNat = .ok (.base (.cntSwap gd rd ra sc rb)) := by
    unfold decodeForm; rw [m]; change decObj w.toNat _ = _
    refine Eq.trans (b := (do let rd ← reg (bits w.toNat 17 4); let ra ← reg (bits w.toNat 13 4); let sc ← scope (bits w.toNat 10 3); let rb ← reg (bits w.toNat 6 4); pure (.base (.cntSwap (BitVec.ofNat 5 (bits w.toNat 21 5)) rd ra sc rb)))) (by unfold decObj; rw [b0_6]; rfl) ?_
    simp only [b21_5, b17_4, b13_4, b10_3, b6_4, bind, Except.bind, pure, Except.pure, reg_code hw.1.1, reg_code hw.1.2, scope_code, reg_code hw.2, BitVec.ofNat_toNat, BitVec.setWidth_eq]
  rw [decodeWord, s]; rfl

theorem Roundtrip.cntCas (gd : Guard) (rd : Reg) (ra : Reg) (sc : Scope) (rb : Reg) : Roundtrip.Statement (.cntCas gd rd ra sc rb) := by
  intro w hw h
  have hw : (rd.plain && ra.plain && rb.plain) = true := hw
  simp only [Bool.and_eq_true] at hw
  obtain ⟨b21_5, f, r⟩ := word_reads 0x5000000A gd [(rd.code, 17, 4), (ra.code, 13, 4), (sc.code, 10, 3), (rb.code, 6, 4)] [(17, 4), (13, 4), (10, 3), (6, 4)] h rfl rfl (by decide) ⟨rd.code_lt, ra.code_lt, sc.code_lt, rb.code_lt, trivial⟩
  obtain ⟨b17_4, b13_4, b10_3, b6_4, -⟩ := f
  have m := r 26 6 (x := 20) (by decide)
  have b0_6 : bits w.toNat 0 6 = 10 := r 0 6 (by decide)
  have s : decodeForm w.toNat = .ok (.base (.cntCas gd rd ra sc rb)) := by
    unfold decodeForm; rw [m]; change decObj w.toNat _ = _
    refine Eq.trans (b := (do let rd ← reg (bits w.toNat 17 4); let ra ← reg (bits w.toNat 13 4); let sc ← scope (bits w.toNat 10 3); let rb ← reg (bits w.toNat 6 4); pure (.base (.cntCas (BitVec.ofNat 5 (bits w.toNat 21 5)) rd ra sc rb)))) (by unfold decObj; rw [b0_6]; rfl) ?_
    simp only [b21_5, b17_4, b13_4, b10_3, b6_4, bind, Except.bind, pure, Except.pure, reg_code hw.1.1, reg_code hw.1.2, scope_code, reg_code hw.2, BitVec.ofNat_toNat, BitVec.setWidth_eq]
  rw [decodeWord, s]; rfl

theorem Roundtrip.cntWaitge (gd : Guard) (rd : Reg) (ra : Reg) (sc : Scope) (rb : Reg) : Roundtrip.Statement (.cntWaitge gd rd ra sc rb) := by
  intro w hw h
  have hw : (rd.plain && ra.plain && rb.plain) = true := hw
  simp only [Bool.and_eq_true] at hw
  obtain ⟨b21_5, f, r⟩ := word_reads 0x5000000B gd [(rd.code, 17, 4), (ra.code, 13, 4), (sc.code, 10, 3), (rb.code, 6, 4)] [(17, 4), (13, 4), (10, 3), (6, 4)] h rfl rfl (by decide) ⟨rd.code_lt, ra.code_lt, sc.code_lt, rb.code_lt, trivial⟩
  obtain ⟨b17_4, b13_4, b10_3, b6_4, -⟩ := f
  have m := r 26 6 (x := 20) (by decide)
  have b0_6 : bits w.toNat 0 6 = 11 := r 0 6 (by decide)
  have s : decodeForm w.toNat = .ok (.base (.cntWaitge gd rd ra sc rb)) := by
    unfold decodeForm; rw [m]; change decObj w.toNat _ = _
    refine Eq.trans (b := (do let rd ← reg (bits w.toNat 17 4); let ra ← reg (bits w.toNat 13 4); let sc ← scope (bits w.toNat 10 3); let rb ← reg (bits w.toNat 6 4); pure (.base (.cntWaitge (BitVec.ofNat 5 (bits w.toNat 21 5)) rd ra sc rb)))) (by unfold decObj; rw [b0_6]; rfl) ?_
    simp only [b21_5, b17_4, b13_4, b10_3, b6_4, bind, Except.bind, pure, Except.pure, reg_code hw.1.1, reg_code hw.1.2, scope_code, reg_code hw.2, BitVec.ofNat_toNat, BitVec.setWidth_eq]
  rw [decodeWord, s]; rfl

theorem Roundtrip.cntWaiteq (gd : Guard) (rd : Reg) (ra : Reg) (sc : Scope) (rb : Reg) : Roundtrip.Statement (.cntWaiteq gd rd ra sc rb) := by
  intro w hw h
  have hw : (rd.plain && ra.plain && rb.plain) = true := hw
  simp only [Bool.and_eq_true] at hw
  obtain ⟨b21_5, f, r⟩ := word_reads 0x5000000C gd [(rd.code, 17, 4), (ra.code, 13, 4), (sc.code, 10, 3), (rb.code, 6, 4)] [(17, 4), (13, 4), (10, 3), (6, 4)] h rfl rfl (by decide) ⟨rd.code_lt, ra.code_lt, sc.code_lt, rb.code_lt, trivial⟩
  obtain ⟨b17_4, b13_4, b10_3, b6_4, -⟩ := f
  have m := r 26 6 (x := 20) (by decide)
  have b0_6 : bits w.toNat 0 6 = 12 := r 0 6 (by decide)
  have s : decodeForm w.toNat = .ok (.base (.cntWaiteq gd rd ra sc rb)) := by
    unfold decodeForm; rw [m]; change decObj w.toNat _ = _
    refine Eq.trans (b := (do let rd ← reg (bits w.toNat 17 4); let ra ← reg (bits w.toNat 13 4); let sc ← scope (bits w.toNat 10 3); let rb ← reg (bits w.toNat 6 4); pure (.base (.cntWaiteq (BitVec.ofNat 5 (bits w.toNat 21 5)) rd ra sc rb)))) (by unfold decObj; rw [b0_6]; rfl) ?_
    simp only [b21_5, b17_4, b13_4, b10_3, b6_4, bind, Except.bind, pure, Except.pure, reg_code hw.1.1, reg_code hw.1.2, scope_code, reg_code hw.2, BitVec.ofNat_toNat, BitVec.setWidth_eq]
  rw [decodeWord, s]; rfl

theorem Roundtrip.barArrive (gd : Guard) (rd : Reg) (ra : Reg) (sc : Scope) : Roundtrip.Statement (.barArrive gd rd ra sc) := by
  intro w hw h
  have hw : (rd.plain && ra.plain) = true := hw
  simp only [Bool.and_eq_true] at hw
  obtain ⟨b21_5, f, r⟩ := word_reads 0x50000010 gd [(rd.code, 17, 4), (ra.code, 13, 4), (sc.code, 10, 3)] [(17, 4), (13, 4), (10, 3)] h rfl rfl (by decide) ⟨rd.code_lt, ra.code_lt, sc.code_lt, trivial⟩
  obtain ⟨b17_4, b13_4, b10_3, -⟩ := f
  have m := r 26 6 (x := 20) (by decide)
  have b0_6 : bits w.toNat 0 6 = 16 := r 0 6 (by decide)
  have b6_4 : bits w.toNat 6 4 = 0 := r 6 4 (by decide)
  have s : decodeForm w.toNat = .ok (.base (.barArrive gd rd ra sc)) := by
    unfold decodeForm; rw [m]; change decObj w.toNat _ = _
    refine Eq.trans (b := zero (bits w.toNat 6 4) (do let rd ← reg (bits w.toNat 17 4); let ra ← reg (bits w.toNat 13 4); let sc ← scope (bits w.toNat 10 3); pure (.base (.barArrive (BitVec.ofNat 5 (bits w.toNat 21 5)) rd ra sc)))) (by unfold decObj; rw [b0_6]; rfl) ?_
    simp only [b21_5, b6_4, b17_4, b13_4, b10_3, zero, bind, Except.bind, pure, Except.pure, reg_code hw.1, reg_code hw.2, scope_code, BitVec.ofNat_toNat, BitVec.setWidth_eq, ↓reduceIte]
  rw [decodeWord, s]; rfl

theorem Roundtrip.barWait (gd : Guard) (ra : Reg) (sc : Scope) (rb : Reg) : Roundtrip.Statement (.barWait gd ra sc rb) := by
  intro w hw h
  have hw : (ra.plain && rb.plain) = true := hw
  simp only [Bool.and_eq_true] at hw
  obtain ⟨b21_5, f, r⟩ := word_reads 0x50000011 gd [(ra.code, 13, 4), (sc.code, 10, 3), (rb.code, 6, 4)] [(13, 4), (10, 3), (6, 4)] h rfl rfl (by decide) ⟨ra.code_lt, sc.code_lt, rb.code_lt, trivial⟩
  obtain ⟨b13_4, b10_3, b6_4, -⟩ := f
  have m := r 26 6 (x := 20) (by decide)
  have b0_6 : bits w.toNat 0 6 = 17 := r 0 6 (by decide)
  have b17_4 : bits w.toNat 17 4 = 0 := r 17 4 (by decide)
  have s : decodeForm w.toNat = .ok (.base (.barWait gd ra sc rb)) := by
    unfold decodeForm; rw [m]; change decObj w.toNat _ = _
    refine Eq.trans (b := zero (bits w.toNat 17 4) (do let ra ← reg (bits w.toNat 13 4); let sc ← scope (bits w.toNat 10 3); let rb ← reg (bits w.toNat 6 4); pure (.base (.barWait (BitVec.ofNat 5 (bits w.toNat 21 5)) ra sc rb)))) (by unfold decObj; rw [b0_6]; rfl) ?_
    simp only [b21_5, b17_4, b13_4, b10_3, b6_4, zero, bind, Except.bind, pure, Except.pure, reg_code hw.1, scope_code, reg_code hw.2, BitVec.ofNat_toNat, BitVec.setWidth_eq, ↓reduceIte]
  rw [decodeWord, s]; rfl

theorem Roundtrip.barSync (gd : Guard) (rd : Reg) (ra : Reg) (sc : Scope) : Roundtrip.Statement (.barSync gd rd ra sc) := by
  intro w hw h
  have hw : (rd.plain && ra.plain) = true := hw
  simp only [Bool.and_eq_true] at hw
  obtain ⟨b21_5, f, r⟩ := word_reads 0x50000012 gd [(rd.code, 17, 4), (ra.code, 13, 4), (sc.code, 10, 3)] [(17, 4), (13, 4), (10, 3)] h rfl rfl (by decide) ⟨rd.code_lt, ra.code_lt, sc.code_lt, trivial⟩
  obtain ⟨b17_4, b13_4, b10_3, -⟩ := f
  have m := r 26 6 (x := 20) (by decide)
  have b0_6 : bits w.toNat 0 6 = 18 := r 0 6 (by decide)
  have b6_4 : bits w.toNat 6 4 = 0 := r 6 4 (by decide)
  have s : decodeForm w.toNat = .ok (.base (.barSync gd rd ra sc)) := by
    unfold decodeForm; rw [m]; change decObj w.toNat _ = _
    refine Eq.trans (b := zero (bits w.toNat 6 4) (do let rd ← reg (bits w.toNat 17 4); let ra ← reg (bits w.toNat 13 4); let sc ← scope (bits w.toNat 10 3); pure (.base (.barSync (BitVec.ofNat 5 (bits w.toNat 21 5)) rd ra sc)))) (by unfold decObj; rw [b0_6]; rfl) ?_
    simp only [b21_5, b6_4, b17_4, b13_4, b10_3, zero, bind, Except.bind, pure, Except.pure, reg_code hw.1, reg_code hw.2, scope_code, BitVec.ofNat_toNat, BitVec.setWidth_eq, ↓reduceIte]
  rw [decodeWord, s]; rfl

theorem Roundtrip.tktAcq (gd : Guard) (rd : Reg) (ra : Reg) (sc : Scope) : Roundtrip.Statement (.tktAcq gd rd ra sc) := by
  intro w hw h
  have hw : (rd.plain && ra.plain) = true := hw
  simp only [Bool.and_eq_true] at hw
  obtain ⟨b21_5, f, r⟩ := word_reads 0x50000018 gd [(rd.code, 17, 4), (ra.code, 13, 4), (sc.code, 10, 3)] [(17, 4), (13, 4), (10, 3)] h rfl rfl (by decide) ⟨rd.code_lt, ra.code_lt, sc.code_lt, trivial⟩
  obtain ⟨b17_4, b13_4, b10_3, -⟩ := f
  have m := r 26 6 (x := 20) (by decide)
  have b0_6 : bits w.toNat 0 6 = 24 := r 0 6 (by decide)
  have b6_4 : bits w.toNat 6 4 = 0 := r 6 4 (by decide)
  have s : decodeForm w.toNat = .ok (.base (.tktAcq gd rd ra sc)) := by
    unfold decodeForm; rw [m]; change decObj w.toNat _ = _
    refine Eq.trans (b := zero (bits w.toNat 6 4) (do let rd ← reg (bits w.toNat 17 4); let ra ← reg (bits w.toNat 13 4); let sc ← scope (bits w.toNat 10 3); pure (.base (.tktAcq (BitVec.ofNat 5 (bits w.toNat 21 5)) rd ra sc)))) (by unfold decObj; rw [b0_6]; rfl) ?_
    simp only [b21_5, b6_4, b17_4, b13_4, b10_3, zero, bind, Except.bind, pure, Except.pure, reg_code hw.1, reg_code hw.2, scope_code, BitVec.ofNat_toNat, BitVec.setWidth_eq, ↓reduceIte]
  rw [decodeWord, s]; rfl

theorem Roundtrip.tktTry (gd : Guard) (rd : Pred) (ra : Reg) (sc : Scope) : Roundtrip.Statement (.tktTry gd rd ra sc) := by
  intro w hw h
  have hw : (ra.plain) = true := hw
  obtain ⟨b21_5, f, r⟩ := word_reads 0x50000019 gd [(rd.toNat, 17, 4), (ra.code, 13, 4), (sc.code, 10, 3)] [(17, 4), (13, 4), (10, 3)] h rfl rfl (by decide) ⟨rd.isLt, ra.code_lt, sc.code_lt, trivial⟩
  obtain ⟨b17_4, b13_4, b10_3, -⟩ := f
  have m := r 26 6 (x := 20) (by decide)
  have b0_6 : bits w.toNat 0 6 = 25 := r 0 6 (by decide)
  have b6_4 : bits w.toNat 6 4 = 0 := r 6 4 (by decide)
  have s : decodeForm w.toNat = .ok (.base (.tktTry gd rd ra sc)) := by
    unfold decodeForm; rw [m]; change decObj w.toNat _ = _
    refine Eq.trans (b := zero (bits w.toNat 6 4) (do let rd := BitVec.ofNat 4 (bits w.toNat 17 4); let ra ← reg (bits w.toNat 13 4); let sc ← scope (bits w.toNat 10 3); pure (.base (.tktTry (BitVec.ofNat 5 (bits w.toNat 21 5)) rd ra sc)))) (by unfold decObj; rw [b0_6]; rfl) ?_
    simp only [b21_5, b6_4, b17_4, b13_4, b10_3, zero, bind, Except.bind, pure, Except.pure, reg_code hw, scope_code, BitVec.ofNat_toNat, BitVec.setWidth_eq, ↓reduceIte]
  rw [decodeWord, s]; rfl

theorem Roundtrip.tktRel (gd : Guard) (ra : Reg) (sc : Scope) : Roundtrip.Statement (.tktRel gd ra sc) := by
  intro w hw h
  have hw : (ra.plain) = true := hw
  obtain ⟨b21_5, f, r⟩ := word_reads 0x5000001A gd [(ra.code, 13, 4), (sc.code, 10, 3)] [(13, 4), (10, 3)] h rfl rfl (by decide) ⟨ra.code_lt, sc.code_lt, trivial⟩
  obtain ⟨b13_4, b10_3, -⟩ := f
  have m := r 26 6 (x := 20) (by decide)
  have b0_6 : bits w.toNat 0 6 = 26 := r 0 6 (by decide)
  have b6_4 : bits w.toNat 6 4 = 0 := r 6 4 (by decide)
  have b17_4 : bits w.toNat 17 4 = 0 := r 17 4 (by decide)
  have s : decodeForm w.toNat = .ok (.base (.tktRel gd ra sc)) := by
    unfold decodeForm; rw [m]; change decObj w.toNat _ = _
    refine Eq.trans (b := zero (bits w.toNat 6 4 + bits w.toNat 17 4) (do let ra ← reg (bits w.toNat 13 4); let sc ← scope (bits w.toNat 10 3); pure (.base (.tktRel (BitVec.ofNat 5 (bits w.toNat 21 5)) ra sc)))) (by unfold decObj; rw [b0_6]; rfl) ?_
    simp only [b21_5, b6_4, b17_4, b13_4, b10_3, zero, bind, Except.bind, pure, Except.pure, reg_code hw, scope_code, BitVec.ofNat_toNat, BitVec.setWidth_eq, ↓reduceIte]
  rw [decodeWord, s]; rfl

theorem Roundtrip.cndWait (gd : Guard) (ra : Reg) (sc : Scope) (rb : Reg) : Roundtrip.Statement (.cndWait gd ra sc rb) := by
  intro w hw h
  have hw : (ra.plain && rb.plain) = true := hw
  simp only [Bool.and_eq_true] at hw
  obtain ⟨b21_5, f, r⟩ := word_reads 0x50000020 gd [(ra.code, 13, 4), (sc.code, 10, 3), (rb.code, 6, 4)] [(13, 4), (10, 3), (6, 4)] h rfl rfl (by decide) ⟨ra.code_lt, sc.code_lt, rb.code_lt, trivial⟩
  obtain ⟨b13_4, b10_3, b6_4, -⟩ := f
  have m := r 26 6 (x := 20) (by decide)
  have b0_6 : bits w.toNat 0 6 = 32 := r 0 6 (by decide)
  have b17_4 : bits w.toNat 17 4 = 0 := r 17 4 (by decide)
  have s : decodeForm w.toNat = .ok (.base (.cndWait gd ra sc rb)) := by
    unfold decodeForm; rw [m]; change decObj w.toNat _ = _
    refine Eq.trans (b := zero (bits w.toNat 17 4) (do let ra ← reg (bits w.toNat 13 4); let sc ← scope (bits w.toNat 10 3); let rb ← reg (bits w.toNat 6 4); pure (.base (.cndWait (BitVec.ofNat 5 (bits w.toNat 21 5)) ra sc rb)))) (by unfold decObj; rw [b0_6]; rfl) ?_
    simp only [b21_5, b17_4, b13_4, b10_3, b6_4, zero, bind, Except.bind, pure, Except.pure, reg_code hw.1, scope_code, reg_code hw.2, BitVec.ofNat_toNat, BitVec.setWidth_eq, ↓reduceIte]
  rw [decodeWord, s]; rfl

theorem Roundtrip.cndSig (gd : Guard) (ra : Reg) (sc : Scope) : Roundtrip.Statement (.cndSig gd ra sc) := by
  intro w hw h
  have hw : (ra.plain) = true := hw
  obtain ⟨b21_5, f, r⟩ := word_reads 0x50000021 gd [(ra.code, 13, 4), (sc.code, 10, 3)] [(13, 4), (10, 3)] h rfl rfl (by decide) ⟨ra.code_lt, sc.code_lt, trivial⟩
  obtain ⟨b13_4, b10_3, -⟩ := f
  have m := r 26 6 (x := 20) (by decide)
  have b0_6 : bits w.toNat 0 6 = 33 := r 0 6 (by decide)
  have b6_4 : bits w.toNat 6 4 = 0 := r 6 4 (by decide)
  have b17_4 : bits w.toNat 17 4 = 0 := r 17 4 (by decide)
  have s : decodeForm w.toNat = .ok (.base (.cndSig gd ra sc)) := by
    unfold decodeForm; rw [m]; change decObj w.toNat _ = _
    refine Eq.trans (b := zero (bits w.toNat 6 4 + bits w.toNat 17 4) (do let ra ← reg (bits w.toNat 13 4); let sc ← scope (bits w.toNat 10 3); pure (.base (.cndSig (BitVec.ofNat 5 (bits w.toNat 21 5)) ra sc)))) (by unfold decObj; rw [b0_6]; rfl) ?_
    simp only [b21_5, b6_4, b17_4, b13_4, b10_3, zero, bind, Except.bind, pure, Except.pure, reg_code hw, scope_code, BitVec.ofNat_toNat, BitVec.setWidth_eq, ↓reduceIte]
  rw [decodeWord, s]; rfl

theorem Roundtrip.cndBcast (gd : Guard) (ra : Reg) (sc : Scope) : Roundtrip.Statement (.cndBcast gd ra sc) := by
  intro w hw h
  have hw : (ra.plain) = true := hw
  obtain ⟨b21_5, f, r⟩ := word_reads 0x50000022 gd [(ra.code, 13, 4), (sc.code, 10, 3)] [(13, 4), (10, 3)] h rfl rfl (by decide) ⟨ra.code_lt, sc.code_lt, trivial⟩
  obtain ⟨b13_4, b10_3, -⟩ := f
  have m := r 26 6 (x := 20) (by decide)
  have b0_6 : bits w.toNat 0 6 = 34 := r 0 6 (by decide)
  have b6_4 : bits w.toNat 6 4 = 0 := r 6 4 (by decide)
  have b17_4 : bits w.toNat 17 4 = 0 := r 17 4 (by decide)
  have s : decodeForm w.toNat = .ok (.base (.cndBcast gd ra sc)) := by
    unfold decodeForm; rw [m]; change decObj w.toNat _ = _
    refine Eq.trans (b := zero (bits w.toNat 6 4 + bits w.toNat 17 4) (do let ra ← reg (bits w.toNat 13 4); let sc ← scope (bits w.toNat 10 3); pure (.base (.cndBcast (BitVec.ofNat 5 (bits w.toNat 21 5)) ra sc)))) (by unfold decObj; rw [b0_6]; rfl) ?_
    simp only [b21_5, b6_4, b17_4, b13_4, b10_3, zero, bind, Except.bind, pure, Except.pure, reg_code hw, scope_code, BitVec.ofNat_toNat, BitVec.setWidth_eq, ↓reduceIte]
  rw [decodeWord, s]; rfl

theorem Roundtrip.qPut (gd : Guard) (ra : Reg) (sc : Scope) (rb : Reg) : Roundtrip.Statement (.qPut gd ra sc rb) := by
  intro w hw h
  have hw : (ra.plain && rb.plain) = true := hw
  simp only [Bool.and_eq_true] at hw
  obtain ⟨b21_5, f, r⟩ := word_reads 0x54000000 gd [(ra.code, 13, 4), (sc.code, 10, 3), (rb.code, 6, 4)] [(13, 4), (10, 3), (6, 4)] h rfl rfl (by decide) ⟨ra.code_lt, sc.code_lt, rb.code_lt, trivial⟩
  obtain ⟨b13_4, b10_3, b6_4, -⟩ := f
  have m := r 26 6 (x := 21) (by decide)
  have b0_6 : bits w.toNat 0 6 = 0 := r 0 6 (by decide)
  have b17_4 : bits w.toNat 17 4 = 0 := r 17 4 (by decide)
  have s : decodeForm w.toNat = .ok (.base (.qPut gd ra sc rb)) := by
    unfold decodeForm; rw [m]; change decQueue w.toNat _ = _
    refine Eq.trans (b := zero (bits w.toNat 17 4) (do let ra ← reg (bits w.toNat 13 4); let sc ← scope (bits w.toNat 10 3); let rb ← reg (bits w.toNat 6 4); pure (.base (.qPut (BitVec.ofNat 5 (bits w.toNat 21 5)) ra sc rb)))) (by unfold decQueue; rw [b0_6]; rfl) ?_
    simp only [b21_5, b17_4, b13_4, b10_3, b6_4, zero, bind, Except.bind, pure, Except.pure, reg_code hw.1, scope_code, reg_code hw.2, BitVec.ofNat_toNat, BitVec.setWidth_eq, ↓reduceIte]
  rw [decodeWord, s]; rfl

theorem Roundtrip.qGet (gd : Guard) (rd : Reg) (ra : Reg) (sc : Scope) (rb : Reg) : Roundtrip.Statement (.qGet gd rd ra sc rb) := by
  intro w hw h
  have hw : (rd.plain && ra.plain && rb.plain) = true := hw
  simp only [Bool.and_eq_true] at hw
  obtain ⟨b21_5, f, r⟩ := word_reads 0x54000001 gd [(rd.code, 17, 4), (ra.code, 13, 4), (sc.code, 10, 3), (rb.code, 6, 4)] [(17, 4), (13, 4), (10, 3), (6, 4)] h rfl rfl (by decide) ⟨rd.code_lt, ra.code_lt, sc.code_lt, rb.code_lt, trivial⟩
  obtain ⟨b17_4, b13_4, b10_3, b6_4, -⟩ := f
  have m := r 26 6 (x := 21) (by decide)
  have b0_6 : bits w.toNat 0 6 = 1 := r 0 6 (by decide)
  have s : decodeForm w.toNat = .ok (.base (.qGet gd rd ra sc rb)) := by
    unfold decodeForm; rw [m]; change decQueue w.toNat _ = _
    refine Eq.trans (b := (do let rd ← reg (bits w.toNat 17 4); let ra ← reg (bits w.toNat 13 4); let sc ← scope (bits w.toNat 10 3); let rb ← reg (bits w.toNat 6 4); pure (.base (.qGet (BitVec.ofNat 5 (bits w.toNat 21 5)) rd ra sc rb)))) (by unfold decQueue; rw [b0_6]; rfl) ?_
    simp only [b21_5, b17_4, b13_4, b10_3, b6_4, bind, Except.bind, pure, Except.pure, reg_code hw.1.1, reg_code hw.1.2, scope_code, reg_code hw.2, BitVec.ofNat_toNat, BitVec.setWidth_eq]
  rw [decodeWord, s]; rfl

theorem Roundtrip.qTryput (gd : Guard) (rd : Pred) (ra : Reg) (sc : Scope) (rb : Reg) : Roundtrip.Statement (.qTryput gd rd ra sc rb) := by
  intro w hw h
  have hw : (ra.plain && rb.plain) = true := hw
  simp only [Bool.and_eq_true] at hw
  obtain ⟨b21_5, f, r⟩ := word_reads 0x54000002 gd [(rd.toNat, 17, 4), (ra.code, 13, 4), (sc.code, 10, 3), (rb.code, 6, 4)] [(17, 4), (13, 4), (10, 3), (6, 4)] h rfl rfl (by decide) ⟨rd.isLt, ra.code_lt, sc.code_lt, rb.code_lt, trivial⟩
  obtain ⟨b17_4, b13_4, b10_3, b6_4, -⟩ := f
  have m := r 26 6 (x := 21) (by decide)
  have b0_6 : bits w.toNat 0 6 = 2 := r 0 6 (by decide)
  have s : decodeForm w.toNat = .ok (.base (.qTryput gd rd ra sc rb)) := by
    unfold decodeForm; rw [m]; change decQueue w.toNat _ = _
    refine Eq.trans (b := (do let rd := BitVec.ofNat 4 (bits w.toNat 17 4); let ra ← reg (bits w.toNat 13 4); let sc ← scope (bits w.toNat 10 3); let rb ← reg (bits w.toNat 6 4); pure (.base (.qTryput (BitVec.ofNat 5 (bits w.toNat 21 5)) rd ra sc rb)))) (by unfold decQueue; rw [b0_6]; rfl) ?_
    simp only [b21_5, b17_4, b13_4, b10_3, b6_4, bind, Except.bind, pure, Except.pure, reg_code hw.1, scope_code, reg_code hw.2, BitVec.ofNat_toNat, BitVec.setWidth_eq]
  rw [decodeWord, s]; rfl

theorem Roundtrip.qTryget (gd : Guard) (rd : Pred) (ra : Reg) (sc : Scope) (rb : Reg) : Roundtrip.Statement (.qTryget gd rd ra sc rb) := by
  intro w hw h
  have hw : (ra.plain && rb.plain) = true := hw
  simp only [Bool.and_eq_true] at hw
  obtain ⟨b21_5, f, r⟩ := word_reads 0x54000003 gd [(rd.toNat, 17, 4), (ra.code, 13, 4), (sc.code, 10, 3), (rb.code, 6, 4)] [(17, 4), (13, 4), (10, 3), (6, 4)] h rfl rfl (by decide) ⟨rd.isLt, ra.code_lt, sc.code_lt, rb.code_lt, trivial⟩
  obtain ⟨b17_4, b13_4, b10_3, b6_4, -⟩ := f
  have m := r 26 6 (x := 21) (by decide)
  have b0_6 : bits w.toNat 0 6 = 3 := r 0 6 (by decide)
  have s : decodeForm w.toNat = .ok (.base (.qTryget gd rd ra sc rb)) := by
    unfold decodeForm; rw [m]; change decQueue w.toNat _ = _
    refine Eq.trans (b := (do let rd := BitVec.ofNat 4 (bits w.toNat 17 4); let ra ← reg (bits w.toNat 13 4); let sc ← scope (bits w.toNat 10 3); let rb ← reg (bits w.toNat 6 4); pure (.base (.qTryget (BitVec.ofNat 5 (bits w.toNat 21 5)) rd ra sc rb)))) (by unfold decQueue; rw [b0_6]; rfl) ?_
    simp only [b21_5, b17_4, b13_4, b10_3, b6_4, bind, Except.bind, pure, Except.pure, reg_code hw.1, scope_code, reg_code hw.2, BitVec.ofNat_toNat, BitVec.setWidth_eq]
  rw [decodeWord, s]; rfl

theorem Roundtrip.vadd (gd : Guard) (rd : Reg) (ra : Reg) (rb : Reg) (l : LaneI) : Roundtrip.Statement (.vadd gd rd ra rb l) := by
  intro w hw h
  have hw : (rd.plain && ra.plain && rb.plain) = true := hw
  simp only [Bool.and_eq_true] at hw
  obtain ⟨b21_5, f, r⟩ := word_reads 0x60000000 gd [(rd.code, 17, 4), (ra.code, 13, 4), (rb.code, 9, 4), (l.code, 0, 2)] [(17, 4), (13, 4), (9, 4), (0, 2)] h rfl rfl (by decide) ⟨rd.code_lt, ra.code_lt, rb.code_lt, l.code_lt, trivial⟩
  obtain ⟨b17_4, b13_4, b9_4, b0_2, -⟩ := f
  have m := r 26 6 (x := 24) (by decide)
  have b2_7 : bits w.toNat 2 7 = 0 := r 2 7 (by decide)
  have s : decodeForm w.toNat = .ok (.base (.vadd gd rd ra rb l)) := by
    unfold decodeForm; rw [m]; change decVInt w.toNat _ = _
    refine Eq.trans (b := (do let rd ← reg (bits w.toNat 17 4); let ra ← reg (bits w.toNat 13 4); let rb ← reg (bits w.toNat 9 4); pure (.base (.vadd (BitVec.ofNat 5 (bits w.toNat 21 5)) rd ra rb l)))) (by unfold decVInt; rw [b0_2, laneI_code, b2_7]; rfl) ?_
    simp only [b21_5, b17_4, b13_4, b9_4, bind, Except.bind, pure, Except.pure, reg_code hw.1.1, reg_code hw.1.2, reg_code hw.2, BitVec.ofNat_toNat, BitVec.setWidth_eq]
  rw [decodeWord, s]; rfl

theorem Roundtrip.vsub (gd : Guard) (rd : Reg) (ra : Reg) (rb : Reg) (l : LaneI) : Roundtrip.Statement (.vsub gd rd ra rb l) := by
  intro w hw h
  have hw : (rd.plain && ra.plain && rb.plain) = true := hw
  simp only [Bool.and_eq_true] at hw
  obtain ⟨b21_5, f, r⟩ := word_reads 0x60000004 gd [(rd.code, 17, 4), (ra.code, 13, 4), (rb.code, 9, 4), (l.code, 0, 2)] [(17, 4), (13, 4), (9, 4), (0, 2)] h rfl rfl (by decide) ⟨rd.code_lt, ra.code_lt, rb.code_lt, l.code_lt, trivial⟩
  obtain ⟨b17_4, b13_4, b9_4, b0_2, -⟩ := f
  have m := r 26 6 (x := 24) (by decide)
  have b2_7 : bits w.toNat 2 7 = 1 := r 2 7 (by decide)
  have s : decodeForm w.toNat = .ok (.base (.vsub gd rd ra rb l)) := by
    unfold decodeForm; rw [m]; change decVInt w.toNat _ = _
    refine Eq.trans (b := (do let rd ← reg (bits w.toNat 17 4); let ra ← reg (bits w.toNat 13 4); let rb ← reg (bits w.toNat 9 4); pure (.base (.vsub (BitVec.ofNat 5 (bits w.toNat 21 5)) rd ra rb l)))) (by unfold decVInt; rw [b0_2, laneI_code, b2_7]; rfl) ?_
    simp only [b21_5, b17_4, b13_4, b9_4, bind, Except.bind, pure, Except.pure, reg_code hw.1.1, reg_code hw.1.2, reg_code hw.2, BitVec.ofNat_toNat, BitVec.setWidth_eq]
  rw [decodeWord, s]; rfl

theorem Roundtrip.vadds (gd : Guard) (rd : Reg) (ra : Reg) (rb : Reg) (l : LaneI) : Roundtrip.Statement (.vadds gd rd ra rb l) := by
  intro w hw h
  have hw : (rd.plain && ra.plain && rb.plain) = true := hw
  simp only [Bool.and_eq_true] at hw
  obtain ⟨b21_5, f, r⟩ := word_reads 0x60000008 gd [(rd.code, 17, 4), (ra.code, 13, 4), (rb.code, 9, 4), (l.code, 0, 2)] [(17, 4), (13, 4), (9, 4), (0, 2)] h rfl rfl (by decide) ⟨rd.code_lt, ra.code_lt, rb.code_lt, l.code_lt, trivial⟩
  obtain ⟨b17_4, b13_4, b9_4, b0_2, -⟩ := f
  have m := r 26 6 (x := 24) (by decide)
  have b2_7 : bits w.toNat 2 7 = 2 := r 2 7 (by decide)
  have s : decodeForm w.toNat = .ok (.base (.vadds gd rd ra rb l)) := by
    unfold decodeForm; rw [m]; change decVInt w.toNat _ = _
    refine Eq.trans (b := (do let rd ← reg (bits w.toNat 17 4); let ra ← reg (bits w.toNat 13 4); let rb ← reg (bits w.toNat 9 4); pure (.base (.vadds (BitVec.ofNat 5 (bits w.toNat 21 5)) rd ra rb l)))) (by unfold decVInt; rw [b0_2, laneI_code, b2_7]; rfl) ?_
    simp only [b21_5, b17_4, b13_4, b9_4, bind, Except.bind, pure, Except.pure, reg_code hw.1.1, reg_code hw.1.2, reg_code hw.2, BitVec.ofNat_toNat, BitVec.setWidth_eq]
  rw [decodeWord, s]; rfl

theorem Roundtrip.vsubs (gd : Guard) (rd : Reg) (ra : Reg) (rb : Reg) (l : LaneI) : Roundtrip.Statement (.vsubs gd rd ra rb l) := by
  intro w hw h
  have hw : (rd.plain && ra.plain && rb.plain) = true := hw
  simp only [Bool.and_eq_true] at hw
  obtain ⟨b21_5, f, r⟩ := word_reads 0x6000000C gd [(rd.code, 17, 4), (ra.code, 13, 4), (rb.code, 9, 4), (l.code, 0, 2)] [(17, 4), (13, 4), (9, 4), (0, 2)] h rfl rfl (by decide) ⟨rd.code_lt, ra.code_lt, rb.code_lt, l.code_lt, trivial⟩
  obtain ⟨b17_4, b13_4, b9_4, b0_2, -⟩ := f
  have m := r 26 6 (x := 24) (by decide)
  have b2_7 : bits w.toNat 2 7 = 3 := r 2 7 (by decide)
  have s : decodeForm w.toNat = .ok (.base (.vsubs gd rd ra rb l)) := by
    unfold decodeForm; rw [m]; change decVInt w.toNat _ = _
    refine Eq.trans (b := (do let rd ← reg (bits w.toNat 17 4); let ra ← reg (bits w.toNat 13 4); let rb ← reg (bits w.toNat 9 4); pure (.base (.vsubs (BitVec.ofNat 5 (bits w.toNat 21 5)) rd ra rb l)))) (by unfold decVInt; rw [b0_2, laneI_code, b2_7]; rfl) ?_
    simp only [b21_5, b17_4, b13_4, b9_4, bind, Except.bind, pure, Except.pure, reg_code hw.1.1, reg_code hw.1.2, reg_code hw.2, BitVec.ofNat_toNat, BitVec.setWidth_eq]
  rw [decodeWord, s]; rfl

theorem Roundtrip.vmul (gd : Guard) (rd : Reg) (ra : Reg) (rb : Reg) (l : LaneI) : Roundtrip.Statement (.vmul gd rd ra rb l) := by
  intro w hw h
  have hw : (rd.plain && ra.plain && rb.plain) = true := hw
  simp only [Bool.and_eq_true] at hw
  obtain ⟨b21_5, f, r⟩ := word_reads 0x60000010 gd [(rd.code, 17, 4), (ra.code, 13, 4), (rb.code, 9, 4), (l.code, 0, 2)] [(17, 4), (13, 4), (9, 4), (0, 2)] h rfl rfl (by decide) ⟨rd.code_lt, ra.code_lt, rb.code_lt, l.code_lt, trivial⟩
  obtain ⟨b17_4, b13_4, b9_4, b0_2, -⟩ := f
  have m := r 26 6 (x := 24) (by decide)
  have b2_7 : bits w.toNat 2 7 = 4 := r 2 7 (by decide)
  have s : decodeForm w.toNat = .ok (.base (.vmul gd rd ra rb l)) := by
    unfold decodeForm; rw [m]; change decVInt w.toNat _ = _
    refine Eq.trans (b := (do let rd ← reg (bits w.toNat 17 4); let ra ← reg (bits w.toNat 13 4); let rb ← reg (bits w.toNat 9 4); pure (.base (.vmul (BitVec.ofNat 5 (bits w.toNat 21 5)) rd ra rb l)))) (by unfold decVInt; rw [b0_2, laneI_code, b2_7]; rfl) ?_
    simp only [b21_5, b17_4, b13_4, b9_4, bind, Except.bind, pure, Except.pure, reg_code hw.1.1, reg_code hw.1.2, reg_code hw.2, BitVec.ofNat_toNat, BitVec.setWidth_eq]
  rw [decodeWord, s]; rfl

theorem Roundtrip.vmulh (gd : Guard) (rd : Reg) (ra : Reg) (rb : Reg) (l : LaneI) : Roundtrip.Statement (.vmulh gd rd ra rb l) := by
  intro w hw h
  have hw : (rd.plain && ra.plain && rb.plain) = true := hw
  simp only [Bool.and_eq_true] at hw
  obtain ⟨b21_5, f, r⟩ := word_reads 0x60000014 gd [(rd.code, 17, 4), (ra.code, 13, 4), (rb.code, 9, 4), (l.code, 0, 2)] [(17, 4), (13, 4), (9, 4), (0, 2)] h rfl rfl (by decide) ⟨rd.code_lt, ra.code_lt, rb.code_lt, l.code_lt, trivial⟩
  obtain ⟨b17_4, b13_4, b9_4, b0_2, -⟩ := f
  have m := r 26 6 (x := 24) (by decide)
  have b2_7 : bits w.toNat 2 7 = 5 := r 2 7 (by decide)
  have s : decodeForm w.toNat = .ok (.base (.vmulh gd rd ra rb l)) := by
    unfold decodeForm; rw [m]; change decVInt w.toNat _ = _
    refine Eq.trans (b := (do let rd ← reg (bits w.toNat 17 4); let ra ← reg (bits w.toNat 13 4); let rb ← reg (bits w.toNat 9 4); pure (.base (.vmulh (BitVec.ofNat 5 (bits w.toNat 21 5)) rd ra rb l)))) (by unfold decVInt; rw [b0_2, laneI_code, b2_7]; rfl) ?_
    simp only [b21_5, b17_4, b13_4, b9_4, bind, Except.bind, pure, Except.pure, reg_code hw.1.1, reg_code hw.1.2, reg_code hw.2, BitVec.ofNat_toNat, BitVec.setWidth_eq]
  rw [decodeWord, s]; rfl

theorem Roundtrip.vmac (gd : Guard) (rd : Reg) (ra : Reg) (rb : Reg) (l : LaneI) : Roundtrip.Statement (.vmac gd rd ra rb l) := by
  intro w hw h
  have hw : (rd.plain && ra.plain && rb.plain) = true := hw
  simp only [Bool.and_eq_true] at hw
  obtain ⟨b21_5, f, r⟩ := word_reads 0x60000018 gd [(rd.code, 17, 4), (ra.code, 13, 4), (rb.code, 9, 4), (l.code, 0, 2)] [(17, 4), (13, 4), (9, 4), (0, 2)] h rfl rfl (by decide) ⟨rd.code_lt, ra.code_lt, rb.code_lt, l.code_lt, trivial⟩
  obtain ⟨b17_4, b13_4, b9_4, b0_2, -⟩ := f
  have m := r 26 6 (x := 24) (by decide)
  have b2_7 : bits w.toNat 2 7 = 6 := r 2 7 (by decide)
  have s : decodeForm w.toNat = .ok (.base (.vmac gd rd ra rb l)) := by
    unfold decodeForm; rw [m]; change decVInt w.toNat _ = _
    refine Eq.trans (b := (do let rd ← reg (bits w.toNat 17 4); let ra ← reg (bits w.toNat 13 4); let rb ← reg (bits w.toNat 9 4); pure (.base (.vmac (BitVec.ofNat 5 (bits w.toNat 21 5)) rd ra rb l)))) (by unfold decVInt; rw [b0_2, laneI_code, b2_7]; rfl) ?_
    simp only [b21_5, b17_4, b13_4, b9_4, bind, Except.bind, pure, Except.pure, reg_code hw.1.1, reg_code hw.1.2, reg_code hw.2, BitVec.ofNat_toNat, BitVec.setWidth_eq]
  rw [decodeWord, s]; rfl

theorem Roundtrip.vdot4 (gd : Guard) (rd : Reg) (ra : Reg) (rb : Reg) : Roundtrip.Statement (.vdot4 gd rd ra rb) := by
  intro w hw h
  have hw : (rd.plain && ra.plain && rb.plain) = true := hw
  simp only [Bool.and_eq_true] at hw
  obtain ⟨b21_5, f, r⟩ := word_reads 0x6000001C gd [(rd.code, 17, 4), (ra.code, 13, 4), (rb.code, 9, 4)] [(17, 4), (13, 4), (9, 4)] h rfl rfl (by decide) ⟨rd.code_lt, ra.code_lt, rb.code_lt, trivial⟩
  obtain ⟨b17_4, b13_4, b9_4, -⟩ := f
  have m := r 26 6 (x := 24) (by decide)
  have b0_2 : bits w.toNat 0 2 = 0 := r 0 2 (by decide)
  have b2_7 : bits w.toNat 2 7 = 7 := r 2 7 (by decide)
  have s : decodeForm w.toNat = .ok (.base (.vdot4 gd rd ra rb)) := by
    unfold decodeForm; rw [m]; change decVInt w.toNat _ = _
    refine Eq.trans (b := if LaneI.b = .b then (do let rd ← reg (bits w.toNat 17 4); let ra ← reg (bits w.toNat 13 4); let rb ← reg (bits w.toNat 9 4); pure (.base (.vdot4 (BitVec.ofNat 5 (bits w.toNat 21 5)) rd ra rb))) else .error .minor) (by unfold decVInt; rw [b0_2, show laneI 0 = some LaneI.b from rfl, b2_7]; rfl) ?_
    simp only [b21_5, b17_4, b13_4, b9_4, bind, Except.bind, pure, Except.pure, reg_code hw.1.1, reg_code hw.1.2, reg_code hw.2, BitVec.ofNat_toNat, BitVec.setWidth_eq, ↓reduceIte]
  rw [decodeWord, s]; rfl

theorem Roundtrip.vmin (gd : Guard) (rd : Reg) (ra : Reg) (rb : Reg) (l : LaneI) : Roundtrip.Statement (.vmin gd rd ra rb l) := by
  intro w hw h
  have hw : (rd.plain && ra.plain && rb.plain) = true := hw
  simp only [Bool.and_eq_true] at hw
  obtain ⟨b21_5, f, r⟩ := word_reads 0x60000020 gd [(rd.code, 17, 4), (ra.code, 13, 4), (rb.code, 9, 4), (l.code, 0, 2)] [(17, 4), (13, 4), (9, 4), (0, 2)] h rfl rfl (by decide) ⟨rd.code_lt, ra.code_lt, rb.code_lt, l.code_lt, trivial⟩
  obtain ⟨b17_4, b13_4, b9_4, b0_2, -⟩ := f
  have m := r 26 6 (x := 24) (by decide)
  have b2_7 : bits w.toNat 2 7 = 8 := r 2 7 (by decide)
  have s : decodeForm w.toNat = .ok (.base (.vmin gd rd ra rb l)) := by
    unfold decodeForm; rw [m]; change decVInt w.toNat _ = _
    refine Eq.trans (b := (do let rd ← reg (bits w.toNat 17 4); let ra ← reg (bits w.toNat 13 4); let rb ← reg (bits w.toNat 9 4); pure (.base (.vmin (BitVec.ofNat 5 (bits w.toNat 21 5)) rd ra rb l)))) (by unfold decVInt; rw [b0_2, laneI_code, b2_7]; rfl) ?_
    simp only [b21_5, b17_4, b13_4, b9_4, bind, Except.bind, pure, Except.pure, reg_code hw.1.1, reg_code hw.1.2, reg_code hw.2, BitVec.ofNat_toNat, BitVec.setWidth_eq]
  rw [decodeWord, s]; rfl

theorem Roundtrip.vmax (gd : Guard) (rd : Reg) (ra : Reg) (rb : Reg) (l : LaneI) : Roundtrip.Statement (.vmax gd rd ra rb l) := by
  intro w hw h
  have hw : (rd.plain && ra.plain && rb.plain) = true := hw
  simp only [Bool.and_eq_true] at hw
  obtain ⟨b21_5, f, r⟩ := word_reads 0x60000024 gd [(rd.code, 17, 4), (ra.code, 13, 4), (rb.code, 9, 4), (l.code, 0, 2)] [(17, 4), (13, 4), (9, 4), (0, 2)] h rfl rfl (by decide) ⟨rd.code_lt, ra.code_lt, rb.code_lt, l.code_lt, trivial⟩
  obtain ⟨b17_4, b13_4, b9_4, b0_2, -⟩ := f
  have m := r 26 6 (x := 24) (by decide)
  have b2_7 : bits w.toNat 2 7 = 9 := r 2 7 (by decide)
  have s : decodeForm w.toNat = .ok (.base (.vmax gd rd ra rb l)) := by
    unfold decodeForm; rw [m]; change decVInt w.toNat _ = _
    refine Eq.trans (b := (do let rd ← reg (bits w.toNat 17 4); let ra ← reg (bits w.toNat 13 4); let rb ← reg (bits w.toNat 9 4); pure (.base (.vmax (BitVec.ofNat 5 (bits w.toNat 21 5)) rd ra rb l)))) (by unfold decVInt; rw [b0_2, laneI_code, b2_7]; rfl) ?_
    simp only [b21_5, b17_4, b13_4, b9_4, bind, Except.bind, pure, Except.pure, reg_code hw.1.1, reg_code hw.1.2, reg_code hw.2, BitVec.ofNat_toNat, BitVec.setWidth_eq]
  rw [decodeWord, s]; rfl

theorem Roundtrip.vabs (gd : Guard) (rd : Reg) (ra : Reg) (l : LaneI) : Roundtrip.Statement (.vabs gd rd ra l) := by
  intro w hw h
  have hw : (rd.plain && ra.plain) = true := hw
  simp only [Bool.and_eq_true] at hw
  obtain ⟨b21_5, f, r⟩ := word_reads 0x60000028 gd [(rd.code, 17, 4), (ra.code, 13, 4), (l.code, 0, 2)] [(17, 4), (13, 4), (0, 2)] h rfl rfl (by decide) ⟨rd.code_lt, ra.code_lt, l.code_lt, trivial⟩
  obtain ⟨b17_4, b13_4, b0_2, -⟩ := f
  have m := r 26 6 (x := 24) (by decide)
  have b2_7 : bits w.toNat 2 7 = 10 := r 2 7 (by decide)
  have b9_4 : bits w.toNat 9 4 = 0 := r 9 4 (by decide)
  have s : decodeForm w.toNat = .ok (.base (.vabs gd rd ra l)) := by
    unfold decodeForm; rw [m]; change decVInt w.toNat _ = _
    refine Eq.trans (b := zero (bits w.toNat 9 4) (do let rd ← reg (bits w.toNat 17 4); let ra ← reg (bits w.toNat 13 4); pure (.base (.vabs (BitVec.ofNat 5 (bits w.toNat 21 5)) rd ra l)))) (by unfold decVInt; rw [b0_2, laneI_code, b2_7]; rfl) ?_
    simp only [b21_5, b9_4, b17_4, b13_4, zero, bind, Except.bind, pure, Except.pure, reg_code hw.1, reg_code hw.2, BitVec.ofNat_toNat, BitVec.setWidth_eq, ↓reduceIte]
  rw [decodeWord, s]; rfl

theorem Roundtrip.vavg (gd : Guard) (rd : Reg) (ra : Reg) (rb : Reg) (l : LaneI) : Roundtrip.Statement (.vavg gd rd ra rb l) := by
  intro w hw h
  have hw : (rd.plain && ra.plain && rb.plain) = true := hw
  simp only [Bool.and_eq_true] at hw
  obtain ⟨b21_5, f, r⟩ := word_reads 0x6000002C gd [(rd.code, 17, 4), (ra.code, 13, 4), (rb.code, 9, 4), (l.code, 0, 2)] [(17, 4), (13, 4), (9, 4), (0, 2)] h rfl rfl (by decide) ⟨rd.code_lt, ra.code_lt, rb.code_lt, l.code_lt, trivial⟩
  obtain ⟨b17_4, b13_4, b9_4, b0_2, -⟩ := f
  have m := r 26 6 (x := 24) (by decide)
  have b2_7 : bits w.toNat 2 7 = 11 := r 2 7 (by decide)
  have s : decodeForm w.toNat = .ok (.base (.vavg gd rd ra rb l)) := by
    unfold decodeForm; rw [m]; change decVInt w.toNat _ = _
    refine Eq.trans (b := (do let rd ← reg (bits w.toNat 17 4); let ra ← reg (bits w.toNat 13 4); let rb ← reg (bits w.toNat 9 4); pure (.base (.vavg (BitVec.ofNat 5 (bits w.toNat 21 5)) rd ra rb l)))) (by unfold decVInt; rw [b0_2, laneI_code, b2_7]; rfl) ?_
    simp only [b21_5, b17_4, b13_4, b9_4, bind, Except.bind, pure, Except.pure, reg_code hw.1.1, reg_code hw.1.2, reg_code hw.2, BitVec.ofNat_toNat, BitVec.setWidth_eq]
  rw [decodeWord, s]; rfl

theorem Roundtrip.vshl (gd : Guard) (rd : Reg) (ra : Reg) (rb : Reg) (l : LaneI) : Roundtrip.Statement (.vshl gd rd ra rb l) := by
  intro w hw h
  have hw : (rd.plain && ra.plain && rb.plain) = true := hw
  simp only [Bool.and_eq_true] at hw
  obtain ⟨b21_5, f, r⟩ := word_reads 0x60000030 gd [(rd.code, 17, 4), (ra.code, 13, 4), (rb.code, 9, 4), (l.code, 0, 2)] [(17, 4), (13, 4), (9, 4), (0, 2)] h rfl rfl (by decide) ⟨rd.code_lt, ra.code_lt, rb.code_lt, l.code_lt, trivial⟩
  obtain ⟨b17_4, b13_4, b9_4, b0_2, -⟩ := f
  have m := r 26 6 (x := 24) (by decide)
  have b2_7 : bits w.toNat 2 7 = 12 := r 2 7 (by decide)
  have s : decodeForm w.toNat = .ok (.base (.vshl gd rd ra rb l)) := by
    unfold decodeForm; rw [m]; change decVInt w.toNat _ = _
    refine Eq.trans (b := (do let rd ← reg (bits w.toNat 17 4); let ra ← reg (bits w.toNat 13 4); let rb ← reg (bits w.toNat 9 4); pure (.base (.vshl (BitVec.ofNat 5 (bits w.toNat 21 5)) rd ra rb l)))) (by unfold decVInt; rw [b0_2, laneI_code, b2_7]; rfl) ?_
    simp only [b21_5, b17_4, b13_4, b9_4, bind, Except.bind, pure, Except.pure, reg_code hw.1.1, reg_code hw.1.2, reg_code hw.2, BitVec.ofNat_toNat, BitVec.setWidth_eq]
  rw [decodeWord, s]; rfl

theorem Roundtrip.vshr (gd : Guard) (rd : Reg) (ra : Reg) (rb : Reg) (l : LaneI) : Roundtrip.Statement (.vshr gd rd ra rb l) := by
  intro w hw h
  have hw : (rd.plain && ra.plain && rb.plain) = true := hw
  simp only [Bool.and_eq_true] at hw
  obtain ⟨b21_5, f, r⟩ := word_reads 0x60000034 gd [(rd.code, 17, 4), (ra.code, 13, 4), (rb.code, 9, 4), (l.code, 0, 2)] [(17, 4), (13, 4), (9, 4), (0, 2)] h rfl rfl (by decide) ⟨rd.code_lt, ra.code_lt, rb.code_lt, l.code_lt, trivial⟩
  obtain ⟨b17_4, b13_4, b9_4, b0_2, -⟩ := f
  have m := r 26 6 (x := 24) (by decide)
  have b2_7 : bits w.toNat 2 7 = 13 := r 2 7 (by decide)
  have s : decodeForm w.toNat = .ok (.base (.vshr gd rd ra rb l)) := by
    unfold decodeForm; rw [m]; change decVInt w.toNat _ = _
    refine Eq.trans (b := (do let rd ← reg (bits w.toNat 17 4); let ra ← reg (bits w.toNat 13 4); let rb ← reg (bits w.toNat 9 4); pure (.base (.vshr (BitVec.ofNat 5 (bits w.toNat 21 5)) rd ra rb l)))) (by unfold decVInt; rw [b0_2, laneI_code, b2_7]; rfl) ?_
    simp only [b21_5, b17_4, b13_4, b9_4, bind, Except.bind, pure, Except.pure, reg_code hw.1.1, reg_code hw.1.2, reg_code hw.2, BitVec.ofNat_toNat, BitVec.setWidth_eq]
  rw [decodeWord, s]; rfl

theorem Roundtrip.vsra (gd : Guard) (rd : Reg) (ra : Reg) (rb : Reg) (l : LaneI) : Roundtrip.Statement (.vsra gd rd ra rb l) := by
  intro w hw h
  have hw : (rd.plain && ra.plain && rb.plain) = true := hw
  simp only [Bool.and_eq_true] at hw
  obtain ⟨b21_5, f, r⟩ := word_reads 0x60000038 gd [(rd.code, 17, 4), (ra.code, 13, 4), (rb.code, 9, 4), (l.code, 0, 2)] [(17, 4), (13, 4), (9, 4), (0, 2)] h rfl rfl (by decide) ⟨rd.code_lt, ra.code_lt, rb.code_lt, l.code_lt, trivial⟩
  obtain ⟨b17_4, b13_4, b9_4, b0_2, -⟩ := f
  have m := r 26 6 (x := 24) (by decide)
  have b2_7 : bits w.toNat 2 7 = 14 := r 2 7 (by decide)
  have s : decodeForm w.toNat = .ok (.base (.vsra gd rd ra rb l)) := by
    unfold decodeForm; rw [m]; change decVInt w.toNat _ = _
    refine Eq.trans (b := (do let rd ← reg (bits w.toNat 17 4); let ra ← reg (bits w.toNat 13 4); let rb ← reg (bits w.toNat 9 4); pure (.base (.vsra (BitVec.ofNat 5 (bits w.toNat 21 5)) rd ra rb l)))) (by unfold decVInt; rw [b0_2, laneI_code, b2_7]; rfl) ?_
    simp only [b21_5, b17_4, b13_4, b9_4, bind, Except.bind, pure, Except.pure, reg_code hw.1.1, reg_code hw.1.2, reg_code hw.2, BitVec.ofNat_toNat, BitVec.setWidth_eq]
  rw [decodeWord, s]; rfl

theorem Roundtrip.vcmpEq (gd : Guard) (rd : Reg) (ra : Reg) (rb : Reg) (l : LaneI) : Roundtrip.Statement (.vcmpEq gd rd ra rb l) := by
  intro w hw h
  have hw : (rd.plain && ra.plain && rb.plain) = true := hw
  simp only [Bool.and_eq_true] at hw
  obtain ⟨b21_5, f, r⟩ := word_reads 0x60000040 gd [(rd.code, 17, 4), (ra.code, 13, 4), (rb.code, 9, 4), (l.code, 0, 2)] [(17, 4), (13, 4), (9, 4), (0, 2)] h rfl rfl (by decide) ⟨rd.code_lt, ra.code_lt, rb.code_lt, l.code_lt, trivial⟩
  obtain ⟨b17_4, b13_4, b9_4, b0_2, -⟩ := f
  have m := r 26 6 (x := 24) (by decide)
  have b2_7 : bits w.toNat 2 7 = 16 := r 2 7 (by decide)
  have s : decodeForm w.toNat = .ok (.base (.vcmpEq gd rd ra rb l)) := by
    unfold decodeForm; rw [m]; change decVInt w.toNat _ = _
    refine Eq.trans (b := (do let rd ← reg (bits w.toNat 17 4); let ra ← reg (bits w.toNat 13 4); let rb ← reg (bits w.toNat 9 4); pure (.base (.vcmpEq (BitVec.ofNat 5 (bits w.toNat 21 5)) rd ra rb l)))) (by unfold decVInt; rw [b0_2, laneI_code, b2_7]; rfl) ?_
    simp only [b21_5, b17_4, b13_4, b9_4, bind, Except.bind, pure, Except.pure, reg_code hw.1.1, reg_code hw.1.2, reg_code hw.2, BitVec.ofNat_toNat, BitVec.setWidth_eq]
  rw [decodeWord, s]; rfl

theorem Roundtrip.vcmpNe (gd : Guard) (rd : Reg) (ra : Reg) (rb : Reg) (l : LaneI) : Roundtrip.Statement (.vcmpNe gd rd ra rb l) := by
  intro w hw h
  have hw : (rd.plain && ra.plain && rb.plain) = true := hw
  simp only [Bool.and_eq_true] at hw
  obtain ⟨b21_5, f, r⟩ := word_reads 0x60000044 gd [(rd.code, 17, 4), (ra.code, 13, 4), (rb.code, 9, 4), (l.code, 0, 2)] [(17, 4), (13, 4), (9, 4), (0, 2)] h rfl rfl (by decide) ⟨rd.code_lt, ra.code_lt, rb.code_lt, l.code_lt, trivial⟩
  obtain ⟨b17_4, b13_4, b9_4, b0_2, -⟩ := f
  have m := r 26 6 (x := 24) (by decide)
  have b2_7 : bits w.toNat 2 7 = 17 := r 2 7 (by decide)
  have s : decodeForm w.toNat = .ok (.base (.vcmpNe gd rd ra rb l)) := by
    unfold decodeForm; rw [m]; change decVInt w.toNat _ = _
    refine Eq.trans (b := (do let rd ← reg (bits w.toNat 17 4); let ra ← reg (bits w.toNat 13 4); let rb ← reg (bits w.toNat 9 4); pure (.base (.vcmpNe (BitVec.ofNat 5 (bits w.toNat 21 5)) rd ra rb l)))) (by unfold decVInt; rw [b0_2, laneI_code, b2_7]; rfl) ?_
    simp only [b21_5, b17_4, b13_4, b9_4, bind, Except.bind, pure, Except.pure, reg_code hw.1.1, reg_code hw.1.2, reg_code hw.2, BitVec.ofNat_toNat, BitVec.setWidth_eq]
  rw [decodeWord, s]; rfl

theorem Roundtrip.vcmpLt (gd : Guard) (rd : Reg) (ra : Reg) (rb : Reg) (l : LaneI) : Roundtrip.Statement (.vcmpLt gd rd ra rb l) := by
  intro w hw h
  have hw : (rd.plain && ra.plain && rb.plain) = true := hw
  simp only [Bool.and_eq_true] at hw
  obtain ⟨b21_5, f, r⟩ := word_reads 0x60000048 gd [(rd.code, 17, 4), (ra.code, 13, 4), (rb.code, 9, 4), (l.code, 0, 2)] [(17, 4), (13, 4), (9, 4), (0, 2)] h rfl rfl (by decide) ⟨rd.code_lt, ra.code_lt, rb.code_lt, l.code_lt, trivial⟩
  obtain ⟨b17_4, b13_4, b9_4, b0_2, -⟩ := f
  have m := r 26 6 (x := 24) (by decide)
  have b2_7 : bits w.toNat 2 7 = 18 := r 2 7 (by decide)
  have s : decodeForm w.toNat = .ok (.base (.vcmpLt gd rd ra rb l)) := by
    unfold decodeForm; rw [m]; change decVInt w.toNat _ = _
    refine Eq.trans (b := (do let rd ← reg (bits w.toNat 17 4); let ra ← reg (bits w.toNat 13 4); let rb ← reg (bits w.toNat 9 4); pure (.base (.vcmpLt (BitVec.ofNat 5 (bits w.toNat 21 5)) rd ra rb l)))) (by unfold decVInt; rw [b0_2, laneI_code, b2_7]; rfl) ?_
    simp only [b21_5, b17_4, b13_4, b9_4, bind, Except.bind, pure, Except.pure, reg_code hw.1.1, reg_code hw.1.2, reg_code hw.2, BitVec.ofNat_toNat, BitVec.setWidth_eq]
  rw [decodeWord, s]; rfl

theorem Roundtrip.vcmpGe (gd : Guard) (rd : Reg) (ra : Reg) (rb : Reg) (l : LaneI) : Roundtrip.Statement (.vcmpGe gd rd ra rb l) := by
  intro w hw h
  have hw : (rd.plain && ra.plain && rb.plain) = true := hw
  simp only [Bool.and_eq_true] at hw
  obtain ⟨b21_5, f, r⟩ := word_reads 0x6000004C gd [(rd.code, 17, 4), (ra.code, 13, 4), (rb.code, 9, 4), (l.code, 0, 2)] [(17, 4), (13, 4), (9, 4), (0, 2)] h rfl rfl (by decide) ⟨rd.code_lt, ra.code_lt, rb.code_lt, l.code_lt, trivial⟩
  obtain ⟨b17_4, b13_4, b9_4, b0_2, -⟩ := f
  have m := r 26 6 (x := 24) (by decide)
  have b2_7 : bits w.toNat 2 7 = 19 := r 2 7 (by decide)
  have s : decodeForm w.toNat = .ok (.base (.vcmpGe gd rd ra rb l)) := by
    unfold decodeForm; rw [m]; change decVInt w.toNat _ = _
    refine Eq.trans (b := (do let rd ← reg (bits w.toNat 17 4); let ra ← reg (bits w.toNat 13 4); let rb ← reg (bits w.toNat 9 4); pure (.base (.vcmpGe (BitVec.ofNat 5 (bits w.toNat 21 5)) rd ra rb l)))) (by unfold decVInt; rw [b0_2, laneI_code, b2_7]; rfl) ?_
    simp only [b21_5, b17_4, b13_4, b9_4, bind, Except.bind, pure, Except.pure, reg_code hw.1.1, reg_code hw.1.2, reg_code hw.2, BitVec.ofNat_toNat, BitVec.setWidth_eq]
  rw [decodeWord, s]; rfl

theorem Roundtrip.vcmpLtu (gd : Guard) (rd : Reg) (ra : Reg) (rb : Reg) (l : LaneI) : Roundtrip.Statement (.vcmpLtu gd rd ra rb l) := by
  intro w hw h
  have hw : (rd.plain && ra.plain && rb.plain) = true := hw
  simp only [Bool.and_eq_true] at hw
  obtain ⟨b21_5, f, r⟩ := word_reads 0x60000050 gd [(rd.code, 17, 4), (ra.code, 13, 4), (rb.code, 9, 4), (l.code, 0, 2)] [(17, 4), (13, 4), (9, 4), (0, 2)] h rfl rfl (by decide) ⟨rd.code_lt, ra.code_lt, rb.code_lt, l.code_lt, trivial⟩
  obtain ⟨b17_4, b13_4, b9_4, b0_2, -⟩ := f
  have m := r 26 6 (x := 24) (by decide)
  have b2_7 : bits w.toNat 2 7 = 20 := r 2 7 (by decide)
  have s : decodeForm w.toNat = .ok (.base (.vcmpLtu gd rd ra rb l)) := by
    unfold decodeForm; rw [m]; change decVInt w.toNat _ = _
    refine Eq.trans (b := (do let rd ← reg (bits w.toNat 17 4); let ra ← reg (bits w.toNat 13 4); let rb ← reg (bits w.toNat 9 4); pure (.base (.vcmpLtu (BitVec.ofNat 5 (bits w.toNat 21 5)) rd ra rb l)))) (by unfold decVInt; rw [b0_2, laneI_code, b2_7]; rfl) ?_
    simp only [b21_5, b17_4, b13_4, b9_4, bind, Except.bind, pure, Except.pure, reg_code hw.1.1, reg_code hw.1.2, reg_code hw.2, BitVec.ofNat_toNat, BitVec.setWidth_eq]
  rw [decodeWord, s]; rfl

theorem Roundtrip.vcmpGeu (gd : Guard) (rd : Reg) (ra : Reg) (rb : Reg) (l : LaneI) : Roundtrip.Statement (.vcmpGeu gd rd ra rb l) := by
  intro w hw h
  have hw : (rd.plain && ra.plain && rb.plain) = true := hw
  simp only [Bool.and_eq_true] at hw
  obtain ⟨b21_5, f, r⟩ := word_reads 0x60000054 gd [(rd.code, 17, 4), (ra.code, 13, 4), (rb.code, 9, 4), (l.code, 0, 2)] [(17, 4), (13, 4), (9, 4), (0, 2)] h rfl rfl (by decide) ⟨rd.code_lt, ra.code_lt, rb.code_lt, l.code_lt, trivial⟩
  obtain ⟨b17_4, b13_4, b9_4, b0_2, -⟩ := f
  have m := r 26 6 (x := 24) (by decide)
  have b2_7 : bits w.toNat 2 7 = 21 := r 2 7 (by decide)
  have s : decodeForm w.toNat = .ok (.base (.vcmpGeu gd rd ra rb l)) := by
    unfold decodeForm; rw [m]; change decVInt w.toNat _ = _
    refine Eq.trans (b := (do let rd ← reg (bits w.toNat 17 4); let ra ← reg (bits w.toNat 13 4); let rb ← reg (bits w.toNat 9 4); pure (.base (.vcmpGeu (BitVec.ofNat 5 (bits w.toNat 21 5)) rd ra rb l)))) (by unfold decVInt; rw [b0_2, laneI_code, b2_7]; rfl) ?_
    simp only [b21_5, b17_4, b13_4, b9_4, bind, Except.bind, pure, Except.pure, reg_code hw.1.1, reg_code hw.1.2, reg_code hw.2, BitVec.ofNat_toNat, BitVec.setWidth_eq]
  rw [decodeWord, s]; rfl

theorem Roundtrip.vsel (gd : Guard) (rd : Reg) (ra : Reg) (rb : Reg) (l : LaneI) : Roundtrip.Statement (.vsel gd rd ra rb l) := by
  intro w hw h
  have hw : (rd.plain && ra.plain && rb.plain) = true := hw
  simp only [Bool.and_eq_true] at hw
  obtain ⟨b21_5, f, r⟩ := word_reads 0x60000060 gd [(rd.code, 17, 4), (ra.code, 13, 4), (rb.code, 9, 4), (l.code, 0, 2)] [(17, 4), (13, 4), (9, 4), (0, 2)] h rfl rfl (by decide) ⟨rd.code_lt, ra.code_lt, rb.code_lt, l.code_lt, trivial⟩
  obtain ⟨b17_4, b13_4, b9_4, b0_2, -⟩ := f
  have m := r 26 6 (x := 24) (by decide)
  have b2_7 : bits w.toNat 2 7 = 24 := r 2 7 (by decide)
  have s : decodeForm w.toNat = .ok (.base (.vsel gd rd ra rb l)) := by
    unfold decodeForm; rw [m]; change decVInt w.toNat _ = _
    refine Eq.trans (b := (do let rd ← reg (bits w.toNat 17 4); let ra ← reg (bits w.toNat 13 4); let rb ← reg (bits w.toNat 9 4); pure (.base (.vsel (BitVec.ofNat 5 (bits w.toNat 21 5)) rd ra rb l)))) (by unfold decVInt; rw [b0_2, laneI_code, b2_7]; rfl) ?_
    simp only [b21_5, b17_4, b13_4, b9_4, bind, Except.bind, pure, Except.pure, reg_code hw.1.1, reg_code hw.1.2, reg_code hw.2, BitVec.ofNat_toNat, BitVec.setWidth_eq]
  rw [decodeWord, s]; rfl

theorem Roundtrip.vfadd (gd : Guard) (rd : Reg) (ra : Reg) (rb : Reg) (l : LaneF) : Roundtrip.Statement (.vfadd gd rd ra rb l) := by
  intro w hw h
  have hw : (rd.plain && ra.plain && rb.plain) = true := hw
  simp only [Bool.and_eq_true] at hw
  obtain ⟨b21_5, f, r⟩ := word_reads 0x64000000 gd [(rd.code, 17, 4), (ra.code, 13, 4), (rb.code, 9, 4), (l.code, 0, 2)] [(17, 4), (13, 4), (9, 4), (0, 2)] h rfl rfl (by decide) ⟨rd.code_lt, ra.code_lt, rb.code_lt, l.code_lt, trivial⟩
  obtain ⟨b17_4, b13_4, b9_4, b0_2, -⟩ := f
  have m := r 26 6 (x := 25) (by decide)
  have b2_7 : bits w.toNat 2 7 = 0 := r 2 7 (by decide)
  have s : decodeForm w.toNat = .ok (.base (.vfadd gd rd ra rb l)) := by
    unfold decodeForm; rw [m]; change decVFloat w.toNat _ = _
    refine Eq.trans (b := (do let rd ← reg (bits w.toNat 17 4); let ra ← reg (bits w.toNat 13 4); let rb ← reg (bits w.toNat 9 4); pure (.base (.vfadd (BitVec.ofNat 5 (bits w.toNat 21 5)) rd ra rb l)))) (by unfold decVFloat; rw [b0_2, laneF_code, b2_7]; rfl) ?_
    simp only [b21_5, b17_4, b13_4, b9_4, bind, Except.bind, pure, Except.pure, reg_code hw.1.1, reg_code hw.1.2, reg_code hw.2, BitVec.ofNat_toNat, BitVec.setWidth_eq]
  rw [decodeWord, s]; rfl

theorem Roundtrip.vfmul (gd : Guard) (rd : Reg) (ra : Reg) (rb : Reg) (l : LaneF) : Roundtrip.Statement (.vfmul gd rd ra rb l) := by
  intro w hw h
  have hw : (rd.plain && ra.plain && rb.plain) = true := hw
  simp only [Bool.and_eq_true] at hw
  obtain ⟨b21_5, f, r⟩ := word_reads 0x64000004 gd [(rd.code, 17, 4), (ra.code, 13, 4), (rb.code, 9, 4), (l.code, 0, 2)] [(17, 4), (13, 4), (9, 4), (0, 2)] h rfl rfl (by decide) ⟨rd.code_lt, ra.code_lt, rb.code_lt, l.code_lt, trivial⟩
  obtain ⟨b17_4, b13_4, b9_4, b0_2, -⟩ := f
  have m := r 26 6 (x := 25) (by decide)
  have b2_7 : bits w.toNat 2 7 = 1 := r 2 7 (by decide)
  have s : decodeForm w.toNat = .ok (.base (.vfmul gd rd ra rb l)) := by
    unfold decodeForm; rw [m]; change decVFloat w.toNat _ = _
    refine Eq.trans (b := (do let rd ← reg (bits w.toNat 17 4); let ra ← reg (bits w.toNat 13 4); let rb ← reg (bits w.toNat 9 4); pure (.base (.vfmul (BitVec.ofNat 5 (bits w.toNat 21 5)) rd ra rb l)))) (by unfold decVFloat; rw [b0_2, laneF_code, b2_7]; rfl) ?_
    simp only [b21_5, b17_4, b13_4, b9_4, bind, Except.bind, pure, Except.pure, reg_code hw.1.1, reg_code hw.1.2, reg_code hw.2, BitVec.ofNat_toNat, BitVec.setWidth_eq]
  rw [decodeWord, s]; rfl

theorem Roundtrip.vfma (gd : Guard) (rd : Reg) (ra : Reg) (rb : Reg) (l : LaneF) : Roundtrip.Statement (.vfma gd rd ra rb l) := by
  intro w hw h
  have hw : (rd.plain && ra.plain && rb.plain) = true := hw
  simp only [Bool.and_eq_true] at hw
  obtain ⟨b21_5, f, r⟩ := word_reads 0x64000008 gd [(rd.code, 17, 4), (ra.code, 13, 4), (rb.code, 9, 4), (l.code, 0, 2)] [(17, 4), (13, 4), (9, 4), (0, 2)] h rfl rfl (by decide) ⟨rd.code_lt, ra.code_lt, rb.code_lt, l.code_lt, trivial⟩
  obtain ⟨b17_4, b13_4, b9_4, b0_2, -⟩ := f
  have m := r 26 6 (x := 25) (by decide)
  have b2_7 : bits w.toNat 2 7 = 2 := r 2 7 (by decide)
  have s : decodeForm w.toNat = .ok (.base (.vfma gd rd ra rb l)) := by
    unfold decodeForm; rw [m]; change decVFloat w.toNat _ = _
    refine Eq.trans (b := (do let rd ← reg (bits w.toNat 17 4); let ra ← reg (bits w.toNat 13 4); let rb ← reg (bits w.toNat 9 4); pure (.base (.vfma (BitVec.ofNat 5 (bits w.toNat 21 5)) rd ra rb l)))) (by unfold decVFloat; rw [b0_2, laneF_code, b2_7]; rfl) ?_
    simp only [b21_5, b17_4, b13_4, b9_4, bind, Except.bind, pure, Except.pure, reg_code hw.1.1, reg_code hw.1.2, reg_code hw.2, BitVec.ofNat_toNat, BitVec.setWidth_eq]
  rw [decodeWord, s]; rfl

theorem Roundtrip.vfmin (gd : Guard) (rd : Reg) (ra : Reg) (rb : Reg) (l : LaneF) : Roundtrip.Statement (.vfmin gd rd ra rb l) := by
  intro w hw h
  have hw : (rd.plain && ra.plain && rb.plain) = true := hw
  simp only [Bool.and_eq_true] at hw
  obtain ⟨b21_5, f, r⟩ := word_reads 0x6400000C gd [(rd.code, 17, 4), (ra.code, 13, 4), (rb.code, 9, 4), (l.code, 0, 2)] [(17, 4), (13, 4), (9, 4), (0, 2)] h rfl rfl (by decide) ⟨rd.code_lt, ra.code_lt, rb.code_lt, l.code_lt, trivial⟩
  obtain ⟨b17_4, b13_4, b9_4, b0_2, -⟩ := f
  have m := r 26 6 (x := 25) (by decide)
  have b2_7 : bits w.toNat 2 7 = 3 := r 2 7 (by decide)
  have s : decodeForm w.toNat = .ok (.base (.vfmin gd rd ra rb l)) := by
    unfold decodeForm; rw [m]; change decVFloat w.toNat _ = _
    refine Eq.trans (b := (do let rd ← reg (bits w.toNat 17 4); let ra ← reg (bits w.toNat 13 4); let rb ← reg (bits w.toNat 9 4); pure (.base (.vfmin (BitVec.ofNat 5 (bits w.toNat 21 5)) rd ra rb l)))) (by unfold decVFloat; rw [b0_2, laneF_code, b2_7]; rfl) ?_
    simp only [b21_5, b17_4, b13_4, b9_4, bind, Except.bind, pure, Except.pure, reg_code hw.1.1, reg_code hw.1.2, reg_code hw.2, BitVec.ofNat_toNat, BitVec.setWidth_eq]
  rw [decodeWord, s]; rfl

theorem Roundtrip.vfmax (gd : Guard) (rd : Reg) (ra : Reg) (rb : Reg) (l : LaneF) : Roundtrip.Statement (.vfmax gd rd ra rb l) := by
  intro w hw h
  have hw : (rd.plain && ra.plain && rb.plain) = true := hw
  simp only [Bool.and_eq_true] at hw
  obtain ⟨b21_5, f, r⟩ := word_reads 0x64000010 gd [(rd.code, 17, 4), (ra.code, 13, 4), (rb.code, 9, 4), (l.code, 0, 2)] [(17, 4), (13, 4), (9, 4), (0, 2)] h rfl rfl (by decide) ⟨rd.code_lt, ra.code_lt, rb.code_lt, l.code_lt, trivial⟩
  obtain ⟨b17_4, b13_4, b9_4, b0_2, -⟩ := f
  have m := r 26 6 (x := 25) (by decide)
  have b2_7 : bits w.toNat 2 7 = 4 := r 2 7 (by decide)
  have s : decodeForm w.toNat = .ok (.base (.vfmax gd rd ra rb l)) := by
    unfold decodeForm; rw [m]; change decVFloat w.toNat _ = _
    refine Eq.trans (b := (do let rd ← reg (bits w.toNat 17 4); let ra ← reg (bits w.toNat 13 4); let rb ← reg (bits w.toNat 9 4); pure (.base (.vfmax (BitVec.ofNat 5 (bits w.toNat 21 5)) rd ra rb l)))) (by unfold decVFloat; rw [b0_2, laneF_code, b2_7]; rfl) ?_
    simp only [b21_5, b17_4, b13_4, b9_4, bind, Except.bind, pure, Except.pure, reg_code hw.1.1, reg_code hw.1.2, reg_code hw.2, BitVec.ofNat_toNat, BitVec.setWidth_eq]
  rw [decodeWord, s]; rfl

theorem Roundtrip.vfcmpEq (gd : Guard) (rd : Reg) (ra : Reg) (rb : Reg) (l : LaneF) : Roundtrip.Statement (.vfcmpEq gd rd ra rb l) := by
  intro w hw h
  have hw : (rd.plain && ra.plain && rb.plain) = true := hw
  simp only [Bool.and_eq_true] at hw
  obtain ⟨b21_5, f, r⟩ := word_reads 0x64000020 gd [(rd.code, 17, 4), (ra.code, 13, 4), (rb.code, 9, 4), (l.code, 0, 2)] [(17, 4), (13, 4), (9, 4), (0, 2)] h rfl rfl (by decide) ⟨rd.code_lt, ra.code_lt, rb.code_lt, l.code_lt, trivial⟩
  obtain ⟨b17_4, b13_4, b9_4, b0_2, -⟩ := f
  have m := r 26 6 (x := 25) (by decide)
  have b2_7 : bits w.toNat 2 7 = 8 := r 2 7 (by decide)
  have s : decodeForm w.toNat = .ok (.base (.vfcmpEq gd rd ra rb l)) := by
    unfold decodeForm; rw [m]; change decVFloat w.toNat _ = _
    refine Eq.trans (b := (do let rd ← reg (bits w.toNat 17 4); let ra ← reg (bits w.toNat 13 4); let rb ← reg (bits w.toNat 9 4); pure (.base (.vfcmpEq (BitVec.ofNat 5 (bits w.toNat 21 5)) rd ra rb l)))) (by unfold decVFloat; rw [b0_2, laneF_code, b2_7]; rfl) ?_
    simp only [b21_5, b17_4, b13_4, b9_4, bind, Except.bind, pure, Except.pure, reg_code hw.1.1, reg_code hw.1.2, reg_code hw.2, BitVec.ofNat_toNat, BitVec.setWidth_eq]
  rw [decodeWord, s]; rfl

theorem Roundtrip.vfcmpLt (gd : Guard) (rd : Reg) (ra : Reg) (rb : Reg) (l : LaneF) : Roundtrip.Statement (.vfcmpLt gd rd ra rb l) := by
  intro w hw h
  have hw : (rd.plain && ra.plain && rb.plain) = true := hw
  simp only [Bool.and_eq_true] at hw
  obtain ⟨b21_5, f, r⟩ := word_reads 0x64000024 gd [(rd.code, 17, 4), (ra.code, 13, 4), (rb.code, 9, 4), (l.code, 0, 2)] [(17, 4), (13, 4), (9, 4), (0, 2)] h rfl rfl (by decide) ⟨rd.code_lt, ra.code_lt, rb.code_lt, l.code_lt, trivial⟩
  obtain ⟨b17_4, b13_4, b9_4, b0_2, -⟩ := f
  have m := r 26 6 (x := 25) (by decide)
  have b2_7 : bits w.toNat 2 7 = 9 := r 2 7 (by decide)
  have s : decodeForm w.toNat = .ok (.base (.vfcmpLt gd rd ra rb l)) := by
    unfold decodeForm; rw [m]; change decVFloat w.toNat _ = _
    refine Eq.trans (b := (do let rd ← reg (bits w.toNat 17 4); let ra ← reg (bits w.toNat 13 4); let rb ← reg (bits w.toNat 9 4); pure (.base (.vfcmpLt (BitVec.ofNat 5 (bits w.toNat 21 5)) rd ra rb l)))) (by unfold decVFloat; rw [b0_2, laneF_code, b2_7]; rfl) ?_
    simp only [b21_5, b17_4, b13_4, b9_4, bind, Except.bind, pure, Except.pure, reg_code hw.1.1, reg_code hw.1.2, reg_code hw.2, BitVec.ofNat_toNat, BitVec.setWidth_eq]
  rw [decodeWord, s]; rfl

theorem Roundtrip.vfcmpLe (gd : Guard) (rd : Reg) (ra : Reg) (rb : Reg) (l : LaneF) : Roundtrip.Statement (.vfcmpLe gd rd ra rb l) := by
  intro w hw h
  have hw : (rd.plain && ra.plain && rb.plain) = true := hw
  simp only [Bool.and_eq_true] at hw
  obtain ⟨b21_5, f, r⟩ := word_reads 0x64000028 gd [(rd.code, 17, 4), (ra.code, 13, 4), (rb.code, 9, 4), (l.code, 0, 2)] [(17, 4), (13, 4), (9, 4), (0, 2)] h rfl rfl (by decide) ⟨rd.code_lt, ra.code_lt, rb.code_lt, l.code_lt, trivial⟩
  obtain ⟨b17_4, b13_4, b9_4, b0_2, -⟩ := f
  have m := r 26 6 (x := 25) (by decide)
  have b2_7 : bits w.toNat 2 7 = 10 := r 2 7 (by decide)
  have s : decodeForm w.toNat = .ok (.base (.vfcmpLe gd rd ra rb l)) := by
    unfold decodeForm; rw [m]; change decVFloat w.toNat _ = _
    refine Eq.trans (b := (do let rd ← reg (bits w.toNat 17 4); let ra ← reg (bits w.toNat 13 4); let rb ← reg (bits w.toNat 9 4); pure (.base (.vfcmpLe (BitVec.ofNat 5 (bits w.toNat 21 5)) rd ra rb l)))) (by unfold decVFloat; rw [b0_2, laneF_code, b2_7]; rfl) ?_
    simp only [b21_5, b17_4, b13_4, b9_4, bind, Except.bind, pure, Except.pure, reg_code hw.1.1, reg_code hw.1.2, reg_code hw.2, BitVec.ofNat_toNat, BitVec.setWidth_eq]
  rw [decodeWord, s]; rfl

theorem Roundtrip.vfcmpUn (gd : Guard) (rd : Reg) (ra : Reg) (rb : Reg) (l : LaneF) : Roundtrip.Statement (.vfcmpUn gd rd ra rb l) := by
  intro w hw h
  have hw : (rd.plain && ra.plain && rb.plain) = true := hw
  simp only [Bool.and_eq_true] at hw
  obtain ⟨b21_5, f, r⟩ := word_reads 0x6400002C gd [(rd.code, 17, 4), (ra.code, 13, 4), (rb.code, 9, 4), (l.code, 0, 2)] [(17, 4), (13, 4), (9, 4), (0, 2)] h rfl rfl (by decide) ⟨rd.code_lt, ra.code_lt, rb.code_lt, l.code_lt, trivial⟩
  obtain ⟨b17_4, b13_4, b9_4, b0_2, -⟩ := f
  have m := r 26 6 (x := 25) (by decide)
  have b2_7 : bits w.toNat 2 7 = 11 := r 2 7 (by decide)
  have s : decodeForm w.toNat = .ok (.base (.vfcmpUn gd rd ra rb l)) := by
    unfold decodeForm; rw [m]; change decVFloat w.toNat _ = _
    refine Eq.trans (b := (do let rd ← reg (bits w.toNat 17 4); let ra ← reg (bits w.toNat 13 4); let rb ← reg (bits w.toNat 9 4); pure (.base (.vfcmpUn (BitVec.ofNat 5 (bits w.toNat 21 5)) rd ra rb l)))) (by unfold decVFloat; rw [b0_2, laneF_code, b2_7]; rfl) ?_
    simp only [b21_5, b17_4, b13_4, b9_4, bind, Except.bind, pure, Except.pure, reg_code hw.1.1, reg_code hw.1.2, reg_code hw.2, BitVec.ofNat_toNat, BitVec.setWidth_eq]
  rw [decodeWord, s]; rfl

theorem Roundtrip.vshuf (gd : Guard) (rd : Reg) (ra : Reg) (rb : Reg) (l : LaneI) : Roundtrip.Statement (.vshuf gd rd ra rb l) := by
  intro w hw h
  have hw : (rd.plain && ra.plain && rb.plain) = true := hw
  simp only [Bool.and_eq_true] at hw
  obtain ⟨b21_5, f, r⟩ := word_reads 0x68000000 gd [(rd.code, 17, 4), (ra.code, 13, 4), (rb.code, 9, 4), (l.code, 0, 2)] [(17, 4), (13, 4), (9, 4), (0, 2)] h rfl rfl (by decide) ⟨rd.code_lt, ra.code_lt, rb.code_lt, l.code_lt, trivial⟩
  obtain ⟨b17_4, b13_4, b9_4, b0_2, -⟩ := f
  have m := r 26 6 (x := 26) (by decide)
  have b2_7 : bits w.toNat 2 7 = 0 := r 2 7 (by decide)
  have s : decodeForm w.toNat = .ok (.base (.vshuf gd rd ra rb l)) := by
    unfold decodeForm; rw [m]; change decPerm w.toNat _ = _
    refine Eq.trans (b := (do let rd ← reg (bits w.toNat 17 4); let ra ← reg (bits w.toNat 13 4); let rb ← reg (bits w.toNat 9 4); pure (.base (.vshuf (BitVec.ofNat 5 (bits w.toNat 21 5)) rd ra rb l)))) (by unfold decPerm; rw [b0_2, laneI_code, b2_7]; rfl) ?_
    simp only [b21_5, b17_4, b13_4, b9_4, bind, Except.bind, pure, Except.pure, reg_code hw.1.1, reg_code hw.1.2, reg_code hw.2, BitVec.ofNat_toNat, BitVec.setWidth_eq]
  rw [decodeWord, s]; rfl

theorem Roundtrip.vbcast (gd : Guard) (rd : Reg) (ra : Reg) (rb : Reg) (l : LaneI) : Roundtrip.Statement (.vbcast gd rd ra rb l) := by
  intro w hw h
  have hw : (rd.plain && ra.plain && rb.plain) = true := hw
  simp only [Bool.and_eq_true] at hw
  obtain ⟨b21_5, f, r⟩ := word_reads 0x68000004 gd [(rd.code, 17, 4), (ra.code, 13, 4), (rb.code, 9, 4), (l.code, 0, 2)] [(17, 4), (13, 4), (9, 4), (0, 2)] h rfl rfl (by decide) ⟨rd.code_lt, ra.code_lt, rb.code_lt, l.code_lt, trivial⟩
  obtain ⟨b17_4, b13_4, b9_4, b0_2, -⟩ := f
  have m := r 26 6 (x := 26) (by decide)
  have b2_7 : bits w.toNat 2 7 = 1 := r 2 7 (by decide)
  have s : decodeForm w.toNat = .ok (.base (.vbcast gd rd ra rb l)) := by
    unfold decodeForm; rw [m]; change decPerm w.toNat _ = _
    refine Eq.trans (b := (do let rd ← reg (bits w.toNat 17 4); let ra ← reg (bits w.toNat 13 4); let rb ← reg (bits w.toNat 9 4); pure (.base (.vbcast (BitVec.ofNat 5 (bits w.toNat 21 5)) rd ra rb l)))) (by unfold decPerm; rw [b0_2, laneI_code, b2_7]; rfl) ?_
    simp only [b21_5, b17_4, b13_4, b9_4, bind, Except.bind, pure, Except.pure, reg_code hw.1.1, reg_code hw.1.2, reg_code hw.2, BitVec.ofNat_toNat, BitVec.setWidth_eq]
  rw [decodeWord, s]; rfl

theorem Roundtrip.vrev (gd : Guard) (rd : Reg) (ra : Reg) (l : LaneI) : Roundtrip.Statement (.vrev gd rd ra l) := by
  intro w hw h
  have hw : (rd.plain && ra.plain) = true := hw
  simp only [Bool.and_eq_true] at hw
  obtain ⟨b21_5, f, r⟩ := word_reads 0x68000008 gd [(rd.code, 17, 4), (ra.code, 13, 4), (l.code, 0, 2)] [(17, 4), (13, 4), (0, 2)] h rfl rfl (by decide) ⟨rd.code_lt, ra.code_lt, l.code_lt, trivial⟩
  obtain ⟨b17_4, b13_4, b0_2, -⟩ := f
  have m := r 26 6 (x := 26) (by decide)
  have b2_7 : bits w.toNat 2 7 = 2 := r 2 7 (by decide)
  have b9_4 : bits w.toNat 9 4 = 0 := r 9 4 (by decide)
  have s : decodeForm w.toNat = .ok (.base (.vrev gd rd ra l)) := by
    unfold decodeForm; rw [m]; change decPerm w.toNat _ = _
    refine Eq.trans (b := zero (bits w.toNat 9 4) (do let rd ← reg (bits w.toNat 17 4); let ra ← reg (bits w.toNat 13 4); pure (.base (.vrev (BitVec.ofNat 5 (bits w.toNat 21 5)) rd ra l)))) (by unfold decPerm; rw [b0_2, laneI_code, b2_7]; rfl) ?_
    simp only [b21_5, b9_4, b17_4, b13_4, zero, bind, Except.bind, pure, Except.pure, reg_code hw.1, reg_code hw.2, BitVec.ofNat_toNat, BitVec.setWidth_eq, ↓reduceIte]
  rw [decodeWord, s]; rfl

theorem Roundtrip.vpack (gd : Guard) (rd : Reg) (ra : Reg) (rb : Reg) (l : LaneI) : Roundtrip.Statement (.vpack gd rd ra rb l) := by
  intro w hw h
  have hw : (rd.plain && ra.plain && rb.plain) = true := hw
  simp only [Bool.and_eq_true] at hw
  obtain ⟨b21_5, f, r⟩ := word_reads 0x6800000C gd [(rd.code, 17, 4), (ra.code, 13, 4), (rb.code, 9, 4), (l.code, 0, 2)] [(17, 4), (13, 4), (9, 4), (0, 2)] h rfl rfl (by decide) ⟨rd.code_lt, ra.code_lt, rb.code_lt, l.code_lt, trivial⟩
  obtain ⟨b17_4, b13_4, b9_4, b0_2, -⟩ := f
  have m := r 26 6 (x := 26) (by decide)
  have b2_7 : bits w.toNat 2 7 = 3 := r 2 7 (by decide)
  have s : decodeForm w.toNat = .ok (.base (.vpack gd rd ra rb l)) := by
    unfold decodeForm; rw [m]; change decPerm w.toNat _ = _
    refine Eq.trans (b := (do let rd ← reg (bits w.toNat 17 4); let ra ← reg (bits w.toNat 13 4); let rb ← reg (bits w.toNat 9 4); pure (.base (.vpack (BitVec.ofNat 5 (bits w.toNat 21 5)) rd ra rb l)))) (by unfold decPerm; rw [b0_2, laneI_code, b2_7]; rfl) ?_
    simp only [b21_5, b17_4, b13_4, b9_4, bind, Except.bind, pure, Except.pure, reg_code hw.1.1, reg_code hw.1.2, reg_code hw.2, BitVec.ofNat_toNat, BitVec.setWidth_eq]
  rw [decodeWord, s]; rfl

theorem Roundtrip.vunpk (gd : Guard) (rd : Reg) (ra : Reg) (l : LaneI) : Roundtrip.Statement (.vunpk gd rd ra l) := by
  intro w hw h
  have hw : (rd.plain && ra.plain) = true := hw
  simp only [Bool.and_eq_true] at hw
  obtain ⟨b21_5, f, r⟩ := word_reads 0x68000010 gd [(rd.code, 17, 4), (ra.code, 13, 4), (l.code, 0, 2)] [(17, 4), (13, 4), (0, 2)] h rfl rfl (by decide) ⟨rd.code_lt, ra.code_lt, l.code_lt, trivial⟩
  obtain ⟨b17_4, b13_4, b0_2, -⟩ := f
  have m := r 26 6 (x := 26) (by decide)
  have b2_7 : bits w.toNat 2 7 = 4 := r 2 7 (by decide)
  have b9_4 : bits w.toNat 9 4 = 0 := r 9 4 (by decide)
  have s : decodeForm w.toNat = .ok (.base (.vunpk gd rd ra l)) := by
    unfold decodeForm; rw [m]; change decPerm w.toNat _ = _
    refine Eq.trans (b := zero (bits w.toNat 9 4) (do let rd ← reg (bits w.toNat 17 4); let ra ← reg (bits w.toNat 13 4); pure (.base (.vunpk (BitVec.ofNat 5 (bits w.toNat 21 5)) rd ra l)))) (by unfold decPerm; rw [b0_2, laneI_code, b2_7]; rfl) ?_
    simp only [b21_5, b9_4, b17_4, b13_4, zero, bind, Except.bind, pure, Except.pure, reg_code hw.1, reg_code hw.2, BitVec.ofNat_toNat, BitVec.setWidth_eq, ↓reduceIte]
  rw [decodeWord, s]; rfl

theorem Roundtrip.vcvt (gd : Guard) (rd : Reg) (ra : Reg) (x : Fmt) (y : Fmt) : Roundtrip.Statement (.vcvt gd rd ra x y) := by
  intro w hw h
  have hw : (rd.plain && ra.plain && vcvtOk x y) = true := hw
  simp only [Bool.and_eq_true] at hw
  obtain ⟨b21_5, f, r⟩ := word_reads 0x6C000000 gd [(rd.code, 17, 4), (ra.code, 13, 4), (x.code, 3, 3), (y.code, 0, 3)] [(17, 4), (13, 4), (3, 3), (0, 3)] h rfl rfl (by decide) ⟨rd.code_lt, ra.code_lt, x.code_lt, y.code_lt, trivial⟩
  obtain ⟨b17_4, b13_4, b3_3, b0_3, -⟩ := f
  have m := r 26 6 (x := 27) (by decide)
  have b6_3 : bits w.toNat 6 3 = 0 := r 6 3 (by decide)
  have b9_4 : bits w.toNat 9 4 = 0 := r 9 4 (by decide)
  have s : decodeForm w.toNat = .ok (.base (.vcvt gd rd ra x y)) := by
    unfold decodeForm; rw [m]; change decConv w.toNat _ = _
    refine Eq.trans (b := if vcvtOk x y then zero (bits w.toNat 9 4) (do let rd ← reg (bits w.toNat 17 4); let ra ← reg (bits w.toNat 13 4); pure (.base (.vcvt (BitVec.ofNat 5 (bits w.toNat 21 5)) rd ra x y))) else .error .minor) (by unfold decConv; rw [b6_3, b3_3, fmt_code, b0_3, fmt_code]; rfl) ?_
    simp only [b21_5, b9_4, b17_4, b13_4, zero, bind, Except.bind, pure, Except.pure, reg_code hw.1.1, reg_code hw.1.2, BitVec.ofNat_toNat, BitVec.setWidth_eq, hw.2, ↓reduceIte]
  rw [decodeWord, s]; rfl

theorem Roundtrip.vf4blk (gd : Guard) (rd : Reg) (ra : Reg) (rb : Reg) (y : Fmt) : Roundtrip.Statement (.vf4blk gd rd ra rb y) := by
  intro w hw h
  have hw : (rd.plain && ra.plain && rb.plain && decide (y = .hf ∨ y = .bh)) = true := hw
  simp only [Bool.and_eq_true] at hw
  obtain ⟨b21_5, f, r⟩ := word_reads 0x6C000070 gd [(rd.code, 17, 4), (ra.code, 13, 4), (rb.code, 9, 4), (y.code, 0, 3)] [(17, 4), (13, 4), (9, 4), (0, 3)] h rfl rfl (by decide) ⟨rd.code_lt, ra.code_lt, rb.code_lt, y.code_lt, trivial⟩
  obtain ⟨b17_4, b13_4, b9_4, b0_3, -⟩ := f
  have m := r 26 6 (x := 27) (by decide)
  have b6_3 : bits w.toNat 6 3 = 1 := r 6 3 (by decide)
  have b3_3 : bits w.toNat 3 3 = 6 := r 3 3 (by decide)
  have x1 := of_decide_eq_true hw.2
  have s : decodeForm w.toNat = .ok (.base (.vf4blk gd rd ra rb y)) := by
    unfold decodeForm; rw [m]; change decConv w.toNat _ = _
    refine Eq.trans (b := if y = .hf ∨ y = .bh then (do let rd ← reg (bits w.toNat 17 4); let ra ← reg (bits w.toNat 13 4); let rb ← reg (bits w.toNat 9 4); pure (.base (.vf4blk (BitVec.ofNat 5 (bits w.toNat 21 5)) rd ra rb y))) else .error .minor) (by unfold decConv; rw [b6_3, b3_3, show fmt 6 = some Fmt.n4 from rfl, b0_3, fmt_code]; rfl) ?_
    simp only [b21_5, b17_4, b13_4, b9_4, bind, Except.bind, pure, Except.pure, reg_code hw.1.1.1, reg_code hw.1.1.2, reg_code hw.1.2, BitVec.ofNat_toNat, BitVec.setWidth_eq, x1, ↓reduceIte]
  rw [decodeWord, s]; rfl

theorem Roundtrip.vsum (gd : Guard) (rd : Reg) (ra : Reg) (y : Fmt) : Roundtrip.Statement (.vsum gd rd ra y) := by
  intro w hw h
  have hw : (rd.plain && ra.plain) = true := hw
  simp only [Bool.and_eq_true] at hw
  obtain ⟨b21_5, f, r⟩ := word_reads 0x6C000080 gd [(rd.code, 17, 4), (ra.code, 13, 4), (y.code, 0, 3)] [(17, 4), (13, 4), (0, 3)] h rfl rfl (by decide) ⟨rd.code_lt, ra.code_lt, y.code_lt, trivial⟩
  obtain ⟨b17_4, b13_4, b0_3, -⟩ := f
  have m := r 26 6 (x := 27) (by decide)
  have b6_3 : bits w.toNat 6 3 = 2 := r 6 3 (by decide)
  have b3_3 : bits w.toNat 3 3 = 0 := r 3 3 (by decide)
  have b9_4 : bits w.toNat 9 4 = 0 := r 9 4 (by decide)
  have s : decodeForm w.toNat = .ok (.base (.vsum gd rd ra y)) := by
    unfold decodeForm; rw [m]; change decConv w.toNat _ = _
    refine Eq.trans (b := zero (bits w.toNat 9 4) (do let rd ← reg (bits w.toNat 17 4); let ra ← reg (bits w.toNat 13 4); pure (.base (.vsum (BitVec.ofNat 5 (bits w.toNat 21 5)) rd ra y)))) (by unfold decConv; rw [b6_3, b3_3, show fmt 0 = some Fmt.b from rfl, b0_3, fmt_code]; rfl) ?_
    simp only [b21_5, b9_4, b17_4, b13_4, zero, bind, Except.bind, pure, Except.pure, reg_code hw.1, reg_code hw.2, BitVec.ofNat_toNat, BitVec.setWidth_eq, ↓reduceIte]
  rw [decodeWord, s]; rfl

theorem Roundtrip.fdiv (gd : Guard) (rd : Reg) (ra : Reg) (rb : Reg) : Roundtrip.Statement (.fdiv gd rd ra rb) := by
  intro w hw h
  have hw : (rd.plain && ra.plain && rb.plain) = true := hw
  simp only [Bool.and_eq_true] at hw
  obtain ⟨b21_5, f, r⟩ := word_reads 0x70000000 gd [(rd.code, 17, 4), (ra.code, 13, 4), (rb.code, 9, 4)] [(17, 4), (13, 4), (9, 4)] h rfl rfl (by decide) ⟨rd.code_lt, ra.code_lt, rb.code_lt, trivial⟩
  obtain ⟨b17_4, b13_4, b9_4, -⟩ := f
  have m := r 26 6 (x := 28) (by decide)
  have b0_9 : bits w.toNat 0 9 = 0 := r 0 9 (by decide)
  have s : decodeForm w.toNat = .ok (.base (.fdiv gd rd ra rb)) := by
    unfold decodeForm; rw [m]; change decSfu w.toNat _ = _
    refine Eq.trans (b := (do let rd ← reg (bits w.toNat 17 4); let ra ← reg (bits w.toNat 13 4); let rb ← reg (bits w.toNat 9 4); pure (.base (.fdiv (BitVec.ofNat 5 (bits w.toNat 21 5)) rd ra rb)))) (by unfold decSfu; rw [b0_9]; rfl) ?_
    simp only [b21_5, b17_4, b13_4, b9_4, bind, Except.bind, pure, Except.pure, reg_code hw.1.1, reg_code hw.1.2, reg_code hw.2, BitVec.ofNat_toNat, BitVec.setWidth_eq]
  rw [decodeWord, s]; rfl

theorem Roundtrip.fsqrt (gd : Guard) (rd : Reg) (ra : Reg) : Roundtrip.Statement (.fsqrt gd rd ra) := by
  intro w hw h
  have hw : (rd.plain && ra.plain) = true := hw
  simp only [Bool.and_eq_true] at hw
  obtain ⟨b21_5, f, r⟩ := word_reads 0x70000001 gd [(rd.code, 17, 4), (ra.code, 13, 4)] [(17, 4), (13, 4)] h rfl rfl (by decide) ⟨rd.code_lt, ra.code_lt, trivial⟩
  obtain ⟨b17_4, b13_4, -⟩ := f
  have m := r 26 6 (x := 28) (by decide)
  have b0_9 : bits w.toNat 0 9 = 1 := r 0 9 (by decide)
  have b9_4 : bits w.toNat 9 4 = 0 := r 9 4 (by decide)
  have s : decodeForm w.toNat = .ok (.base (.fsqrt gd rd ra)) := by
    unfold decodeForm; rw [m]; change decSfu w.toNat _ = _
    refine Eq.trans (b := zero (bits w.toNat 9 4) (do let rd ← reg (bits w.toNat 17 4); let ra ← reg (bits w.toNat 13 4); pure (.base (.fsqrt (BitVec.ofNat 5 (bits w.toNat 21 5)) rd ra)))) (by unfold decSfu; rw [b0_9]; rfl) ?_
    simp only [b21_5, b9_4, b17_4, b13_4, zero, bind, Except.bind, pure, Except.pure, reg_code hw.1, reg_code hw.2, BitVec.ofNat_toNat, BitVec.setWidth_eq, ↓reduceIte]
  rw [decodeWord, s]; rfl

theorem Roundtrip.frcp (gd : Guard) (rd : Reg) (ra : Reg) : Roundtrip.Statement (.frcp gd rd ra) := by
  intro w hw h
  have hw : (rd.plain && ra.plain) = true := hw
  simp only [Bool.and_eq_true] at hw
  obtain ⟨b21_5, f, r⟩ := word_reads 0x70000002 gd [(rd.code, 17, 4), (ra.code, 13, 4)] [(17, 4), (13, 4)] h rfl rfl (by decide) ⟨rd.code_lt, ra.code_lt, trivial⟩
  obtain ⟨b17_4, b13_4, -⟩ := f
  have m := r 26 6 (x := 28) (by decide)
  have b0_9 : bits w.toNat 0 9 = 2 := r 0 9 (by decide)
  have b9_4 : bits w.toNat 9 4 = 0 := r 9 4 (by decide)
  have s : decodeForm w.toNat = .ok (.base (.frcp gd rd ra)) := by
    unfold decodeForm; rw [m]; change decSfu w.toNat _ = _
    refine Eq.trans (b := zero (bits w.toNat 9 4) (do let rd ← reg (bits w.toNat 17 4); let ra ← reg (bits w.toNat 13 4); pure (.base (.frcp (BitVec.ofNat 5 (bits w.toNat 21 5)) rd ra)))) (by unfold decSfu; rw [b0_9]; rfl) ?_
    simp only [b21_5, b9_4, b17_4, b13_4, zero, bind, Except.bind, pure, Except.pure, reg_code hw.1, reg_code hw.2, BitVec.ofNat_toNat, BitVec.setWidth_eq, ↓reduceIte]
  rw [decodeWord, s]; rfl

theorem Roundtrip.frsq (gd : Guard) (rd : Reg) (ra : Reg) : Roundtrip.Statement (.frsq gd rd ra) := by
  intro w hw h
  have hw : (rd.plain && ra.plain) = true := hw
  simp only [Bool.and_eq_true] at hw
  obtain ⟨b21_5, f, r⟩ := word_reads 0x70000003 gd [(rd.code, 17, 4), (ra.code, 13, 4)] [(17, 4), (13, 4)] h rfl rfl (by decide) ⟨rd.code_lt, ra.code_lt, trivial⟩
  obtain ⟨b17_4, b13_4, -⟩ := f
  have m := r 26 6 (x := 28) (by decide)
  have b0_9 : bits w.toNat 0 9 = 3 := r 0 9 (by decide)
  have b9_4 : bits w.toNat 9 4 = 0 := r 9 4 (by decide)
  have s : decodeForm w.toNat = .ok (.base (.frsq gd rd ra)) := by
    unfold decodeForm; rw [m]; change decSfu w.toNat _ = _
    refine Eq.trans (b := zero (bits w.toNat 9 4) (do let rd ← reg (bits w.toNat 17 4); let ra ← reg (bits w.toNat 13 4); pure (.base (.frsq (BitVec.ofNat 5 (bits w.toNat 21 5)) rd ra)))) (by unfold decSfu; rw [b0_9]; rfl) ?_
    simp only [b21_5, b9_4, b17_4, b13_4, zero, bind, Except.bind, pure, Except.pure, reg_code hw.1, reg_code hw.2, BitVec.ofNat_toNat, BitVec.setWidth_eq, ↓reduceIte]
  rw [decodeWord, s]; rfl

theorem Roundtrip.fexp2 (gd : Guard) (rd : Reg) (ra : Reg) : Roundtrip.Statement (.fexp2 gd rd ra) := by
  intro w hw h
  have hw : (rd.plain && ra.plain) = true := hw
  simp only [Bool.and_eq_true] at hw
  obtain ⟨b21_5, f, r⟩ := word_reads 0x70000004 gd [(rd.code, 17, 4), (ra.code, 13, 4)] [(17, 4), (13, 4)] h rfl rfl (by decide) ⟨rd.code_lt, ra.code_lt, trivial⟩
  obtain ⟨b17_4, b13_4, -⟩ := f
  have m := r 26 6 (x := 28) (by decide)
  have b0_9 : bits w.toNat 0 9 = 4 := r 0 9 (by decide)
  have b9_4 : bits w.toNat 9 4 = 0 := r 9 4 (by decide)
  have s : decodeForm w.toNat = .ok (.base (.fexp2 gd rd ra)) := by
    unfold decodeForm; rw [m]; change decSfu w.toNat _ = _
    refine Eq.trans (b := zero (bits w.toNat 9 4) (do let rd ← reg (bits w.toNat 17 4); let ra ← reg (bits w.toNat 13 4); pure (.base (.fexp2 (BitVec.ofNat 5 (bits w.toNat 21 5)) rd ra)))) (by unfold decSfu; rw [b0_9]; rfl) ?_
    simp only [b21_5, b9_4, b17_4, b13_4, zero, bind, Except.bind, pure, Except.pure, reg_code hw.1, reg_code hw.2, BitVec.ofNat_toNat, BitVec.setWidth_eq, ↓reduceIte]
  rw [decodeWord, s]; rfl

theorem Roundtrip.flog2 (gd : Guard) (rd : Reg) (ra : Reg) : Roundtrip.Statement (.flog2 gd rd ra) := by
  intro w hw h
  have hw : (rd.plain && ra.plain) = true := hw
  simp only [Bool.and_eq_true] at hw
  obtain ⟨b21_5, f, r⟩ := word_reads 0x70000005 gd [(rd.code, 17, 4), (ra.code, 13, 4)] [(17, 4), (13, 4)] h rfl rfl (by decide) ⟨rd.code_lt, ra.code_lt, trivial⟩
  obtain ⟨b17_4, b13_4, -⟩ := f
  have m := r 26 6 (x := 28) (by decide)
  have b0_9 : bits w.toNat 0 9 = 5 := r 0 9 (by decide)
  have b9_4 : bits w.toNat 9 4 = 0 := r 9 4 (by decide)
  have s : decodeForm w.toNat = .ok (.base (.flog2 gd rd ra)) := by
    unfold decodeForm; rw [m]; change decSfu w.toNat _ = _
    refine Eq.trans (b := zero (bits w.toNat 9 4) (do let rd ← reg (bits w.toNat 17 4); let ra ← reg (bits w.toNat 13 4); pure (.base (.flog2 (BitVec.ofNat 5 (bits w.toNat 21 5)) rd ra)))) (by unfold decSfu; rw [b0_9]; rfl) ?_
    simp only [b21_5, b9_4, b17_4, b13_4, zero, bind, Except.bind, pure, Except.pure, reg_code hw.1, reg_code hw.2, BitVec.ofNat_toNat, BitVec.setWidth_eq, ↓reduceIte]
  rw [decodeWord, s]; rfl

theorem Roundtrip.fsin (gd : Guard) (rd : Reg) (ra : Reg) : Roundtrip.Statement (.fsin gd rd ra) := by
  intro w hw h
  have hw : (rd.plain && ra.plain) = true := hw
  simp only [Bool.and_eq_true] at hw
  obtain ⟨b21_5, f, r⟩ := word_reads 0x70000006 gd [(rd.code, 17, 4), (ra.code, 13, 4)] [(17, 4), (13, 4)] h rfl rfl (by decide) ⟨rd.code_lt, ra.code_lt, trivial⟩
  obtain ⟨b17_4, b13_4, -⟩ := f
  have m := r 26 6 (x := 28) (by decide)
  have b0_9 : bits w.toNat 0 9 = 6 := r 0 9 (by decide)
  have b9_4 : bits w.toNat 9 4 = 0 := r 9 4 (by decide)
  have s : decodeForm w.toNat = .ok (.base (.fsin gd rd ra)) := by
    unfold decodeForm; rw [m]; change decSfu w.toNat _ = _
    refine Eq.trans (b := zero (bits w.toNat 9 4) (do let rd ← reg (bits w.toNat 17 4); let ra ← reg (bits w.toNat 13 4); pure (.base (.fsin (BitVec.ofNat 5 (bits w.toNat 21 5)) rd ra)))) (by unfold decSfu; rw [b0_9]; rfl) ?_
    simp only [b21_5, b9_4, b17_4, b13_4, zero, bind, Except.bind, pure, Except.pure, reg_code hw.1, reg_code hw.2, BitVec.ofNat_toNat, BitVec.setWidth_eq, ↓reduceIte]
  rw [decodeWord, s]; rfl

theorem Roundtrip.fcos (gd : Guard) (rd : Reg) (ra : Reg) : Roundtrip.Statement (.fcos gd rd ra) := by
  intro w hw h
  have hw : (rd.plain && ra.plain) = true := hw
  simp only [Bool.and_eq_true] at hw
  obtain ⟨b21_5, f, r⟩ := word_reads 0x70000007 gd [(rd.code, 17, 4), (ra.code, 13, 4)] [(17, 4), (13, 4)] h rfl rfl (by decide) ⟨rd.code_lt, ra.code_lt, trivial⟩
  obtain ⟨b17_4, b13_4, -⟩ := f
  have m := r 26 6 (x := 28) (by decide)
  have b0_9 : bits w.toNat 0 9 = 7 := r 0 9 (by decide)
  have b9_4 : bits w.toNat 9 4 = 0 := r 9 4 (by decide)
  have s : decodeForm w.toNat = .ok (.base (.fcos gd rd ra)) := by
    unfold decodeForm; rw [m]; change decSfu w.toNat _ = _
    refine Eq.trans (b := zero (bits w.toNat 9 4) (do let rd ← reg (bits w.toNat 17 4); let ra ← reg (bits w.toNat 13 4); pure (.base (.fcos (BitVec.ofNat 5 (bits w.toNat 21 5)) rd ra)))) (by unfold decSfu; rw [b0_9]; rfl) ?_
    simp only [b21_5, b9_4, b17_4, b13_4, zero, bind, Except.bind, pure, Except.pure, reg_code hw.1, reg_code hw.2, BitVec.ofNat_toNat, BitVec.setWidth_eq, ↓reduceIte]
  rw [decodeWord, s]; rfl

theorem Roundtrip.ftanh (gd : Guard) (rd : Reg) (ra : Reg) : Roundtrip.Statement (.ftanh gd rd ra) := by
  intro w hw h
  have hw : (rd.plain && ra.plain) = true := hw
  simp only [Bool.and_eq_true] at hw
  obtain ⟨b21_5, f, r⟩ := word_reads 0x70000008 gd [(rd.code, 17, 4), (ra.code, 13, 4)] [(17, 4), (13, 4)] h rfl rfl (by decide) ⟨rd.code_lt, ra.code_lt, trivial⟩
  obtain ⟨b17_4, b13_4, -⟩ := f
  have m := r 26 6 (x := 28) (by decide)
  have b0_9 : bits w.toNat 0 9 = 8 := r 0 9 (by decide)
  have b9_4 : bits w.toNat 9 4 = 0 := r 9 4 (by decide)
  have s : decodeForm w.toNat = .ok (.base (.ftanh gd rd ra)) := by
    unfold decodeForm; rw [m]; change decSfu w.toNat _ = _
    refine Eq.trans (b := zero (bits w.toNat 9 4) (do let rd ← reg (bits w.toNat 17 4); let ra ← reg (bits w.toNat 13 4); pure (.base (.ftanh (BitVec.ofNat 5 (bits w.toNat 21 5)) rd ra)))) (by unfold decSfu; rw [b0_9]; rfl) ?_
    simp only [b21_5, b9_4, b17_4, b13_4, zero, bind, Except.bind, pure, Except.pure, reg_code hw.1, reg_code hw.2, BitVec.ofNat_toNat, BitVec.setWidth_eq, ↓reduceIte]
  rw [decodeWord, s]; rfl

theorem Roundtrip.fadd (gd : Guard) (rd : Reg) (ra : Reg) (rb : Reg) : Roundtrip.Statement (.fadd gd rd ra rb) := by
  intro w hw h
  have hw : (rd.plain && ra.plain && rb.plain) = true := hw
  simp only [Bool.and_eq_true] at hw
  obtain ⟨b21_5, f, r⟩ := word_reads 0x74000000 gd [(rd.code, 17, 4), (ra.code, 13, 4), (rb.code, 9, 4)] [(17, 4), (13, 4), (9, 4)] h rfl rfl (by decide) ⟨rd.code_lt, ra.code_lt, rb.code_lt, trivial⟩
  obtain ⟨b17_4, b13_4, b9_4, -⟩ := f
  have m := r 26 6 (x := 29) (by decide)
  have b0_9 : bits w.toNat 0 9 = 0 := r 0 9 (by decide)
  have s : decodeForm w.toNat = .ok (.base (.fadd gd rd ra rb)) := by
    unfold decodeForm; rw [m]; change decFloat w.toNat _ = _
    refine Eq.trans (b := (do let rd ← reg (bits w.toNat 17 4); let ra ← reg (bits w.toNat 13 4); let rb ← reg (bits w.toNat 9 4); pure (.base (.fadd (BitVec.ofNat 5 (bits w.toNat 21 5)) rd ra rb)))) (by unfold decFloat; rw [b0_9]; rfl) ?_
    simp only [b21_5, b17_4, b13_4, b9_4, bind, Except.bind, pure, Except.pure, reg_code hw.1.1, reg_code hw.1.2, reg_code hw.2, BitVec.ofNat_toNat, BitVec.setWidth_eq]
  rw [decodeWord, s]; rfl

theorem Roundtrip.fsub (gd : Guard) (rd : Reg) (ra : Reg) (rb : Reg) : Roundtrip.Statement (.fsub gd rd ra rb) := by
  intro w hw h
  have hw : (rd.plain && ra.plain && rb.plain) = true := hw
  simp only [Bool.and_eq_true] at hw
  obtain ⟨b21_5, f, r⟩ := word_reads 0x74000001 gd [(rd.code, 17, 4), (ra.code, 13, 4), (rb.code, 9, 4)] [(17, 4), (13, 4), (9, 4)] h rfl rfl (by decide) ⟨rd.code_lt, ra.code_lt, rb.code_lt, trivial⟩
  obtain ⟨b17_4, b13_4, b9_4, -⟩ := f
  have m := r 26 6 (x := 29) (by decide)
  have b0_9 : bits w.toNat 0 9 = 1 := r 0 9 (by decide)
  have s : decodeForm w.toNat = .ok (.base (.fsub gd rd ra rb)) := by
    unfold decodeForm; rw [m]; change decFloat w.toNat _ = _
    refine Eq.trans (b := (do let rd ← reg (bits w.toNat 17 4); let ra ← reg (bits w.toNat 13 4); let rb ← reg (bits w.toNat 9 4); pure (.base (.fsub (BitVec.ofNat 5 (bits w.toNat 21 5)) rd ra rb)))) (by unfold decFloat; rw [b0_9]; rfl) ?_
    simp only [b21_5, b17_4, b13_4, b9_4, bind, Except.bind, pure, Except.pure, reg_code hw.1.1, reg_code hw.1.2, reg_code hw.2, BitVec.ofNat_toNat, BitVec.setWidth_eq]
  rw [decodeWord, s]; rfl

theorem Roundtrip.fmul (gd : Guard) (rd : Reg) (ra : Reg) (rb : Reg) : Roundtrip.Statement (.fmul gd rd ra rb) := by
  intro w hw h
  have hw : (rd.plain && ra.plain && rb.plain) = true := hw
  simp only [Bool.and_eq_true] at hw
  obtain ⟨b21_5, f, r⟩ := word_reads 0x74000002 gd [(rd.code, 17, 4), (ra.code, 13, 4), (rb.code, 9, 4)] [(17, 4), (13, 4), (9, 4)] h rfl rfl (by decide) ⟨rd.code_lt, ra.code_lt, rb.code_lt, trivial⟩
  obtain ⟨b17_4, b13_4, b9_4, -⟩ := f
  have m := r 26 6 (x := 29) (by decide)
  have b0_9 : bits w.toNat 0 9 = 2 := r 0 9 (by decide)
  have s : decodeForm w.toNat = .ok (.base (.fmul gd rd ra rb)) := by
    unfold decodeForm; rw [m]; change decFloat w.toNat _ = _
    refine Eq.trans (b := (do let rd ← reg (bits w.toNat 17 4); let ra ← reg (bits w.toNat 13 4); let rb ← reg (bits w.toNat 9 4); pure (.base (.fmul (BitVec.ofNat 5 (bits w.toNat 21 5)) rd ra rb)))) (by unfold decFloat; rw [b0_9]; rfl) ?_
    simp only [b21_5, b17_4, b13_4, b9_4, bind, Except.bind, pure, Except.pure, reg_code hw.1.1, reg_code hw.1.2, reg_code hw.2, BitVec.ofNat_toNat, BitVec.setWidth_eq]
  rw [decodeWord, s]; rfl

theorem Roundtrip.fma (gd : Guard) (rd : Reg) (ra : Reg) (rb : Reg) : Roundtrip.Statement (.fma gd rd ra rb) := by
  intro w hw h
  have hw : (rd.plain && ra.plain && rb.plain) = true := hw
  simp only [Bool.and_eq_true] at hw
  obtain ⟨b21_5, f, r⟩ := word_reads 0x74000003 gd [(rd.code, 17, 4), (ra.code, 13, 4), (rb.code, 9, 4)] [(17, 4), (13, 4), (9, 4)] h rfl rfl (by decide) ⟨rd.code_lt, ra.code_lt, rb.code_lt, trivial⟩
  obtain ⟨b17_4, b13_4, b9_4, -⟩ := f
  have m := r 26 6 (x := 29) (by decide)
  have b0_9 : bits w.toNat 0 9 = 3 := r 0 9 (by decide)
  have s : decodeForm w.toNat = .ok (.base (.fma gd rd ra rb)) := by
    unfold decodeForm; rw [m]; change decFloat w.toNat _ = _
    refine Eq.trans (b := (do let rd ← reg (bits w.toNat 17 4); let ra ← reg (bits w.toNat 13 4); let rb ← reg (bits w.toNat 9 4); pure (.base (.fma (BitVec.ofNat 5 (bits w.toNat 21 5)) rd ra rb)))) (by unfold decFloat; rw [b0_9]; rfl) ?_
    simp only [b21_5, b17_4, b13_4, b9_4, bind, Except.bind, pure, Except.pure, reg_code hw.1.1, reg_code hw.1.2, reg_code hw.2, BitVec.ofNat_toNat, BitVec.setWidth_eq]
  rw [decodeWord, s]; rfl

theorem Roundtrip.fmin (gd : Guard) (rd : Reg) (ra : Reg) (rb : Reg) : Roundtrip.Statement (.fmin gd rd ra rb) := by
  intro w hw h
  have hw : (rd.plain && ra.plain && rb.plain) = true := hw
  simp only [Bool.and_eq_true] at hw
  obtain ⟨b21_5, f, r⟩ := word_reads 0x74000004 gd [(rd.code, 17, 4), (ra.code, 13, 4), (rb.code, 9, 4)] [(17, 4), (13, 4), (9, 4)] h rfl rfl (by decide) ⟨rd.code_lt, ra.code_lt, rb.code_lt, trivial⟩
  obtain ⟨b17_4, b13_4, b9_4, -⟩ := f
  have m := r 26 6 (x := 29) (by decide)
  have b0_9 : bits w.toNat 0 9 = 4 := r 0 9 (by decide)
  have s : decodeForm w.toNat = .ok (.base (.fmin gd rd ra rb)) := by
    unfold decodeForm; rw [m]; change decFloat w.toNat _ = _
    refine Eq.trans (b := (do let rd ← reg (bits w.toNat 17 4); let ra ← reg (bits w.toNat 13 4); let rb ← reg (bits w.toNat 9 4); pure (.base (.fmin (BitVec.ofNat 5 (bits w.toNat 21 5)) rd ra rb)))) (by unfold decFloat; rw [b0_9]; rfl) ?_
    simp only [b21_5, b17_4, b13_4, b9_4, bind, Except.bind, pure, Except.pure, reg_code hw.1.1, reg_code hw.1.2, reg_code hw.2, BitVec.ofNat_toNat, BitVec.setWidth_eq]
  rw [decodeWord, s]; rfl

theorem Roundtrip.fmax (gd : Guard) (rd : Reg) (ra : Reg) (rb : Reg) : Roundtrip.Statement (.fmax gd rd ra rb) := by
  intro w hw h
  have hw : (rd.plain && ra.plain && rb.plain) = true := hw
  simp only [Bool.and_eq_true] at hw
  obtain ⟨b21_5, f, r⟩ := word_reads 0x74000005 gd [(rd.code, 17, 4), (ra.code, 13, 4), (rb.code, 9, 4)] [(17, 4), (13, 4), (9, 4)] h rfl rfl (by decide) ⟨rd.code_lt, ra.code_lt, rb.code_lt, trivial⟩
  obtain ⟨b17_4, b13_4, b9_4, -⟩ := f
  have m := r 26 6 (x := 29) (by decide)
  have b0_9 : bits w.toNat 0 9 = 5 := r 0 9 (by decide)
  have s : decodeForm w.toNat = .ok (.base (.fmax gd rd ra rb)) := by
    unfold decodeForm; rw [m]; change decFloat w.toNat _ = _
    refine Eq.trans (b := (do let rd ← reg (bits w.toNat 17 4); let ra ← reg (bits w.toNat 13 4); let rb ← reg (bits w.toNat 9 4); pure (.base (.fmax (BitVec.ofNat 5 (bits w.toNat 21 5)) rd ra rb)))) (by unfold decFloat; rw [b0_9]; rfl) ?_
    simp only [b21_5, b17_4, b13_4, b9_4, bind, Except.bind, pure, Except.pure, reg_code hw.1.1, reg_code hw.1.2, reg_code hw.2, BitVec.ofNat_toNat, BitVec.setWidth_eq]
  rw [decodeWord, s]; rfl

theorem Roundtrip.fneg (gd : Guard) (rd : Reg) (ra : Reg) : Roundtrip.Statement (.fneg gd rd ra) := by
  intro w hw h
  have hw : (rd.plain && ra.plain) = true := hw
  simp only [Bool.and_eq_true] at hw
  obtain ⟨b21_5, f, r⟩ := word_reads 0x74000006 gd [(rd.code, 17, 4), (ra.code, 13, 4)] [(17, 4), (13, 4)] h rfl rfl (by decide) ⟨rd.code_lt, ra.code_lt, trivial⟩
  obtain ⟨b17_4, b13_4, -⟩ := f
  have m := r 26 6 (x := 29) (by decide)
  have b0_9 : bits w.toNat 0 9 = 6 := r 0 9 (by decide)
  have b9_4 : bits w.toNat 9 4 = 0 := r 9 4 (by decide)
  have s : decodeForm w.toNat = .ok (.base (.fneg gd rd ra)) := by
    unfold decodeForm; rw [m]; change decFloat w.toNat _ = _
    refine Eq.trans (b := zero (bits w.toNat 9 4) (do let rd ← reg (bits w.toNat 17 4); let ra ← reg (bits w.toNat 13 4); pure (.base (.fneg (BitVec.ofNat 5 (bits w.toNat 21 5)) rd ra)))) (by unfold decFloat; rw [b0_9]; rfl) ?_
    simp only [b21_5, b9_4, b17_4, b13_4, zero, bind, Except.bind, pure, Except.pure, reg_code hw.1, reg_code hw.2, BitVec.ofNat_toNat, BitVec.setWidth_eq, ↓reduceIte]
  rw [decodeWord, s]; rfl

theorem Roundtrip.fabs (gd : Guard) (rd : Reg) (ra : Reg) : Roundtrip.Statement (.fabs gd rd ra) := by
  intro w hw h
  have hw : (rd.plain && ra.plain) = true := hw
  simp only [Bool.and_eq_true] at hw
  obtain ⟨b21_5, f, r⟩ := word_reads 0x74000007 gd [(rd.code, 17, 4), (ra.code, 13, 4)] [(17, 4), (13, 4)] h rfl rfl (by decide) ⟨rd.code_lt, ra.code_lt, trivial⟩
  obtain ⟨b17_4, b13_4, -⟩ := f
  have m := r 26 6 (x := 29) (by decide)
  have b0_9 : bits w.toNat 0 9 = 7 := r 0 9 (by decide)
  have b9_4 : bits w.toNat 9 4 = 0 := r 9 4 (by decide)
  have s : decodeForm w.toNat = .ok (.base (.fabs gd rd ra)) := by
    unfold decodeForm; rw [m]; change decFloat w.toNat _ = _
    refine Eq.trans (b := zero (bits w.toNat 9 4) (do let rd ← reg (bits w.toNat 17 4); let ra ← reg (bits w.toNat 13 4); pure (.base (.fabs (BitVec.ofNat 5 (bits w.toNat 21 5)) rd ra)))) (by unfold decFloat; rw [b0_9]; rfl) ?_
    simp only [b21_5, b9_4, b17_4, b13_4, zero, bind, Except.bind, pure, Except.pure, reg_code hw.1, reg_code hw.2, BitVec.ofNat_toNat, BitVec.setWidth_eq, ↓reduceIte]
  rw [decodeWord, s]; rfl

theorem Roundtrip.fcmpEq (gd : Guard) (rd : Pred) (ra : Reg) (rb : Reg) : Roundtrip.Statement (.fcmpEq gd rd ra rb) := by
  intro w hw h
  have hw : (ra.plain && rb.plain) = true := hw
  simp only [Bool.and_eq_true] at hw
  obtain ⟨b21_5, f, r⟩ := word_reads 0x74000010 gd [(rd.toNat, 17, 4), (ra.code, 13, 4), (rb.code, 9, 4)] [(17, 4), (13, 4), (9, 4)] h rfl rfl (by decide) ⟨rd.isLt, ra.code_lt, rb.code_lt, trivial⟩
  obtain ⟨b17_4, b13_4, b9_4, -⟩ := f
  have m := r 26 6 (x := 29) (by decide)
  have b0_9 : bits w.toNat 0 9 = 16 := r 0 9 (by decide)
  have s : decodeForm w.toNat = .ok (.base (.fcmpEq gd rd ra rb)) := by
    unfold decodeForm; rw [m]; change decFloat w.toNat _ = _
    refine Eq.trans (b := (do let rd := BitVec.ofNat 4 (bits w.toNat 17 4); let ra ← reg (bits w.toNat 13 4); let rb ← reg (bits w.toNat 9 4); pure (.base (.fcmpEq (BitVec.ofNat 5 (bits w.toNat 21 5)) rd ra rb)))) (by unfold decFloat; rw [b0_9]; rfl) ?_
    simp only [b21_5, b17_4, b13_4, b9_4, bind, Except.bind, pure, Except.pure, reg_code hw.1, reg_code hw.2, BitVec.ofNat_toNat, BitVec.setWidth_eq]
  rw [decodeWord, s]; rfl

theorem Roundtrip.fcmpLt (gd : Guard) (rd : Pred) (ra : Reg) (rb : Reg) : Roundtrip.Statement (.fcmpLt gd rd ra rb) := by
  intro w hw h
  have hw : (ra.plain && rb.plain) = true := hw
  simp only [Bool.and_eq_true] at hw
  obtain ⟨b21_5, f, r⟩ := word_reads 0x74000011 gd [(rd.toNat, 17, 4), (ra.code, 13, 4), (rb.code, 9, 4)] [(17, 4), (13, 4), (9, 4)] h rfl rfl (by decide) ⟨rd.isLt, ra.code_lt, rb.code_lt, trivial⟩
  obtain ⟨b17_4, b13_4, b9_4, -⟩ := f
  have m := r 26 6 (x := 29) (by decide)
  have b0_9 : bits w.toNat 0 9 = 17 := r 0 9 (by decide)
  have s : decodeForm w.toNat = .ok (.base (.fcmpLt gd rd ra rb)) := by
    unfold decodeForm; rw [m]; change decFloat w.toNat _ = _
    refine Eq.trans (b := (do let rd := BitVec.ofNat 4 (bits w.toNat 17 4); let ra ← reg (bits w.toNat 13 4); let rb ← reg (bits w.toNat 9 4); pure (.base (.fcmpLt (BitVec.ofNat 5 (bits w.toNat 21 5)) rd ra rb)))) (by unfold decFloat; rw [b0_9]; rfl) ?_
    simp only [b21_5, b17_4, b13_4, b9_4, bind, Except.bind, pure, Except.pure, reg_code hw.1, reg_code hw.2, BitVec.ofNat_toNat, BitVec.setWidth_eq]
  rw [decodeWord, s]; rfl

theorem Roundtrip.fcmpLe (gd : Guard) (rd : Pred) (ra : Reg) (rb : Reg) : Roundtrip.Statement (.fcmpLe gd rd ra rb) := by
  intro w hw h
  have hw : (ra.plain && rb.plain) = true := hw
  simp only [Bool.and_eq_true] at hw
  obtain ⟨b21_5, f, r⟩ := word_reads 0x74000012 gd [(rd.toNat, 17, 4), (ra.code, 13, 4), (rb.code, 9, 4)] [(17, 4), (13, 4), (9, 4)] h rfl rfl (by decide) ⟨rd.isLt, ra.code_lt, rb.code_lt, trivial⟩
  obtain ⟨b17_4, b13_4, b9_4, -⟩ := f
  have m := r 26 6 (x := 29) (by decide)
  have b0_9 : bits w.toNat 0 9 = 18 := r 0 9 (by decide)
  have s : decodeForm w.toNat = .ok (.base (.fcmpLe gd rd ra rb)) := by
    unfold decodeForm; rw [m]; change decFloat w.toNat _ = _
    refine Eq.trans (b := (do let rd := BitVec.ofNat 4 (bits w.toNat 17 4); let ra ← reg (bits w.toNat 13 4); let rb ← reg (bits w.toNat 9 4); pure (.base (.fcmpLe (BitVec.ofNat 5 (bits w.toNat 21 5)) rd ra rb)))) (by unfold decFloat; rw [b0_9]; rfl) ?_
    simp only [b21_5, b17_4, b13_4, b9_4, bind, Except.bind, pure, Except.pure, reg_code hw.1, reg_code hw.2, BitVec.ofNat_toNat, BitVec.setWidth_eq]
  rw [decodeWord, s]; rfl

theorem Roundtrip.fcmpUn (gd : Guard) (rd : Pred) (ra : Reg) (rb : Reg) : Roundtrip.Statement (.fcmpUn gd rd ra rb) := by
  intro w hw h
  have hw : (ra.plain && rb.plain) = true := hw
  simp only [Bool.and_eq_true] at hw
  obtain ⟨b21_5, f, r⟩ := word_reads 0x74000013 gd [(rd.toNat, 17, 4), (ra.code, 13, 4), (rb.code, 9, 4)] [(17, 4), (13, 4), (9, 4)] h rfl rfl (by decide) ⟨rd.isLt, ra.code_lt, rb.code_lt, trivial⟩
  obtain ⟨b17_4, b13_4, b9_4, -⟩ := f
  have m := r 26 6 (x := 29) (by decide)
  have b0_9 : bits w.toNat 0 9 = 19 := r 0 9 (by decide)
  have s : decodeForm w.toNat = .ok (.base (.fcmpUn gd rd ra rb)) := by
    unfold decodeForm; rw [m]; change decFloat w.toNat _ = _
    refine Eq.trans (b := (do let rd := BitVec.ofNat 4 (bits w.toNat 17 4); let ra ← reg (bits w.toNat 13 4); let rb ← reg (bits w.toNat 9 4); pure (.base (.fcmpUn (BitVec.ofNat 5 (bits w.toNat 21 5)) rd ra rb)))) (by unfold decFloat; rw [b0_9]; rfl) ?_
    simp only [b21_5, b17_4, b13_4, b9_4, bind, Except.bind, pure, Except.pure, reg_code hw.1, reg_code hw.2, BitVec.ofNat_toNat, BitVec.setWidth_eq]
  rw [decodeWord, s]; rfl

theorem Roundtrip.fcvtSL (gd : Guard) (rd : Reg) (ra : Reg) : Roundtrip.Statement (.fcvtSL gd rd ra) := by
  intro w hw h
  have hw : (rd.plain && ra.plain) = true := hw
  simp only [Bool.and_eq_true] at hw
  obtain ⟨b21_5, f, r⟩ := word_reads 0x74000020 gd [(rd.code, 17, 4), (ra.code, 13, 4)] [(17, 4), (13, 4)] h rfl rfl (by decide) ⟨rd.code_lt, ra.code_lt, trivial⟩
  obtain ⟨b17_4, b13_4, -⟩ := f
  have m := r 26 6 (x := 29) (by decide)
  have b0_9 : bits w.toNat 0 9 = 32 := r 0 9 (by decide)
  have b9_4 : bits w.toNat 9 4 = 0 := r 9 4 (by decide)
  have s : decodeForm w.toNat = .ok (.base (.fcvtSL gd rd ra)) := by
    unfold decodeForm; rw [m]; change decFloat w.toNat _ = _
    refine Eq.trans (b := zero (bits w.toNat 9 4) (do let rd ← reg (bits w.toNat 17 4); let ra ← reg (bits w.toNat 13 4); pure (.base (.fcvtSL (BitVec.ofNat 5 (bits w.toNat 21 5)) rd ra)))) (by unfold decFloat; rw [b0_9]; rfl) ?_
    simp only [b21_5, b9_4, b17_4, b13_4, zero, bind, Except.bind, pure, Except.pure, reg_code hw.1, reg_code hw.2, BitVec.ofNat_toNat, BitVec.setWidth_eq, ↓reduceIte]
  rw [decodeWord, s]; rfl

theorem Roundtrip.fcvtLS (gd : Guard) (rd : Reg) (ra : Reg) : Roundtrip.Statement (.fcvtLS gd rd ra) := by
  intro w hw h
  have hw : (rd.plain && ra.plain) = true := hw
  simp only [Bool.and_eq_true] at hw
  obtain ⟨b21_5, f, r⟩ := word_reads 0x74000021 gd [(rd.code, 17, 4), (ra.code, 13, 4)] [(17, 4), (13, 4)] h rfl rfl (by decide) ⟨rd.code_lt, ra.code_lt, trivial⟩
  obtain ⟨b17_4, b13_4, -⟩ := f
  have m := r 26 6 (x := 29) (by decide)
  have b0_9 : bits w.toNat 0 9 = 33 := r 0 9 (by decide)
  have b9_4 : bits w.toNat 9 4 = 0 := r 9 4 (by decide)
  have s : decodeForm w.toNat = .ok (.base (.fcvtLS gd rd ra)) := by
    unfold decodeForm; rw [m]; change decFloat w.toNat _ = _
    refine Eq.trans (b := zero (bits w.toNat 9 4) (do let rd ← reg (bits w.toNat 17 4); let ra ← reg (bits w.toNat 13 4); pure (.base (.fcvtLS (BitVec.ofNat 5 (bits w.toNat 21 5)) rd ra)))) (by unfold decFloat; rw [b0_9]; rfl) ?_
    simp only [b21_5, b9_4, b17_4, b13_4, zero, bind, Except.bind, pure, Except.pure, reg_code hw.1, reg_code hw.2, BitVec.ofNat_toNat, BitVec.setWidth_eq, ↓reduceIte]
  rw [decodeWord, s]; rfl

theorem Roundtrip.fcvtSLu (gd : Guard) (rd : Reg) (ra : Reg) : Roundtrip.Statement (.fcvtSLu gd rd ra) := by
  intro w hw h
  have hw : (rd.plain && ra.plain) = true := hw
  simp only [Bool.and_eq_true] at hw
  obtain ⟨b21_5, f, r⟩ := word_reads 0x74000022 gd [(rd.code, 17, 4), (ra.code, 13, 4)] [(17, 4), (13, 4)] h rfl rfl (by decide) ⟨rd.code_lt, ra.code_lt, trivial⟩
  obtain ⟨b17_4, b13_4, -⟩ := f
  have m := r 26 6 (x := 29) (by decide)
  have b0_9 : bits w.toNat 0 9 = 34 := r 0 9 (by decide)
  have b9_4 : bits w.toNat 9 4 = 0 := r 9 4 (by decide)
  have s : decodeForm w.toNat = .ok (.base (.fcvtSLu gd rd ra)) := by
    unfold decodeForm; rw [m]; change decFloat w.toNat _ = _
    refine Eq.trans (b := zero (bits w.toNat 9 4) (do let rd ← reg (bits w.toNat 17 4); let ra ← reg (bits w.toNat 13 4); pure (.base (.fcvtSLu (BitVec.ofNat 5 (bits w.toNat 21 5)) rd ra)))) (by unfold decFloat; rw [b0_9]; rfl) ?_
    simp only [b21_5, b9_4, b17_4, b13_4, zero, bind, Except.bind, pure, Except.pure, reg_code hw.1, reg_code hw.2, BitVec.ofNat_toNat, BitVec.setWidth_eq, ↓reduceIte]
  rw [decodeWord, s]; rfl

theorem Roundtrip.fcvtLuS (gd : Guard) (rd : Reg) (ra : Reg) : Roundtrip.Statement (.fcvtLuS gd rd ra) := by
  intro w hw h
  have hw : (rd.plain && ra.plain) = true := hw
  simp only [Bool.and_eq_true] at hw
  obtain ⟨b21_5, f, r⟩ := word_reads 0x74000023 gd [(rd.code, 17, 4), (ra.code, 13, 4)] [(17, 4), (13, 4)] h rfl rfl (by decide) ⟨rd.code_lt, ra.code_lt, trivial⟩
  obtain ⟨b17_4, b13_4, -⟩ := f
  have m := r 26 6 (x := 29) (by decide)
  have b0_9 : bits w.toNat 0 9 = 35 := r 0 9 (by decide)
  have b9_4 : bits w.toNat 9 4 = 0 := r 9 4 (by decide)
  have s : decodeForm w.toNat = .ok (.base (.fcvtLuS gd rd ra)) := by
    unfold decodeForm; rw [m]; change decFloat w.toNat _ = _
    refine Eq.trans (b := zero (bits w.toNat 9 4) (do let rd ← reg (bits w.toNat 17 4); let ra ← reg (bits w.toNat 13 4); pure (.base (.fcvtLuS (BitVec.ofNat 5 (bits w.toNat 21 5)) rd ra)))) (by unfold decFloat; rw [b0_9]; rfl) ?_
    simp only [b21_5, b9_4, b17_4, b13_4, zero, bind, Except.bind, pure, Except.pure, reg_code hw.1, reg_code hw.2, BitVec.ofNat_toNat, BitVec.setWidth_eq, ↓reduceIte]
  rw [decodeWord, s]; rfl

theorem Roundtrip.fcvtSHf (gd : Guard) (rd : Reg) (ra : Reg) : Roundtrip.Statement (.fcvtSHf gd rd ra) := by
  intro w hw h
  have hw : (rd.plain && ra.plain) = true := hw
  simp only [Bool.and_eq_true] at hw
  obtain ⟨b21_5, f, r⟩ := word_reads 0x74000024 gd [(rd.code, 17, 4), (ra.code, 13, 4)] [(17, 4), (13, 4)] h rfl rfl (by decide) ⟨rd.code_lt, ra.code_lt, trivial⟩
  obtain ⟨b17_4, b13_4, -⟩ := f
  have m := r 26 6 (x := 29) (by decide)
  have b0_9 : bits w.toNat 0 9 = 36 := r 0 9 (by decide)
  have b9_4 : bits w.toNat 9 4 = 0 := r 9 4 (by decide)
  have s : decodeForm w.toNat = .ok (.base (.fcvtSHf gd rd ra)) := by
    unfold decodeForm; rw [m]; change decFloat w.toNat _ = _
    refine Eq.trans (b := zero (bits w.toNat 9 4) (do let rd ← reg (bits w.toNat 17 4); let ra ← reg (bits w.toNat 13 4); pure (.base (.fcvtSHf (BitVec.ofNat 5 (bits w.toNat 21 5)) rd ra)))) (by unfold decFloat; rw [b0_9]; rfl) ?_
    simp only [b21_5, b9_4, b17_4, b13_4, zero, bind, Except.bind, pure, Except.pure, reg_code hw.1, reg_code hw.2, BitVec.ofNat_toNat, BitVec.setWidth_eq, ↓reduceIte]
  rw [decodeWord, s]; rfl

theorem Roundtrip.fcvtHfS (gd : Guard) (rd : Reg) (ra : Reg) : Roundtrip.Statement (.fcvtHfS gd rd ra) := by
  intro w hw h
  have hw : (rd.plain && ra.plain) = true := hw
  simp only [Bool.and_eq_true] at hw
  obtain ⟨b21_5, f, r⟩ := word_reads 0x74000025 gd [(rd.code, 17, 4), (ra.code, 13, 4)] [(17, 4), (13, 4)] h rfl rfl (by decide) ⟨rd.code_lt, ra.code_lt, trivial⟩
  obtain ⟨b17_4, b13_4, -⟩ := f
  have m := r 26 6 (x := 29) (by decide)
  have b0_9 : bits w.toNat 0 9 = 37 := r 0 9 (by decide)
  have b9_4 : bits w.toNat 9 4 = 0 := r 9 4 (by decide)
  have s : decodeForm w.toNat = .ok (.base (.fcvtHfS gd rd ra)) := by
    unfold decodeForm; rw [m]; change decFloat w.toNat _ = _
    refine Eq.trans (b := zero (bits w.toNat 9 4) (do let rd ← reg (bits w.toNat 17 4); let ra ← reg (bits w.toNat 13 4); pure (.base (.fcvtHfS (BitVec.ofNat 5 (bits w.toNat 21 5)) rd ra)))) (by unfold decFloat; rw [b0_9]; rfl) ?_
    simp only [b21_5, b9_4, b17_4, b13_4, zero, bind, Except.bind, pure, Except.pure, reg_code hw.1, reg_code hw.2, BitVec.ofNat_toNat, BitVec.setWidth_eq, ↓reduceIte]
  rw [decodeWord, s]; rfl

theorem Roundtrip.fcvtSBh (gd : Guard) (rd : Reg) (ra : Reg) : Roundtrip.Statement (.fcvtSBh gd rd ra) := by
  intro w hw h
  have hw : (rd.plain && ra.plain) = true := hw
  simp only [Bool.and_eq_true] at hw
  obtain ⟨b21_5, f, r⟩ := word_reads 0x74000026 gd [(rd.code, 17, 4), (ra.code, 13, 4)] [(17, 4), (13, 4)] h rfl rfl (by decide) ⟨rd.code_lt, ra.code_lt, trivial⟩
  obtain ⟨b17_4, b13_4, -⟩ := f
  have m := r 26 6 (x := 29) (by decide)
  have b0_9 : bits w.toNat 0 9 = 38 := r 0 9 (by decide)
  have b9_4 : bits w.toNat 9 4 = 0 := r 9 4 (by decide)
  have s : decodeForm w.toNat = .ok (.base (.fcvtSBh gd rd ra)) := by
    unfold decodeForm; rw [m]; change decFloat w.toNat _ = _
    refine Eq.trans (b := zero (bits w.toNat 9 4) (do let rd ← reg (bits w.toNat 17 4); let ra ← reg (bits w.toNat 13 4); pure (.base (.fcvtSBh (BitVec.ofNat 5 (bits w.toNat 21 5)) rd ra)))) (by unfold decFloat; rw [b0_9]; rfl) ?_
    simp only [b21_5, b9_4, b17_4, b13_4, zero, bind, Except.bind, pure, Except.pure, reg_code hw.1, reg_code hw.2, BitVec.ofNat_toNat, BitVec.setWidth_eq, ↓reduceIte]
  rw [decodeWord, s]; rfl

theorem Roundtrip.fcvtBhS (gd : Guard) (rd : Reg) (ra : Reg) : Roundtrip.Statement (.fcvtBhS gd rd ra) := by
  intro w hw h
  have hw : (rd.plain && ra.plain) = true := hw
  simp only [Bool.and_eq_true] at hw
  obtain ⟨b21_5, f, r⟩ := word_reads 0x74000027 gd [(rd.code, 17, 4), (ra.code, 13, 4)] [(17, 4), (13, 4)] h rfl rfl (by decide) ⟨rd.code_lt, ra.code_lt, trivial⟩
  obtain ⟨b17_4, b13_4, -⟩ := f
  have m := r 26 6 (x := 29) (by decide)
  have b0_9 : bits w.toNat 0 9 = 39 := r 0 9 (by decide)
  have b9_4 : bits w.toNat 9 4 = 0 := r 9 4 (by decide)
  have s : decodeForm w.toNat = .ok (.base (.fcvtBhS gd rd ra)) := by
    unfold decodeForm; rw [m]; change decFloat w.toNat _ = _
    refine Eq.trans (b := zero (bits w.toNat 9 4) (do let rd ← reg (bits w.toNat 17 4); let ra ← reg (bits w.toNat 13 4); pure (.base (.fcvtBhS (BitVec.ofNat 5 (bits w.toNat 21 5)) rd ra)))) (by unfold decFloat; rw [b0_9]; rfl) ?_
    simp only [b21_5, b9_4, b17_4, b13_4, zero, bind, Except.bind, pure, Except.pure, reg_code hw.1, reg_code hw.2, BitVec.ofNat_toNat, BitVec.setWidth_eq, ↓reduceIte]
  rw [decodeWord, s]; rfl

theorem Roundtrip.qmake (gd : Guard) (rd : Reg) (ra : Reg) (rb : Reg) : Roundtrip.Statement (.qmake gd rd ra rb) := by
  intro w hw h
  have hw : (rd.plain && ra.plain && rb.plain) = true := hw
  simp only [Bool.and_eq_true] at hw
  obtain ⟨b21_5, f, r⟩ := word_reads 0x78000000 gd [(rd.code, 17, 4), (ra.code, 13, 4), (rb.code, 9, 4)] [(17, 4), (13, 4), (9, 4)] h rfl rfl (by decide) ⟨rd.code_lt, ra.code_lt, rb.code_lt, trivial⟩
  obtain ⟨b17_4, b13_4, b9_4, -⟩ := f
  have m := r 26 6 (x := 30) (by decide)
  have b0_9 : bits w.toNat 0 9 = 0 := r 0 9 (by decide)
  have s : decodeForm w.toNat = .ok (.base (.qmake gd rd ra rb)) := by
    unfold decodeForm; rw [m]; change decQ w.toNat _ = _
    refine Eq.trans (b := (do let rd ← reg (bits w.toNat 17 4); let ra ← reg (bits w.toNat 13 4); let rb ← reg (bits w.toNat 9 4); pure (.base (.qmake (BitVec.ofNat 5 (bits w.toNat 21 5)) rd ra rb)))) (by unfold decQ; rw [b0_9]; rfl) ?_
    simp only [b21_5, b17_4, b13_4, b9_4, bind, Except.bind, pure, Except.pure, reg_code hw.1.1, reg_code hw.1.2, reg_code hw.2, BitVec.ofNat_toNat, BitVec.setWidth_eq]
  rw [decodeWord, s]; rfl

theorem Roundtrip.qnum (gd : Guard) (rd : Reg) (ra : Reg) : Roundtrip.Statement (.qnum gd rd ra) := by
  intro w hw h
  have hw : (rd.plain && ra.plain) = true := hw
  simp only [Bool.and_eq_true] at hw
  obtain ⟨b21_5, f, r⟩ := word_reads 0x78000001 gd [(rd.code, 17, 4), (ra.code, 13, 4)] [(17, 4), (13, 4)] h rfl rfl (by decide) ⟨rd.code_lt, ra.code_lt, trivial⟩
  obtain ⟨b17_4, b13_4, -⟩ := f
  have m := r 26 6 (x := 30) (by decide)
  have b0_9 : bits w.toNat 0 9 = 1 := r 0 9 (by decide)
  have b9_4 : bits w.toNat 9 4 = 0 := r 9 4 (by decide)
  have s : decodeForm w.toNat = .ok (.base (.qnum gd rd ra)) := by
    unfold decodeForm; rw [m]; change decQ w.toNat _ = _
    refine Eq.trans (b := zero (bits w.toNat 9 4) (do let rd ← reg (bits w.toNat 17 4); let ra ← reg (bits w.toNat 13 4); pure (.base (.qnum (BitVec.ofNat 5 (bits w.toNat 21 5)) rd ra)))) (by unfold decQ; rw [b0_9]; rfl) ?_
    simp only [b21_5, b9_4, b17_4, b13_4, zero, bind, Except.bind, pure, Except.pure, reg_code hw.1, reg_code hw.2, BitVec.ofNat_toNat, BitVec.setWidth_eq, ↓reduceIte]
  rw [decodeWord, s]; rfl

theorem Roundtrip.qden (gd : Guard) (rd : Reg) (ra : Reg) : Roundtrip.Statement (.qden gd rd ra) := by
  intro w hw h
  have hw : (rd.plain && ra.plain) = true := hw
  simp only [Bool.and_eq_true] at hw
  obtain ⟨b21_5, f, r⟩ := word_reads 0x78000002 gd [(rd.code, 17, 4), (ra.code, 13, 4)] [(17, 4), (13, 4)] h rfl rfl (by decide) ⟨rd.code_lt, ra.code_lt, trivial⟩
  obtain ⟨b17_4, b13_4, -⟩ := f
  have m := r 26 6 (x := 30) (by decide)
  have b0_9 : bits w.toNat 0 9 = 2 := r 0 9 (by decide)
  have b9_4 : bits w.toNat 9 4 = 0 := r 9 4 (by decide)
  have s : decodeForm w.toNat = .ok (.base (.qden gd rd ra)) := by
    unfold decodeForm; rw [m]; change decQ w.toNat _ = _
    refine Eq.trans (b := zero (bits w.toNat 9 4) (do let rd ← reg (bits w.toNat 17 4); let ra ← reg (bits w.toNat 13 4); pure (.base (.qden (BitVec.ofNat 5 (bits w.toNat 21 5)) rd ra)))) (by unfold decQ; rw [b0_9]; rfl) ?_
    simp only [b21_5, b9_4, b17_4, b13_4, zero, bind, Except.bind, pure, Except.pure, reg_code hw.1, reg_code hw.2, BitVec.ofNat_toNat, BitVec.setWidth_eq, ↓reduceIte]
  rw [decodeWord, s]; rfl

theorem Roundtrip.qmed (gd : Guard) (rd : Reg) (ra : Reg) (rb : Reg) : Roundtrip.Statement (.qmed gd rd ra rb) := by
  intro w hw h
  have hw : (rd.plain && ra.plain && rb.plain) = true := hw
  simp only [Bool.and_eq_true] at hw
  obtain ⟨b21_5, f, r⟩ := word_reads 0x78000003 gd [(rd.code, 17, 4), (ra.code, 13, 4), (rb.code, 9, 4)] [(17, 4), (13, 4), (9, 4)] h rfl rfl (by decide) ⟨rd.code_lt, ra.code_lt, rb.code_lt, trivial⟩
  obtain ⟨b17_4, b13_4, b9_4, -⟩ := f
  have m := r 26 6 (x := 30) (by decide)
  have b0_9 : bits w.toNat 0 9 = 3 := r 0 9 (by decide)
  have s : decodeForm w.toNat = .ok (.base (.qmed gd rd ra rb)) := by
    unfold decodeForm; rw [m]; change decQ w.toNat _ = _
    refine Eq.trans (b := (do let rd ← reg (bits w.toNat 17 4); let ra ← reg (bits w.toNat 13 4); let rb ← reg (bits w.toNat 9 4); pure (.base (.qmed (BitVec.ofNat 5 (bits w.toNat 21 5)) rd ra rb)))) (by unfold decQ; rw [b0_9]; rfl) ?_
    simp only [b21_5, b17_4, b13_4, b9_4, bind, Except.bind, pure, Except.pure, reg_code hw.1.1, reg_code hw.1.2, reg_code hw.2, BitVec.ofNat_toNat, BitVec.setWidth_eq]
  rw [decodeWord, s]; rfl

theorem Roundtrip.qcf (gd : Guard) (rd : Reg) (ra : Reg) (rb : Reg) : Roundtrip.Statement (.qcf gd rd ra rb) := by
  intro w hw h
  have hw : (rd.plain && ra.plain && rb.plain) = true := hw
  simp only [Bool.and_eq_true] at hw
  obtain ⟨b21_5, f, r⟩ := word_reads 0x78000004 gd [(rd.code, 17, 4), (ra.code, 13, 4), (rb.code, 9, 4)] [(17, 4), (13, 4), (9, 4)] h rfl rfl (by decide) ⟨rd.code_lt, ra.code_lt, rb.code_lt, trivial⟩
  obtain ⟨b17_4, b13_4, b9_4, -⟩ := f
  have m := r 26 6 (x := 30) (by decide)
  have b0_9 : bits w.toNat 0 9 = 4 := r 0 9 (by decide)
  have s : decodeForm w.toNat = .ok (.base (.qcf gd rd ra rb)) := by
    unfold decodeForm; rw [m]; change decQ w.toNat _ = _
    refine Eq.trans (b := (do let rd ← reg (bits w.toNat 17 4); let ra ← reg (bits w.toNat 13 4); let rb ← reg (bits w.toNat 9 4); pure (.base (.qcf (BitVec.ofNat 5 (bits w.toNat 21 5)) rd ra rb)))) (by unfold decQ; rw [b0_9]; rfl) ?_
    simp only [b21_5, b17_4, b13_4, b9_4, bind, Except.bind, pure, Except.pure, reg_code hw.1.1, reg_code hw.1.2, reg_code hw.2, BitVec.ofNat_toNat, BitVec.setWidth_eq]
  rw [decodeWord, s]; rfl

theorem Roundtrip.qlim (gd : Guard) (rd : Reg) (ra : Reg) (rb : Reg) : Roundtrip.Statement (.qlim gd rd ra rb) := by
  intro w hw h
  have hw : (rd.plain && ra.plain && rb.plain) = true := hw
  simp only [Bool.and_eq_true] at hw
  obtain ⟨b21_5, f, r⟩ := word_reads 0x78000005 gd [(rd.code, 17, 4), (ra.code, 13, 4), (rb.code, 9, 4)] [(17, 4), (13, 4), (9, 4)] h rfl rfl (by decide) ⟨rd.code_lt, ra.code_lt, rb.code_lt, trivial⟩
  obtain ⟨b17_4, b13_4, b9_4, -⟩ := f
  have m := r 26 6 (x := 30) (by decide)
  have b0_9 : bits w.toNat 0 9 = 5 := r 0 9 (by decide)
  have s : decodeForm w.toNat = .ok (.base (.qlim gd rd ra rb)) := by
    unfold decodeForm; rw [m]; change decQ w.toNat _ = _
    refine Eq.trans (b := (do let rd ← reg (bits w.toNat 17 4); let ra ← reg (bits w.toNat 13 4); let rb ← reg (bits w.toNat 9 4); pure (.base (.qlim (BitVec.ofNat 5 (bits w.toNat 21 5)) rd ra rb)))) (by unfold decQ; rw [b0_9]; rfl) ?_
    simp only [b21_5, b17_4, b13_4, b9_4, bind, Except.bind, pure, Except.pure, reg_code hw.1.1, reg_code hw.1.2, reg_code hw.2, BitVec.ofNat_toNat, BitVec.setWidth_eq]
  rw [decodeWord, s]; rfl

theorem Roundtrip.qcanon (gd : Guard) (rd : Reg) (ra : Reg) : Roundtrip.Statement (.qcanon gd rd ra) := by
  intro w hw h
  have hw : (rd.plain && ra.plain) = true := hw
  simp only [Bool.and_eq_true] at hw
  obtain ⟨b21_5, f, r⟩ := word_reads 0x78000006 gd [(rd.code, 17, 4), (ra.code, 13, 4)] [(17, 4), (13, 4)] h rfl rfl (by decide) ⟨rd.code_lt, ra.code_lt, trivial⟩
  obtain ⟨b17_4, b13_4, -⟩ := f
  have m := r 26 6 (x := 30) (by decide)
  have b0_9 : bits w.toNat 0 9 = 6 := r 0 9 (by decide)
  have b9_4 : bits w.toNat 9 4 = 0 := r 9 4 (by decide)
  have s : decodeForm w.toNat = .ok (.base (.qcanon gd rd ra)) := by
    unfold decodeForm; rw [m]; change decQ w.toNat _ = _
    refine Eq.trans (b := zero (bits w.toNat 9 4) (do let rd ← reg (bits w.toNat 17 4); let ra ← reg (bits w.toNat 13 4); pure (.base (.qcanon (BitVec.ofNat 5 (bits w.toNat 21 5)) rd ra)))) (by unfold decQ; rw [b0_9]; rfl) ?_
    simp only [b21_5, b9_4, b17_4, b13_4, zero, bind, Except.bind, pure, Except.pure, reg_code hw.1, reg_code hw.2, BitVec.ofNat_toNat, BitVec.setWidth_eq, ↓reduceIte]
  rw [decodeWord, s]; rfl

theorem Roundtrip.qcvtF (gd : Guard) (rd : Reg) (ra : Reg) : Roundtrip.Statement (.qcvtF gd rd ra) := by
  intro w hw h
  have hw : (rd.plain && ra.plain) = true := hw
  simp only [Bool.and_eq_true] at hw
  obtain ⟨b21_5, f, r⟩ := word_reads 0x78000007 gd [(rd.code, 17, 4), (ra.code, 13, 4)] [(17, 4), (13, 4)] h rfl rfl (by decide) ⟨rd.code_lt, ra.code_lt, trivial⟩
  obtain ⟨b17_4, b13_4, -⟩ := f
  have m := r 26 6 (x := 30) (by decide)
  have b0_9 : bits w.toNat 0 9 = 7 := r 0 9 (by decide)
  have b9_4 : bits w.toNat 9 4 = 0 := r 9 4 (by decide)
  have s : decodeForm w.toNat = .ok (.base (.qcvtF gd rd ra)) := by
    unfold decodeForm; rw [m]; change decQ w.toNat _ = _
    refine Eq.trans (b := zero (bits w.toNat 9 4) (do let rd ← reg (bits w.toNat 17 4); let ra ← reg (bits w.toNat 13 4); pure (.base (.qcvtF (BitVec.ofNat 5 (bits w.toNat 21 5)) rd ra)))) (by unfold decQ; rw [b0_9]; rfl) ?_
    simp only [b21_5, b9_4, b17_4, b13_4, zero, bind, Except.bind, pure, Except.pure, reg_code hw.1, reg_code hw.2, BitVec.ofNat_toNat, BitVec.setWidth_eq, ↓reduceIte]
  rw [decodeWord, s]; rfl

theorem Roundtrip.qcvtI (gd : Guard) (rd : Reg) (ra : Reg) : Roundtrip.Statement (.qcvtI gd rd ra) := by
  intro w hw h
  have hw : (rd.plain && ra.plain) = true := hw
  simp only [Bool.and_eq_true] at hw
  obtain ⟨b21_5, f, r⟩ := word_reads 0x78000008 gd [(rd.code, 17, 4), (ra.code, 13, 4)] [(17, 4), (13, 4)] h rfl rfl (by decide) ⟨rd.code_lt, ra.code_lt, trivial⟩
  obtain ⟨b17_4, b13_4, -⟩ := f
  have m := r 26 6 (x := 30) (by decide)
  have b0_9 : bits w.toNat 0 9 = 8 := r 0 9 (by decide)
  have b9_4 : bits w.toNat 9 4 = 0 := r 9 4 (by decide)
  have s : decodeForm w.toNat = .ok (.base (.qcvtI gd rd ra)) := by
    unfold decodeForm; rw [m]; change decQ w.toNat _ = _
    refine Eq.trans (b := zero (bits w.toNat 9 4) (do let rd ← reg (bits w.toNat 17 4); let ra ← reg (bits w.toNat 13 4); pure (.base (.qcvtI (BitVec.ofNat 5 (bits w.toNat 21 5)) rd ra)))) (by unfold decQ; rw [b0_9]; rfl) ?_
    simp only [b21_5, b9_4, b17_4, b13_4, zero, bind, Except.bind, pure, Except.pure, reg_code hw.1, reg_code hw.2, BitVec.ofNat_toNat, BitVec.setWidth_eq, ↓reduceIte]
  rw [decodeWord, s]; rfl

theorem Roundtrip.qclass (gd : Guard) (rd : Reg) (ra : Reg) : Roundtrip.Statement (.qclass gd rd ra) := by
  intro w hw h
  have hw : (rd.plain && ra.plain) = true := hw
  simp only [Bool.and_eq_true] at hw
  obtain ⟨b21_5, f, r⟩ := word_reads 0x78000009 gd [(rd.code, 17, 4), (ra.code, 13, 4)] [(17, 4), (13, 4)] h rfl rfl (by decide) ⟨rd.code_lt, ra.code_lt, trivial⟩
  obtain ⟨b17_4, b13_4, -⟩ := f
  have m := r 26 6 (x := 30) (by decide)
  have b0_9 : bits w.toNat 0 9 = 9 := r 0 9 (by decide)
  have b9_4 : bits w.toNat 9 4 = 0 := r 9 4 (by decide)
  have s : decodeForm w.toNat = .ok (.base (.qclass gd rd ra)) := by
    unfold decodeForm; rw [m]; change decQ w.toNat _ = _
    refine Eq.trans (b := zero (bits w.toNat 9 4) (do let rd ← reg (bits w.toNat 17 4); let ra ← reg (bits w.toNat 13 4); pure (.base (.qclass (BitVec.ofNat 5 (bits w.toNat 21 5)) rd ra)))) (by unfold decQ; rw [b0_9]; rfl) ?_
    simp only [b21_5, b9_4, b17_4, b13_4, zero, bind, Except.bind, pure, Except.pure, reg_code hw.1, reg_code hw.2, BitVec.ofNat_toNat, BitVec.setWidth_eq, ↓reduceIte]
  rw [decodeWord, s]; rfl

theorem Roundtrip.gcd (gd : Guard) (rd : Reg) (ra : Reg) (rb : Reg) : Roundtrip.Statement (.gcd gd rd ra rb) := by
  intro w hw h
  have hw : (rd.plain && ra.plain && rb.plain) = true := hw
  simp only [Bool.and_eq_true] at hw
  obtain ⟨b21_5, f, r⟩ := word_reads 0x7800000A gd [(rd.code, 17, 4), (ra.code, 13, 4), (rb.code, 9, 4)] [(17, 4), (13, 4), (9, 4)] h rfl rfl (by decide) ⟨rd.code_lt, ra.code_lt, rb.code_lt, trivial⟩
  obtain ⟨b17_4, b13_4, b9_4, -⟩ := f
  have m := r 26 6 (x := 30) (by decide)
  have b0_9 : bits w.toNat 0 9 = 10 := r 0 9 (by decide)
  have s : decodeForm w.toNat = .ok (.base (.gcd gd rd ra rb)) := by
    unfold decodeForm; rw [m]; change decQ w.toNat _ = _
    refine Eq.trans (b := (do let rd ← reg (bits w.toNat 17 4); let ra ← reg (bits w.toNat 13 4); let rb ← reg (bits w.toNat 9 4); pure (.base (.gcd (BitVec.ofNat 5 (bits w.toNat 21 5)) rd ra rb)))) (by unfold decQ; rw [b0_9]; rfl) ?_
    simp only [b21_5, b17_4, b13_4, b9_4, bind, Except.bind, pure, Except.pure, reg_code hw.1.1, reg_code hw.1.2, reg_code hw.2, BitVec.ofNat_toNat, BitVec.setWidth_eq]
  rw [decodeWord, s]; rfl

theorem Roundtrip.qsetm (gd : Guard) (ra : Reg) : Roundtrip.Statement (.qsetm gd ra) := by
  intro w hw h
  have hw : (ra.plain) = true := hw
  obtain ⟨b21_5, f, r⟩ := word_reads 0x7800000B gd [(ra.code, 13, 4)] [(13, 4)] h rfl rfl (by decide) ⟨ra.code_lt, trivial⟩
  obtain ⟨b13_4, -⟩ := f
  have m := r 26 6 (x := 30) (by decide)
  have b0_9 : bits w.toNat 0 9 = 11 := r 0 9 (by decide)
  have b9_4 : bits w.toNat 9 4 = 0 := r 9 4 (by decide)
  have b17_4 : bits w.toNat 17 4 = 0 := r 17 4 (by decide)
  have s : decodeForm w.toNat = .ok (.base (.qsetm gd ra)) := by
    unfold decodeForm; rw [m]; change decQ w.toNat _ = _
    refine Eq.trans (b := zero (bits w.toNat 9 4 + bits w.toNat 17 4) (do let ra ← reg (bits w.toNat 13 4); pure (.base (.qsetm (BitVec.ofNat 5 (bits w.toNat 21 5)) ra)))) (by unfold decQ; rw [b0_9]; rfl) ?_
    simp only [b21_5, b9_4, b17_4, b13_4, zero, bind, Except.bind, pure, Except.pure, reg_code hw, BitVec.ofNat_toNat, BitVec.setWidth_eq, ↓reduceIte]
  rw [decodeWord, s]; rfl

theorem Roundtrip.issueMx (gd : Guard) (rd : Reg) (ra : Reg) : Roundtrip.Statement (.issueMx gd rd ra) := by
  intro w hw h
  have hw : (rd.plain && ra.plain) = true := hw
  simp only [Bool.and_eq_true] at hw
  obtain ⟨b21_5, f, r⟩ := word_reads 0x80000000 gd [(rd.code, 17, 4), (ra.code, 13, 4)] [(17, 4), (13, 4)] h rfl rfl (by decide) ⟨rd.code_lt, ra.code_lt, trivial⟩
  obtain ⟨b17_4, b13_4, -⟩ := f
  have m := r 26 6 (x := 32) (by decide)
  have b0_9 : bits w.toNat 0 9 = 0 := r 0 9 (by decide)
  have b9_4 : bits w.toNat 9 4 = 0 := r 9 4 (by decide)
  have s : decodeForm w.toNat = .ok (.base (.issueMx gd rd ra)) := by
    unfold decodeForm; rw [m]; change decIssue w.toNat _ = _
    refine Eq.trans (b := zero (bits w.toNat 9 4) (do let rd ← reg (bits w.toNat 17 4); let ra ← reg (bits w.toNat 13 4); pure (.base (.issueMx (BitVec.ofNat 5 (bits w.toNat 21 5)) rd ra)))) (by unfold decIssue; rw [b0_9]; rfl) ?_
    simp only [b21_5, b9_4, b17_4, b13_4, zero, bind, Except.bind, pure, Except.pure, reg_code hw.1, reg_code hw.2, BitVec.ofNat_toNat, BitVec.setWidth_eq, ↓reduceIte]
  rw [decodeWord, s]; rfl

theorem Roundtrip.issueMxSync (gd : Guard) (rd : Reg) (ra : Reg) : Roundtrip.Statement (.issueMxSync gd rd ra) := by
  intro w hw h
  have hw : (rd.plain && ra.plain) = true := hw
  simp only [Bool.and_eq_true] at hw
  obtain ⟨b21_5, f, r⟩ := word_reads 0x80000100 gd [(rd.code, 17, 4), (ra.code, 13, 4)] [(17, 4), (13, 4)] h rfl rfl (by decide) ⟨rd.code_lt, ra.code_lt, trivial⟩
  obtain ⟨b17_4, b13_4, -⟩ := f
  have m := r 26 6 (x := 32) (by decide)
  have b0_9 : bits w.toNat 0 9 = 256 := r 0 9 (by decide)
  have b9_4 : bits w.toNat 9 4 = 0 := r 9 4 (by decide)
  have s : decodeForm w.toNat = .ok (.base (.issueMxSync gd rd ra)) := by
    unfold decodeForm; rw [m]; change decIssue w.toNat _ = _
    refine Eq.trans (b := zero (bits w.toNat 9 4) (do let rd ← reg (bits w.toNat 17 4); let ra ← reg (bits w.toNat 13 4); pure (.base (.issueMxSync (BitVec.ofNat 5 (bits w.toNat 21 5)) rd ra)))) (by unfold decIssue; rw [b0_9]; rfl) ?_
    simp only [b21_5, b9_4, b17_4, b13_4, zero, bind, Except.bind, pure, Except.pure, reg_code hw.1, reg_code hw.2, BitVec.ofNat_toNat, BitVec.setWidth_eq, ↓reduceIte]
  rw [decodeWord, s]; rfl

theorem Roundtrip.issueQd (gd : Guard) (rd : Reg) (ra : Reg) : Roundtrip.Statement (.issueQd gd rd ra) := by
  intro w hw h
  have hw : (rd.plain && ra.plain) = true := hw
  simp only [Bool.and_eq_true] at hw
  obtain ⟨b21_5, f, r⟩ := word_reads 0x80000001 gd [(rd.code, 17, 4), (ra.code, 13, 4)] [(17, 4), (13, 4)] h rfl rfl (by decide) ⟨rd.code_lt, ra.code_lt, trivial⟩
  obtain ⟨b17_4, b13_4, -⟩ := f
  have m := r 26 6 (x := 32) (by decide)
  have b0_9 : bits w.toNat 0 9 = 1 := r 0 9 (by decide)
  have b9_4 : bits w.toNat 9 4 = 0 := r 9 4 (by decide)
  have s : decodeForm w.toNat = .ok (.base (.issueQd gd rd ra)) := by
    unfold decodeForm; rw [m]; change decIssue w.toNat _ = _
    refine Eq.trans (b := zero (bits w.toNat 9 4) (do let rd ← reg (bits w.toNat 17 4); let ra ← reg (bits w.toNat 13 4); pure (.base (.issueQd (BitVec.ofNat 5 (bits w.toNat 21 5)) rd ra)))) (by unfold decIssue; rw [b0_9]; rfl) ?_
    simp only [b21_5, b9_4, b17_4, b13_4, zero, bind, Except.bind, pure, Except.pure, reg_code hw.1, reg_code hw.2, BitVec.ofNat_toNat, BitVec.setWidth_eq, ↓reduceIte]
  rw [decodeWord, s]; rfl

theorem Roundtrip.issueQdSync (gd : Guard) (rd : Reg) (ra : Reg) : Roundtrip.Statement (.issueQdSync gd rd ra) := by
  intro w hw h
  have hw : (rd.plain && ra.plain) = true := hw
  simp only [Bool.and_eq_true] at hw
  obtain ⟨b21_5, f, r⟩ := word_reads 0x80000101 gd [(rd.code, 17, 4), (ra.code, 13, 4)] [(17, 4), (13, 4)] h rfl rfl (by decide) ⟨rd.code_lt, ra.code_lt, trivial⟩
  obtain ⟨b17_4, b13_4, -⟩ := f
  have m := r 26 6 (x := 32) (by decide)
  have b0_9 : bits w.toNat 0 9 = 257 := r 0 9 (by decide)
  have b9_4 : bits w.toNat 9 4 = 0 := r 9 4 (by decide)
  have s : decodeForm w.toNat = .ok (.base (.issueQdSync gd rd ra)) := by
    unfold decodeForm; rw [m]; change decIssue w.toNat _ = _
    refine Eq.trans (b := zero (bits w.toNat 9 4) (do let rd ← reg (bits w.toNat 17 4); let ra ← reg (bits w.toNat 13 4); pure (.base (.issueQdSync (BitVec.ofNat 5 (bits w.toNat 21 5)) rd ra)))) (by unfold decIssue; rw [b0_9]; rfl) ?_
    simp only [b21_5, b9_4, b17_4, b13_4, zero, bind, Except.bind, pure, Except.pure, reg_code hw.1, reg_code hw.2, BitVec.ofNat_toNat, BitVec.setWidth_eq, ↓reduceIte]
  rw [decodeWord, s]; rfl

theorem Roundtrip.issueCp (gd : Guard) (rd : Reg) (ra : Reg) : Roundtrip.Statement (.issueCp gd rd ra) := by
  intro w hw h
  have hw : (rd.plain && ra.plain) = true := hw
  simp only [Bool.and_eq_true] at hw
  obtain ⟨b21_5, f, r⟩ := word_reads 0x80000002 gd [(rd.code, 17, 4), (ra.code, 13, 4)] [(17, 4), (13, 4)] h rfl rfl (by decide) ⟨rd.code_lt, ra.code_lt, trivial⟩
  obtain ⟨b17_4, b13_4, -⟩ := f
  have m := r 26 6 (x := 32) (by decide)
  have b0_9 : bits w.toNat 0 9 = 2 := r 0 9 (by decide)
  have b9_4 : bits w.toNat 9 4 = 0 := r 9 4 (by decide)
  have s : decodeForm w.toNat = .ok (.base (.issueCp gd rd ra)) := by
    unfold decodeForm; rw [m]; change decIssue w.toNat _ = _
    refine Eq.trans (b := zero (bits w.toNat 9 4) (do let rd ← reg (bits w.toNat 17 4); let ra ← reg (bits w.toNat 13 4); pure (.base (.issueCp (BitVec.ofNat 5 (bits w.toNat 21 5)) rd ra)))) (by unfold decIssue; rw [b0_9]; rfl) ?_
    simp only [b21_5, b9_4, b17_4, b13_4, zero, bind, Except.bind, pure, Except.pure, reg_code hw.1, reg_code hw.2, BitVec.ofNat_toNat, BitVec.setWidth_eq, ↓reduceIte]
  rw [decodeWord, s]; rfl

theorem Roundtrip.issueCpSync (gd : Guard) (rd : Reg) (ra : Reg) : Roundtrip.Statement (.issueCpSync gd rd ra) := by
  intro w hw h
  have hw : (rd.plain && ra.plain) = true := hw
  simp only [Bool.and_eq_true] at hw
  obtain ⟨b21_5, f, r⟩ := word_reads 0x80000102 gd [(rd.code, 17, 4), (ra.code, 13, 4)] [(17, 4), (13, 4)] h rfl rfl (by decide) ⟨rd.code_lt, ra.code_lt, trivial⟩
  obtain ⟨b17_4, b13_4, -⟩ := f
  have m := r 26 6 (x := 32) (by decide)
  have b0_9 : bits w.toNat 0 9 = 258 := r 0 9 (by decide)
  have b9_4 : bits w.toNat 9 4 = 0 := r 9 4 (by decide)
  have s : decodeForm w.toNat = .ok (.base (.issueCpSync gd rd ra)) := by
    unfold decodeForm; rw [m]; change decIssue w.toNat _ = _
    refine Eq.trans (b := zero (bits w.toNat 9 4) (do let rd ← reg (bits w.toNat 17 4); let ra ← reg (bits w.toNat 13 4); pure (.base (.issueCpSync (BitVec.ofNat 5 (bits w.toNat 21 5)) rd ra)))) (by unfold decIssue; rw [b0_9]; rfl) ?_
    simp only [b21_5, b9_4, b17_4, b13_4, zero, bind, Except.bind, pure, Except.pure, reg_code hw.1, reg_code hw.2, BitVec.ofNat_toNat, BitVec.setWidth_eq, ↓reduceIte]
  rw [decodeWord, s]; rfl

theorem Roundtrip.issueCl (gd : Guard) (rd : Reg) (ra : Reg) : Roundtrip.Statement (.issueCl gd rd ra) := by
  intro w hw h
  have hw : (rd.plain && ra.plain) = true := hw
  simp only [Bool.and_eq_true] at hw
  obtain ⟨b21_5, f, r⟩ := word_reads 0x80000003 gd [(rd.code, 17, 4), (ra.code, 13, 4)] [(17, 4), (13, 4)] h rfl rfl (by decide) ⟨rd.code_lt, ra.code_lt, trivial⟩
  obtain ⟨b17_4, b13_4, -⟩ := f
  have m := r 26 6 (x := 32) (by decide)
  have b0_9 : bits w.toNat 0 9 = 3 := r 0 9 (by decide)
  have b9_4 : bits w.toNat 9 4 = 0 := r 9 4 (by decide)
  have s : decodeForm w.toNat = .ok (.base (.issueCl gd rd ra)) := by
    unfold decodeForm; rw [m]; change decIssue w.toNat _ = _
    refine Eq.trans (b := zero (bits w.toNat 9 4) (do let rd ← reg (bits w.toNat 17 4); let ra ← reg (bits w.toNat 13 4); pure (.base (.issueCl (BitVec.ofNat 5 (bits w.toNat 21 5)) rd ra)))) (by unfold decIssue; rw [b0_9]; rfl) ?_
    simp only [b21_5, b9_4, b17_4, b13_4, zero, bind, Except.bind, pure, Except.pure, reg_code hw.1, reg_code hw.2, BitVec.ofNat_toNat, BitVec.setWidth_eq, ↓reduceIte]
  rw [decodeWord, s]; rfl

theorem Roundtrip.issueClSync (gd : Guard) (rd : Reg) (ra : Reg) : Roundtrip.Statement (.issueClSync gd rd ra) := by
  intro w hw h
  have hw : (rd.plain && ra.plain) = true := hw
  simp only [Bool.and_eq_true] at hw
  obtain ⟨b21_5, f, r⟩ := word_reads 0x80000103 gd [(rd.code, 17, 4), (ra.code, 13, 4)] [(17, 4), (13, 4)] h rfl rfl (by decide) ⟨rd.code_lt, ra.code_lt, trivial⟩
  obtain ⟨b17_4, b13_4, -⟩ := f
  have m := r 26 6 (x := 32) (by decide)
  have b0_9 : bits w.toNat 0 9 = 259 := r 0 9 (by decide)
  have b9_4 : bits w.toNat 9 4 = 0 := r 9 4 (by decide)
  have s : decodeForm w.toNat = .ok (.base (.issueClSync gd rd ra)) := by
    unfold decodeForm; rw [m]; change decIssue w.toNat _ = _
    refine Eq.trans (b := zero (bits w.toNat 9 4) (do let rd ← reg (bits w.toNat 17 4); let ra ← reg (bits w.toNat 13 4); pure (.base (.issueClSync (BitVec.ofNat 5 (bits w.toNat 21 5)) rd ra)))) (by unfold decIssue; rw [b0_9]; rfl) ?_
    simp only [b21_5, b9_4, b17_4, b13_4, zero, bind, Except.bind, pure, Except.pure, reg_code hw.1, reg_code hw.2, BitVec.ofNat_toNat, BitVec.setWidth_eq, ↓reduceIte]
  rw [decodeWord, s]; rfl

theorem Roundtrip.waitj (gd : Guard) (ra : Reg) : Roundtrip.Statement (.waitj gd ra) := by
  intro w hw h
  have hw : (ra.plain) = true := hw
  obtain ⟨b21_5, f, r⟩ := word_reads 0x80000010 gd [(ra.code, 13, 4)] [(13, 4)] h rfl rfl (by decide) ⟨ra.code_lt, trivial⟩
  obtain ⟨b13_4, -⟩ := f
  have m := r 26 6 (x := 32) (by decide)
  have b0_9 : bits w.toNat 0 9 = 16 := r 0 9 (by decide)
  have b9_4 : bits w.toNat 9 4 = 0 := r 9 4 (by decide)
  have b17_4 : bits w.toNat 17 4 = 0 := r 17 4 (by decide)
  have s : decodeForm w.toNat = .ok (.base (.waitj gd ra)) := by
    unfold decodeForm; rw [m]; change decIssue w.toNat _ = _
    refine Eq.trans (b := zero (bits w.toNat 9 4 + bits w.toNat 17 4) (do let ra ← reg (bits w.toNat 13 4); pure (.base (.waitj (BitVec.ofNat 5 (bits w.toNat 21 5)) ra)))) (by unfold decIssue; rw [b0_9]; rfl) ?_
    simp only [b21_5, b9_4, b17_4, b13_4, zero, bind, Except.bind, pure, Except.pure, reg_code hw, BitVec.ofNat_toNat, BitVec.setWidth_eq, ↓reduceIte]
  rw [decodeWord, s]; rfl

theorem Roundtrip.pollj (gd : Guard) (rd : Pred) (ra : Reg) : Roundtrip.Statement (.pollj gd rd ra) := by
  intro w hw h
  have hw : (ra.plain) = true := hw
  obtain ⟨b21_5, f, r⟩ := word_reads 0x80000011 gd [(rd.toNat, 17, 4), (ra.code, 13, 4)] [(17, 4), (13, 4)] h rfl rfl (by decide) ⟨rd.isLt, ra.code_lt, trivial⟩
  obtain ⟨b17_4, b13_4, -⟩ := f
  have m := r 26 6 (x := 32) (by decide)
  have b0_9 : bits w.toNat 0 9 = 17 := r 0 9 (by decide)
  have b9_4 : bits w.toNat 9 4 = 0 := r 9 4 (by decide)
  have s : decodeForm w.toNat = .ok (.base (.pollj gd rd ra)) := by
    unfold decodeForm; rw [m]; change decIssue w.toNat _ = _
    refine Eq.trans (b := zero (bits w.toNat 9 4) (do let rd := BitVec.ofNat 4 (bits w.toNat 17 4); let ra ← reg (bits w.toNat 13 4); pure (.base (.pollj (BitVec.ofNat 5 (bits w.toNat 21 5)) rd ra)))) (by unfold decIssue; rw [b0_9]; rfl) ?_
    simp only [b21_5, b9_4, b17_4, b13_4, zero, bind, Except.bind, pure, Except.pure, reg_code hw, BitVec.ofNat_toNat, BitVec.setWidth_eq, ↓reduceIte]
  rw [decodeWord, s]; rfl

theorem Roundtrip.jdrop (gd : Guard) (ra : Reg) : Roundtrip.Statement (.jdrop gd ra) := by
  intro w hw h
  have hw : (ra.plain) = true := hw
  obtain ⟨b21_5, f, r⟩ := word_reads 0x80000012 gd [(ra.code, 13, 4)] [(13, 4)] h rfl rfl (by decide) ⟨ra.code_lt, trivial⟩
  obtain ⟨b13_4, -⟩ := f
  have m := r 26 6 (x := 32) (by decide)
  have b0_9 : bits w.toNat 0 9 = 18 := r 0 9 (by decide)
  have b9_4 : bits w.toNat 9 4 = 0 := r 9 4 (by decide)
  have b17_4 : bits w.toNat 17 4 = 0 := r 17 4 (by decide)
  have s : decodeForm w.toNat = .ok (.base (.jdrop gd ra)) := by
    unfold decodeForm; rw [m]; change decIssue w.toNat _ = _
    refine Eq.trans (b := zero (bits w.toNat 9 4 + bits w.toNat 17 4) (do let ra ← reg (bits w.toNat 13 4); pure (.base (.jdrop (BitVec.ofNat 5 (bits w.toNat 21 5)) ra)))) (by unfold decIssue; rw [b0_9]; rfl) ?_
    simp only [b21_5, b9_4, b17_4, b13_4, zero, bind, Except.bind, pure, Except.pure, reg_code hw, BitVec.ofNat_toNat, BitVec.setWidth_eq, ↓reduceIte]
  rw [decodeWord, s]; rfl

theorem Roundtrip.fmtLd (gd : Guard) (ra : Reg) : Roundtrip.Statement (.fmtLd gd ra) := by
  intro w hw h
  have hw : (ra.plain) = true := hw
  obtain ⟨b21_5, f, r⟩ := word_reads 0x84000000 gd [(ra.code, 13, 4)] [(13, 4)] h rfl rfl (by decide) ⟨ra.code_lt, trivial⟩
  obtain ⟨b13_4, -⟩ := f
  have m := r 26 6 (x := 33) (by decide)
  have b0_9 : bits w.toNat 0 9 = 0 := r 0 9 (by decide)
  have b9_4 : bits w.toNat 9 4 = 0 := r 9 4 (by decide)
  have b17_4 : bits w.toNat 17 4 = 0 := r 17 4 (by decide)
  have s : decodeForm w.toNat = .ok (.base (.fmtLd gd ra)) := by
    unfold decodeForm; rw [m]; change decFmt w.toNat _ = _
    refine Eq.trans (b := zero (bits w.toNat 9 4 + bits w.toNat 17 4) (do let ra ← reg (bits w.toNat 13 4); pure (.base (.fmtLd (BitVec.ofNat 5 (bits w.toNat 21 5)) ra)))) (by unfold decFmt; rw [b0_9]; rfl) ?_
    simp only [b21_5, b9_4, b17_4, b13_4, zero, bind, Except.bind, pure, Except.pure, reg_code hw, BitVec.ofNat_toNat, BitVec.setWidth_eq, ↓reduceIte]
  rw [decodeWord, s]; rfl

theorem Roundtrip.spawn (gd : Guard) (rd : Reg) (ra : Reg) (rb : Reg) : Roundtrip.Statement (.spawn gd rd ra rb) := by
  intro w hw h
  have hw : (rd.plain && ra.plain && rb.plain) = true := hw
  simp only [Bool.and_eq_true] at hw
  obtain ⟨b21_5, f, r⟩ := word_reads 0x90000000 gd [(rd.code, 17, 4), (ra.code, 13, 4), (rb.code, 9, 4)] [(17, 4), (13, 4), (9, 4)] h rfl rfl (by decide) ⟨rd.code_lt, ra.code_lt, rb.code_lt, trivial⟩
  obtain ⟨b17_4, b13_4, b9_4, -⟩ := f
  have m := r 26 6 (x := 36) (by decide)
  have b0_9 : bits w.toNat 0 9 = 0 := r 0 9 (by decide)
  have s : decodeForm w.toNat = .ok (.base (.spawn gd rd ra rb)) := by
    unfold decodeForm; rw [m]; change decThread w.toNat _ = _
    refine Eq.trans (b := (do let rd ← reg (bits w.toNat 17 4); let ra ← reg (bits w.toNat 13 4); let rb ← reg (bits w.toNat 9 4); pure (.base (.spawn (BitVec.ofNat 5 (bits w.toNat 21 5)) rd ra rb)))) (by unfold decThread; rw [b0_9]; rfl) ?_
    simp only [b21_5, b17_4, b13_4, b9_4, bind, Except.bind, pure, Except.pure, reg_code hw.1.1, reg_code hw.1.2, reg_code hw.2, BitVec.ofNat_toNat, BitVec.setWidth_eq]
  rw [decodeWord, s]; rfl

theorem Roundtrip.migr (gd : Guard) (ra : Reg) : Roundtrip.Statement (.migr gd ra) := by
  intro w hw h
  have hw : (ra.plain) = true := hw
  obtain ⟨b21_5, f, r⟩ := word_reads 0x90000001 gd [(ra.code, 13, 4)] [(13, 4)] h rfl rfl (by decide) ⟨ra.code_lt, trivial⟩
  obtain ⟨b13_4, -⟩ := f
  have m := r 26 6 (x := 36) (by decide)
  have b0_9 : bits w.toNat 0 9 = 1 := r 0 9 (by decide)
  have b9_4 : bits w.toNat 9 4 = 0 := r 9 4 (by decide)
  have b17_4 : bits w.toNat 17 4 = 0 := r 17 4 (by decide)
  have s : decodeForm w.toNat = .ok (.base (.migr gd ra)) := by
    unfold decodeForm; rw [m]; change decThread w.toNat _ = _
    refine Eq.trans (b := zero (bits w.toNat 9 4 + bits w.toNat 17 4) (do let ra ← reg (bits w.toNat 13 4); pure (.base (.migr (BitVec.ofNat 5 (bits w.toNat 21 5)) ra)))) (by unfold decThread; rw [b0_9]; rfl) ?_
    simp only [b21_5, b9_4, b17_4, b13_4, zero, bind, Except.bind, pure, Except.pure, reg_code hw, BitVec.ofNat_toNat, BitVec.setWidth_eq, ↓reduceIte]
  rw [decodeWord, s]; rfl

theorem Roundtrip.exit (gd : Guard) : Roundtrip.Statement (.exit gd) := by
  intro w _ h
  obtain ⟨b21_5, -, r⟩ := word_reads 0x90000002 gd [] [] h rfl rfl (by decide) trivial
  have m := r 26 6 (x := 36) (by decide)
  have b0_9 : bits w.toNat 0 9 = 2 := r 0 9 (by decide)
  have b9_12 : bits w.toNat 9 12 = 0 := r 9 12 (by decide)
  have s : decodeForm w.toNat = .ok (.base (.exit gd)) := by
    unfold decodeForm; rw [m]; change decThread w.toNat _ = _
    refine Eq.trans (b := zero (bits w.toNat 9 12) (do pure (.base (.exit (BitVec.ofNat 5 (bits w.toNat 21 5)))))) (by unfold decThread; rw [b0_9]; rfl) ?_
    simp only [b21_5, b9_12, zero, pure, Except.pure, BitVec.ofNat_toNat, BitVec.setWidth_eq, ↓reduceIte]
  rw [decodeWord, s]; rfl

theorem Roundtrip.yield (gd : Guard) : Roundtrip.Statement (.yield gd) := by
  intro w _ h
  obtain ⟨b21_5, -, r⟩ := word_reads 0x90000003 gd [] [] h rfl rfl (by decide) trivial
  have m := r 26 6 (x := 36) (by decide)
  have b0_9 : bits w.toNat 0 9 = 3 := r 0 9 (by decide)
  have b9_12 : bits w.toNat 9 12 = 0 := r 9 12 (by decide)
  have s : decodeForm w.toNat = .ok (.base (.yield gd)) := by
    unfold decodeForm; rw [m]; change decThread w.toNat _ = _
    refine Eq.trans (b := zero (bits w.toNat 9 12) (do pure (.base (.yield (BitVec.ofNat 5 (bits w.toNat 21 5)))))) (by unfold decThread; rw [b0_9]; rfl) ?_
    simp only [b21_5, b9_12, zero, pure, Except.pure, BitVec.ofNat_toNat, BitVec.setWidth_eq, ↓reduceIte]
  rw [decodeWord, s]; rfl

theorem Roundtrip.lnch (gd : Guard) (rd : Reg) (ra : Reg) (rb : Reg) : Roundtrip.Statement (.lnch gd rd ra rb) := by
  intro w hw h
  have hw : (rd.plain && ra.plain && rb.plain) = true := hw
  simp only [Bool.and_eq_true] at hw
  obtain ⟨b21_5, f, r⟩ := word_reads 0x90000004 gd [(rd.code, 17, 4), (ra.code, 13, 4), (rb.code, 9, 4)] [(17, 4), (13, 4), (9, 4)] h rfl rfl (by decide) ⟨rd.code_lt, ra.code_lt, rb.code_lt, trivial⟩
  obtain ⟨b17_4, b13_4, b9_4, -⟩ := f
  have m := r 26 6 (x := 36) (by decide)
  have b0_9 : bits w.toNat 0 9 = 4 := r 0 9 (by decide)
  have s : decodeForm w.toNat = .ok (.base (.lnch gd rd ra rb)) := by
    unfold decodeForm; rw [m]; change decThread w.toNat _ = _
    refine Eq.trans (b := (do let rd ← reg (bits w.toNat 17 4); let ra ← reg (bits w.toNat 13 4); let rb ← reg (bits w.toNat 9 4); pure (.base (.lnch (BitVec.ofNat 5 (bits w.toNat 21 5)) rd ra rb)))) (by unfold decThread; rw [b0_9]; rfl) ?_
    simp only [b21_5, b17_4, b13_4, b9_4, bind, Except.bind, pure, Except.pure, reg_code hw.1.1, reg_code hw.1.2, reg_code hw.2, BitVec.ofNat_toNat, BitVec.setWidth_eq]
  rw [decodeWord, s]; rfl

theorem Roundtrip.gang2 (gd : Guard) : Roundtrip.Statement (.gang2 gd) := by
  intro w _ h
  obtain ⟨b21_5, -, r⟩ := word_reads 0x94000000 gd [] [] h rfl rfl (by decide) trivial
  have m := r 26 6 (x := 37) (by decide)
  have b0_9 : bits w.toNat 0 9 = 0 := r 0 9 (by decide)
  have b9_12 : bits w.toNat 9 12 = 0 := r 9 12 (by decide)
  have s : decodeForm w.toNat = .ok (.base (.gang2 gd)) := by
    unfold decodeForm; rw [m]; change decGang w.toNat _ = _
    refine Eq.trans (b := zero (bits w.toNat 9 12) (do pure (.base (.gang2 (BitVec.ofNat 5 (bits w.toNat 21 5)))))) (by unfold decGang; rw [b0_9]; rfl) ?_
    simp only [b21_5, b9_12, zero, pure, Except.pure, BitVec.ofNat_toNat, BitVec.setWidth_eq, ↓reduceIte]
  rw [decodeWord, s]; rfl

theorem Roundtrip.gang4 (gd : Guard) : Roundtrip.Statement (.gang4 gd) := by
  intro w _ h
  obtain ⟨b21_5, -, r⟩ := word_reads 0x94000001 gd [] [] h rfl rfl (by decide) trivial
  have m := r 26 6 (x := 37) (by decide)
  have b0_9 : bits w.toNat 0 9 = 1 := r 0 9 (by decide)
  have b9_12 : bits w.toNat 9 12 = 0 := r 9 12 (by decide)
  have s : decodeForm w.toNat = .ok (.extra (.gang4 gd)) := by
    unfold decodeForm; rw [m]; change decGang w.toNat _ = _
    refine Eq.trans (b := zero (bits w.toNat 9 12) (do pure (.extra (.gang4 (BitVec.ofNat 5 (bits w.toNat 21 5)))))) (by unfold decGang; rw [b0_9]; rfl) ?_
    simp only [b21_5, b9_12, zero, pure, Except.pure, BitVec.ofNat_toNat, BitVec.setWidth_eq, ↓reduceIte]
  rw [decodeWord, s]; rfl

theorem Roundtrip.gang8 (gd : Guard) : Roundtrip.Statement (.gang8 gd) := by
  intro w _ h
  obtain ⟨b21_5, -, r⟩ := word_reads 0x94000002 gd [] [] h rfl rfl (by decide) trivial
  have m := r 26 6 (x := 37) (by decide)
  have b0_9 : bits w.toNat 0 9 = 2 := r 0 9 (by decide)
  have b9_12 : bits w.toNat 9 12 = 0 := r 9 12 (by decide)
  have s : decodeForm w.toNat = .ok (.extra (.gang8 gd)) := by
    unfold decodeForm; rw [m]; change decGang w.toNat _ = _
    refine Eq.trans (b := zero (bits w.toNat 9 12) (do pure (.extra (.gang8 (BitVec.ofNat 5 (bits w.toNat 21 5)))))) (by unfold decGang; rw [b0_9]; rfl) ?_
    simp only [b21_5, b9_12, zero, pure, Except.pure, BitVec.ofNat_toNat, BitVec.setWidth_eq, ↓reduceIte]
  rw [decodeWord, s]; rfl

theorem Roundtrip.ungang (gd : Guard) : Roundtrip.Statement (.ungang gd) := by
  intro w _ h
  obtain ⟨b21_5, -, r⟩ := word_reads 0x94000003 gd [] [] h rfl rfl (by decide) trivial
  have m := r 26 6 (x := 37) (by decide)
  have b0_9 : bits w.toNat 0 9 = 3 := r 0 9 (by decide)
  have b9_12 : bits w.toNat 9 12 = 0 := r 9 12 (by decide)
  have s : decodeForm w.toNat = .ok (.extra (.ungang gd)) := by
    unfold decodeForm; rw [m]; change decGang w.toNat _ = _
    refine Eq.trans (b := zero (bits w.toNat 9 12) (do pure (.extra (.ungang (BitVec.ofNat 5 (bits w.toNat 21 5)))))) (by unfold decGang; rw [b0_9]; rfl) ?_
    simp only [b21_5, b9_12, zero, pure, Except.pure, BitVec.ofNat_toNat, BitVec.setWidth_eq, ↓reduceIte]
  rw [decodeWord, s]; rfl

theorem Roundtrip.amSend (gd : Guard) (ra : Reg) (rb : Reg) : Roundtrip.Statement (.amSend gd ra rb) := by
  intro w hw h
  have hw : (ra.plain && rb.plain) = true := hw
  simp only [Bool.and_eq_true] at hw
  obtain ⟨b21_5, f, r⟩ := word_reads 0x98000000 gd [(ra.code, 13, 4), (rb.code, 9, 4)] [(13, 4), (9, 4)] h rfl rfl (by decide) ⟨ra.code_lt, rb.code_lt, trivial⟩
  obtain ⟨b13_4, b9_4, -⟩ := f
  have m := r 26 6 (x := 38) (by decide)
  have b0_9 : bits w.toNat 0 9 = 0 := r 0 9 (by decide)
  have b17_4 : bits w.toNat 17 4 = 0 := r 17 4 (by decide)
  have s : decodeForm w.toNat = .ok (.extra (.amSend gd ra rb)) := by
    unfold decodeForm; rw [m]; change decComm w.toNat _ = _
    refine Eq.trans (b := zero (bits w.toNat 17 4) (do let ra ← reg (bits w.toNat 13 4); let rb ← reg (bits w.toNat 9 4); pure (.extra (.amSend (BitVec.ofNat 5 (bits w.toNat 21 5)) ra rb)))) (by unfold decComm; rw [b0_9]; rfl) ?_
    simp only [b21_5, b17_4, b13_4, b9_4, zero, bind, Except.bind, pure, Except.pure, reg_code hw.1, reg_code hw.2, BitVec.ofNat_toNat, BitVec.setWidth_eq, ↓reduceIte]
  rw [decodeWord, s]; rfl

theorem Roundtrip.gstore (gd : Guard) (ra : Reg) (rb : Reg) : Roundtrip.Statement (.gstore gd ra rb) := by
  intro w hw h
  have hw : (ra.plain && rb.plain) = true := hw
  simp only [Bool.and_eq_true] at hw
  obtain ⟨b21_5, f, r⟩ := word_reads 0x98000001 gd [(ra.code, 13, 4), (rb.code, 9, 4)] [(13, 4), (9, 4)] h rfl rfl (by decide) ⟨ra.code_lt, rb.code_lt, trivial⟩
  obtain ⟨b13_4, b9_4, -⟩ := f
  have m := r 26 6 (x := 38) (by decide)
  have b0_9 : bits w.toNat 0 9 = 1 := r 0 9 (by decide)
  have b17_4 : bits w.toNat 17 4 = 0 := r 17 4 (by decide)
  have s : decodeForm w.toNat = .ok (.extra (.gstore gd ra rb)) := by
    unfold decodeForm; rw [m]; change decComm w.toNat _ = _
    refine Eq.trans (b := zero (bits w.toNat 17 4) (do let ra ← reg (bits w.toNat 13 4); let rb ← reg (bits w.toNat 9 4); pure (.extra (.gstore (BitVec.ofNat 5 (bits w.toNat 21 5)) ra rb)))) (by unfold decComm; rw [b0_9]; rfl) ?_
    simp only [b21_5, b17_4, b13_4, b9_4, zero, bind, Except.bind, pure, Except.pure, reg_code hw.1, reg_code hw.2, BitVec.ofNat_toNat, BitVec.setWidth_eq, ↓reduceIte]
  rw [decodeWord, s]; rfl

theorem Roundtrip.probeStart (gd : Guard) (ra : Reg) : Roundtrip.Statement (.probeStart gd ra) := by
  intro w hw h
  have hw : (ra.plain) = true := hw
  obtain ⟨b21_5, f, r⟩ := word_reads 0x98000002 gd [(ra.code, 13, 4)] [(13, 4)] h rfl rfl (by decide) ⟨ra.code_lt, trivial⟩
  obtain ⟨b13_4, -⟩ := f
  have m := r 26 6 (x := 38) (by decide)
  have b0_9 : bits w.toNat 0 9 = 2 := r 0 9 (by decide)
  have b9_4 : bits w.toNat 9 4 = 0 := r 9 4 (by decide)
  have b17_4 : bits w.toNat 17 4 = 0 := r 17 4 (by decide)
  have s : decodeForm w.toNat = .ok (.extra (.probeStart gd ra)) := by
    unfold decodeForm; rw [m]; change decComm w.toNat _ = _
    refine Eq.trans (b := zero (bits w.toNat 9 4 + bits w.toNat 17 4) (do let ra ← reg (bits w.toNat 13 4); pure (.extra (.probeStart (BitVec.ofNat 5 (bits w.toNat 21 5)) ra)))) (by unfold decComm; rw [b0_9]; rfl) ?_
    simp only [b21_5, b9_4, b17_4, b13_4, zero, bind, Except.bind, pure, Except.pure, reg_code hw, BitVec.ofNat_toNat, BitVec.setWidth_eq, ↓reduceIte]
  rw [decodeWord, s]; rfl

theorem Roundtrip.nAlloc (gd : Guard) (rd : Reg) (ra : Reg) : Roundtrip.Statement (.nAlloc gd rd ra) := by
  intro w hw h
  have hw : (rd.plain && ra.plain) = true := hw
  simp only [Bool.and_eq_true] at hw
  obtain ⟨b21_5, f, r⟩ := word_reads 0xA0000000 gd [(rd.code, 17, 4), (ra.code, 13, 4)] [(17, 4), (13, 4)] h rfl rfl (by decide) ⟨rd.code_lt, ra.code_lt, trivial⟩
  obtain ⟨b17_4, b13_4, -⟩ := f
  have m := r 26 6 (x := 40) (by decide)
  have b0_9 : bits w.toNat 0 9 = 0 := r 0 9 (by decide)
  have b9_4 : bits w.toNat 9 4 = 0 := r 9 4 (by decide)
  have s : decodeForm w.toNat = .ok (.extra (.nAlloc gd rd ra)) := by
    unfold decodeForm; rw [m]; change decNet w.toNat _ = _
    refine Eq.trans (b := zero (bits w.toNat 9 4) (do let rd ← reg (bits w.toNat 17 4); let ra ← reg (bits w.toNat 13 4); pure (.extra (.nAlloc (BitVec.ofNat 5 (bits w.toNat 21 5)) rd ra)))) (by unfold decNet; rw [b0_9]; rfl) ?_
    simp only [b21_5, b9_4, b17_4, b13_4, zero, bind, Except.bind, pure, Except.pure, reg_code hw.1, reg_code hw.2, BitVec.ofNat_toNat, BitVec.setWidth_eq, ↓reduceIte]
  rw [decodeWord, s]; rfl

theorem Roundtrip.nFree (gd : Guard) (ra : Reg) : Roundtrip.Statement (.nFree gd ra) := by
  intro w hw h
  have hw : (ra.plain) = true := hw
  obtain ⟨b21_5, f, r⟩ := word_reads 0xA0000001 gd [(ra.code, 13, 4)] [(13, 4)] h rfl rfl (by decide) ⟨ra.code_lt, trivial⟩
  obtain ⟨b13_4, -⟩ := f
  have m := r 26 6 (x := 40) (by decide)
  have b0_9 : bits w.toNat 0 9 = 1 := r 0 9 (by decide)
  have b9_4 : bits w.toNat 9 4 = 0 := r 9 4 (by decide)
  have b17_4 : bits w.toNat 17 4 = 0 := r 17 4 (by decide)
  have s : decodeForm w.toNat = .ok (.extra (.nFree gd ra)) := by
    unfold decodeForm; rw [m]; change decNet w.toNat _ = _
    refine Eq.trans (b := zero (bits w.toNat 9 4 + bits w.toNat 17 4) (do let ra ← reg (bits w.toNat 13 4); pure (.extra (.nFree (BitVec.ofNat 5 (bits w.toNat 21 5)) ra)))) (by unfold decNet; rw [b0_9]; rfl) ?_
    simp only [b21_5, b9_4, b17_4, b13_4, zero, bind, Except.bind, pure, Except.pure, reg_code hw, BitVec.ofNat_toNat, BitVec.setWidth_eq, ↓reduceIte]
  rw [decodeWord, s]; rfl

theorem Roundtrip.nLink (gd : Guard) (ra : Reg) (rb : Reg) : Roundtrip.Statement (.nLink gd ra rb) := by
  intro w hw h
  have hw : (ra.plain && rb.plain) = true := hw
  simp only [Bool.and_eq_true] at hw
  obtain ⟨b21_5, f, r⟩ := word_reads 0xA0000002 gd [(ra.code, 13, 4), (rb.code, 9, 4)] [(13, 4), (9, 4)] h rfl rfl (by decide) ⟨ra.code_lt, rb.code_lt, trivial⟩
  obtain ⟨b13_4, b9_4, -⟩ := f
  have m := r 26 6 (x := 40) (by decide)
  have b0_9 : bits w.toNat 0 9 = 2 := r 0 9 (by decide)
  have b17_4 : bits w.toNat 17 4 = 0 := r 17 4 (by decide)
  have s : decodeForm w.toNat = .ok (.extra (.nLink gd ra rb)) := by
    unfold decodeForm; rw [m]; change decNet w.toNat _ = _
    refine Eq.trans (b := zero (bits w.toNat 17 4) (do let ra ← reg (bits w.toNat 13 4); let rb ← reg (bits w.toNat 9 4); pure (.extra (.nLink (BitVec.ofNat 5 (bits w.toNat 21 5)) ra rb)))) (by unfold decNet; rw [b0_9]; rfl) ?_
    simp only [b21_5, b17_4, b13_4, b9_4, zero, bind, Except.bind, pure, Except.pure, reg_code hw.1, reg_code hw.2, BitVec.ofNat_toNat, BitVec.setWidth_eq, ↓reduceIte]
  rw [decodeWord, s]; rfl

theorem Roundtrip.nRelink (gd : Guard) (rd : Reg) (ra : Reg) (rb : Reg) : Roundtrip.Statement (.nRelink gd rd ra rb) := by
  intro w hw h
  have hw : (rd.plain && ra.plain && rb.plain) = true := hw
  simp only [Bool.and_eq_true] at hw
  obtain ⟨b21_5, f, r⟩ := word_reads 0xA0000003 gd [(rd.code, 17, 4), (ra.code, 13, 4), (rb.code, 9, 4)] [(17, 4), (13, 4), (9, 4)] h rfl rfl (by decide) ⟨rd.code_lt, ra.code_lt, rb.code_lt, trivial⟩
  obtain ⟨b17_4, b13_4, b9_4, -⟩ := f
  have m := r 26 6 (x := 40) (by decide)
  have b0_9 : bits w.toNat 0 9 = 3 := r 0 9 (by decide)
  have s : decodeForm w.toNat = .ok (.extra (.nRelink gd rd ra rb)) := by
    unfold decodeForm; rw [m]; change decNet w.toNat _ = _
    refine Eq.trans (b := (do let rd ← reg (bits w.toNat 17 4); let ra ← reg (bits w.toNat 13 4); let rb ← reg (bits w.toNat 9 4); pure (.extra (.nRelink (BitVec.ofNat 5 (bits w.toNat 21 5)) rd ra rb)))) (by unfold decNet; rw [b0_9]; rfl) ?_
    simp only [b21_5, b17_4, b13_4, b9_4, bind, Except.bind, pure, Except.pure, reg_code hw.1.1, reg_code hw.1.2, reg_code hw.2, BitVec.ofNat_toNat, BitVec.setWidth_eq]
  rw [decodeWord, s]; rfl

theorem Roundtrip.nRead (gd : Guard) (rd : Reg) (ra : Reg) : Roundtrip.Statement (.nRead gd rd ra) := by
  intro w hw h
  have hw : (rd.plain && ra.plain) = true := hw
  simp only [Bool.and_eq_true] at hw
  obtain ⟨b21_5, f, r⟩ := word_reads 0xA0000004 gd [(rd.code, 17, 4), (ra.code, 13, 4)] [(17, 4), (13, 4)] h rfl rfl (by decide) ⟨rd.code_lt, ra.code_lt, trivial⟩
  obtain ⟨b17_4, b13_4, -⟩ := f
  have m := r 26 6 (x := 40) (by decide)
  have b0_9 : bits w.toNat 0 9 = 4 := r 0 9 (by decide)
  have b9_4 : bits w.toNat 9 4 = 0 := r 9 4 (by decide)
  have s : decodeForm w.toNat = .ok (.extra (.nRead gd rd ra)) := by
    unfold decodeForm; rw [m]; change decNet w.toNat _ = _
    refine Eq.trans (b := zero (bits w.toNat 9 4) (do let rd ← reg (bits w.toNat 17 4); let ra ← reg (bits w.toNat 13 4); pure (.extra (.nRead (BitVec.ofNat 5 (bits w.toNat 21 5)) rd ra)))) (by unfold decNet; rw [b0_9]; rfl) ?_
    simp only [b21_5, b9_4, b17_4, b13_4, zero, bind, Except.bind, pure, Except.pure, reg_code hw.1, reg_code hw.2, BitVec.ofNat_toNat, BitVec.setWidth_eq, ↓reduceIte]
  rw [decodeWord, s]; rfl

theorem Roundtrip.pairPop (gd : Guard) (rd : Reg) : Roundtrip.Statement (.pairPop gd rd) := by
  intro w hw h
  have hw : (rd.plain) = true := hw
  obtain ⟨b21_5, f, r⟩ := word_reads 0xA0000005 gd [(rd.code, 17, 4)] [(17, 4)] h rfl rfl (by decide) ⟨rd.code_lt, trivial⟩
  obtain ⟨b17_4, -⟩ := f
  have m := r 26 6 (x := 40) (by decide)
  have b0_9 : bits w.toNat 0 9 = 5 := r 0 9 (by decide)
  have b9_8 : bits w.toNat 9 8 = 0 := r 9 8 (by decide)
  have s : decodeForm w.toNat = .ok (.extra (.pairPop gd rd)) := by
    unfold decodeForm; rw [m]; change decNet w.toNat _ = _
    refine Eq.trans (b := zero (bits w.toNat 9 8) (do let rd ← reg (bits w.toNat 17 4); pure (.extra (.pairPop (BitVec.ofNat 5 (bits w.toNat 21 5)) rd)))) (by unfold decNet; rw [b0_9]; rfl) ?_
    simp only [b21_5, b9_8, b17_4, zero, bind, Except.bind, pure, Except.pure, reg_code hw, BitVec.ofNat_toNat, BitVec.setWidth_eq, ↓reduceIte]
  rw [decodeWord, s]; rfl

theorem Roundtrip.pairPush (gd : Guard) (ra : Reg) (rb : Reg) : Roundtrip.Statement (.pairPush gd ra rb) := by
  intro w hw h
  have hw : (ra.plain && rb.plain) = true := hw
  simp only [Bool.and_eq_true] at hw
  obtain ⟨b21_5, f, r⟩ := word_reads 0xA0000006 gd [(ra.code, 13, 4), (rb.code, 9, 4)] [(13, 4), (9, 4)] h rfl rfl (by decide) ⟨ra.code_lt, rb.code_lt, trivial⟩
  obtain ⟨b13_4, b9_4, -⟩ := f
  have m := r 26 6 (x := 40) (by decide)
  have b0_9 : bits w.toNat 0 9 = 6 := r 0 9 (by decide)
  have b17_4 : bits w.toNat 17 4 = 0 := r 17 4 (by decide)
  have s : decodeForm w.toNat = .ok (.extra (.pairPush gd ra rb)) := by
    unfold decodeForm; rw [m]; change decNet w.toNat _ = _
    refine Eq.trans (b := zero (bits w.toNat 17 4) (do let ra ← reg (bits w.toNat 13 4); let rb ← reg (bits w.toNat 9 4); pure (.extra (.pairPush (BitVec.ofNat 5 (bits w.toNat 21 5)) ra rb)))) (by unfold decNet; rw [b0_9]; rfl) ?_
    simp only [b21_5, b17_4, b13_4, b9_4, zero, bind, Except.bind, pure, Except.pure, reg_code hw.1, reg_code hw.2, BitVec.ofNat_toNat, BitVec.setWidth_eq, ↓reduceIte]
  rw [decodeWord, s]; rfl

theorem Roundtrip.ruleLd (gd : Guard) (ra : Reg) : Roundtrip.Statement (.ruleLd gd ra) := by
  intro w hw h
  have hw : (ra.plain) = true := hw
  obtain ⟨b21_5, f, r⟩ := word_reads 0xA0000007 gd [(ra.code, 13, 4)] [(13, 4)] h rfl rfl (by decide) ⟨ra.code_lt, trivial⟩
  obtain ⟨b13_4, -⟩ := f
  have m := r 26 6 (x := 40) (by decide)
  have b0_9 : bits w.toNat 0 9 = 7 := r 0 9 (by decide)
  have b9_4 : bits w.toNat 9 4 = 0 := r 9 4 (by decide)
  have b17_4 : bits w.toNat 17 4 = 0 := r 17 4 (by decide)
  have s : decodeForm w.toNat = .ok (.extra (.ruleLd gd ra)) := by
    unfold decodeForm; rw [m]; change decNet w.toNat _ = _
    refine Eq.trans (b := zero (bits w.toNat 9 4 + bits w.toNat 17 4) (do let ra ← reg (bits w.toNat 13 4); pure (.extra (.ruleLd (BitVec.ofNat 5 (bits w.toNat 21 5)) ra)))) (by unfold decNet; rw [b0_9]; rfl) ?_
    simp only [b21_5, b9_4, b17_4, b13_4, zero, bind, Except.bind, pure, Except.pure, reg_code hw, BitVec.ofNat_toNat, BitVec.setWidth_eq, ↓reduceIte]
  rw [decodeWord, s]; rfl

theorem Roundtrip.ruleGo (gd : Guard) (ra : Reg) : Roundtrip.Statement (.ruleGo gd ra) := by
  intro w hw h
  have hw : (ra.plain) = true := hw
  obtain ⟨b21_5, f, r⟩ := word_reads 0xA0000008 gd [(ra.code, 13, 4)] [(13, 4)] h rfl rfl (by decide) ⟨ra.code_lt, trivial⟩
  obtain ⟨b13_4, -⟩ := f
  have m := r 26 6 (x := 40) (by decide)
  have b0_9 : bits w.toNat 0 9 = 8 := r 0 9 (by decide)
  have b9_4 : bits w.toNat 9 4 = 0 := r 9 4 (by decide)
  have b17_4 : bits w.toNat 17 4 = 0 := r 17 4 (by decide)
  have s : decodeForm w.toNat = .ok (.extra (.ruleGo gd ra)) := by
    unfold decodeForm; rw [m]; change decNet w.toNat _ = _
    refine Eq.trans (b := zero (bits w.toNat 9 4 + bits w.toNat 17 4) (do let ra ← reg (bits w.toNat 13 4); pure (.extra (.ruleGo (BitVec.ofNat 5 (bits w.toNat 21 5)) ra)))) (by unfold decNet; rw [b0_9]; rfl) ?_
    simp only [b21_5, b9_4, b17_4, b13_4, zero, bind, Except.bind, pure, Except.pure, reg_code hw, BitVec.ofNat_toNat, BitVec.setWidth_eq, ↓reduceIte]
  rw [decodeWord, s]; rfl

theorem Roundtrip.srd (gd : Guard) (x : Reg) (n : SysReg) : Roundtrip.Statement (.srd gd x n) := by
  intro w hw h
  have hw : (x.plain) = true := hw
  obtain ⟨b21_5, f, r⟩ := word_reads 0xC0000000 gd [(x.code, 13, 4), (n.num, 1, 12)] [(13, 4), (1, 12)] h rfl rfl (by decide) ⟨x.code_lt, n.num_lt, trivial⟩
  obtain ⟨b13_4, b1_12, -⟩ := f
  have m := r 26 6 (x := 48) (by decide)
  have b19_2 : bits w.toNat 19 2 = 0 := r 19 2 (by decide)
  have b0_1 : bits w.toNat 0 1 = 0 := r 0 1 (by decide)
  have b17_2 : bits w.toNat 17 2 = 0 := r 17 2 (by decide)
  have s : decodeForm w.toNat = .ok (.extra (.srd gd x n)) := by
    unfold decodeForm; rw [m]; change decSys w.toNat _ = _
    refine Eq.trans (b := zero (bits w.toNat 0 1 + bits w.toNat 17 2) (do let x ← reg (bits w.toNat 13 4); pure (.extra (.srd (BitVec.ofNat 5 (bits w.toNat 21 5)) x n)))) (by unfold decSys; rw [b19_2, b1_12, ofNum_num]; rfl) ?_
    simp only [b21_5, b0_1, b17_2, b13_4, zero, bind, Except.bind, pure, Except.pure, reg_code hw, BitVec.ofNat_toNat, BitVec.setWidth_eq, ↓reduceIte]
  rw [decodeWord, s]; rfl

theorem Roundtrip.swr (gd : Guard) (x : Reg) (n : SysReg) : Roundtrip.Statement (.swr gd x n) := by
  intro w hw h
  have hw : (x.plain) = true := hw
  obtain ⟨b21_5, f, r⟩ := word_reads 0xC0080000 gd [(x.code, 13, 4), (n.num, 1, 12)] [(13, 4), (1, 12)] h rfl rfl (by decide) ⟨x.code_lt, n.num_lt, trivial⟩
  obtain ⟨b13_4, b1_12, -⟩ := f
  have m := r 26 6 (x := 48) (by decide)
  have b19_2 : bits w.toNat 19 2 = 1 := r 19 2 (by decide)
  have b0_1 : bits w.toNat 0 1 = 0 := r 0 1 (by decide)
  have b17_2 : bits w.toNat 17 2 = 0 := r 17 2 (by decide)
  have s : decodeForm w.toNat = .ok (.extra (.swr gd x n)) := by
    unfold decodeForm; rw [m]; change decSys w.toNat _ = _
    refine Eq.trans (b := zero (bits w.toNat 0 1 + bits w.toNat 17 2) (do let x ← reg (bits w.toNat 13 4); pure (.extra (.swr (BitVec.ofNat 5 (bits w.toNat 21 5)) x n)))) (by unfold decSys; rw [b19_2, b1_12, ofNum_num]; rfl) ?_
    simp only [b21_5, b0_1, b17_2, b13_4, zero, bind, Except.bind, pure, Except.pure, reg_code hw, BitVec.ofNat_toNat, BitVec.setWidth_eq, ↓reduceIte]
  rw [decodeWord, s]; rfl

theorem Roundtrip.trap (gd : Guard) (n : BitVec 8) : Roundtrip.Statement (.trap gd n) := by
  intro w _ h
  obtain ⟨b21_5, f, r⟩ := word_reads 0xC0100000 gd [(n.toNat, 1, 8)] [(1, 8)] h rfl rfl (by decide) ⟨n.isLt, trivial⟩
  obtain ⟨b1_8, -⟩ := f
  have m := r 26 6 (x := 48) (by decide)
  have b19_2 : bits w.toNat 19 2 = 2 := r 19 2 (by decide)
  have b1_12 := bits_split w.toNat 1 8 4
  rw [b1_8, r 9 4 (x := 0) (by decide)] at b1_12
  have b0_1 : bits w.toNat 0 1 = 0 := r 0 1 (by decide)
  have b9_10 : bits w.toNat 9 10 = 0 := r 9 10 (by decide)
  have s : decodeForm w.toNat = .ok (.extra (.trap gd n)) := by
    unfold decodeForm; rw [m]; change decSys w.toNat _ = _
    refine Eq.trans (b := zero (bits w.toNat 0 1 + bits w.toNat 9 10) (do let n := BitVec.ofNat 8 (bits w.toNat 1 8); pure (.extra (.trap (BitVec.ofNat 5 (bits w.toNat 21 5)) n)))) (by unfold decSys; rw [b19_2]; rfl) ?_
    simp only [b21_5, b0_1, b9_10, b1_8, zero, pure, Except.pure, BitVec.ofNat_toNat, BitVec.setWidth_eq, ↓reduceIte]
  rw [decodeWord, s]; rfl

theorem Roundtrip.eret (gd : Guard) : Roundtrip.Statement (.eret gd) := by
  intro w _ h
  obtain ⟨b21_5, -, r⟩ := word_reads 0xC0180000 gd [] [] h rfl rfl (by decide) trivial
  have m := r 26 6 (x := 48) (by decide)
  have b19_2 : bits w.toNat 19 2 = 3 := r 19 2 (by decide)
  have b1_12 : bits w.toNat 1 12 = 0 := r 1 12 (by decide)
  have b0_19 : bits w.toNat 0 19 = 0 := r 0 19 (by decide)
  have s : decodeForm w.toNat = .ok (.extra (.eret gd)) := by
    unfold decodeForm; rw [m]; change decSys w.toNat _ = _
    refine Eq.trans (b := zero (bits w.toNat 0 19) (do pure (.extra (.eret (BitVec.ofNat 5 (bits w.toNat 21 5)))))) (by unfold decSys; rw [b19_2]; rfl) ?_
    simp only [b21_5, b0_19, zero, pure, Except.pure, BitVec.ofNat_toNat, BitVec.setWidth_eq, ↓reduceIte]
  rw [decodeWord, s]; rfl

theorem Roundtrip.brk (gd : Guard) : Roundtrip.Statement (.brk gd) := by
  intro w _ h
  obtain ⟨b21_5, -, r⟩ := word_reads 0xC4000000 gd [] [] h rfl rfl (by decide) trivial
  have m := r 26 6 (x := 49) (by decide)
  have b0_9 : bits w.toNat 0 9 = 0 := r 0 9 (by decide)
  have b9_12 : bits w.toNat 9 12 = 0 := r 9 12 (by decide)
  have s : decodeForm w.toNat = .ok (.extra (.brk gd)) := by
    unfold decodeForm; rw [m]; change decDebug w.toNat _ = _
    refine Eq.trans (b := zero (bits w.toNat 9 12) (do pure (.extra (.brk (BitVec.ofNat 5 (bits w.toNat 21 5)))))) (by unfold decDebug; rw [b0_9]; rfl) ?_
    simp only [b21_5, b9_12, zero, pure, Except.pure, BitVec.ofNat_toNat, BitVec.setWidth_eq, ↓reduceIte]
  rw [decodeWord, s]; rfl

theorem Roundtrip.watch (gd : Guard) (ra : Reg) (rb : Reg) : Roundtrip.Statement (.watch gd ra rb) := by
  intro w hw h
  have hw : (ra.plain && rb.plain) = true := hw
  simp only [Bool.and_eq_true] at hw
  obtain ⟨b21_5, f, r⟩ := word_reads 0xC4000001 gd [(ra.code, 13, 4), (rb.code, 9, 4)] [(13, 4), (9, 4)] h rfl rfl (by decide) ⟨ra.code_lt, rb.code_lt, trivial⟩
  obtain ⟨b13_4, b9_4, -⟩ := f
  have m := r 26 6 (x := 49) (by decide)
  have b0_9 : bits w.toNat 0 9 = 1 := r 0 9 (by decide)
  have b17_4 : bits w.toNat 17 4 = 0 := r 17 4 (by decide)
  have s : decodeForm w.toNat = .ok (.extra (.watch gd ra rb)) := by
    unfold decodeForm; rw [m]; change decDebug w.toNat _ = _
    refine Eq.trans (b := zero (bits w.toNat 17 4) (do let ra ← reg (bits w.toNat 13 4); let rb ← reg (bits w.toNat 9 4); pure (.extra (.watch (BitVec.ofNat 5 (bits w.toNat 21 5)) ra rb)))) (by unfold decDebug; rw [b0_9]; rfl) ?_
    simp only [b21_5, b17_4, b13_4, b9_4, zero, bind, Except.bind, pure, Except.pure, reg_code hw.1, reg_code hw.2, BitVec.ofNat_toNat, BitVec.setWidth_eq, ↓reduceIte]
  rw [decodeWord, s]; rfl

theorem Roundtrip.chorusMark (gd : Guard) (ra : Reg) : Roundtrip.Statement (.chorusMark gd ra) := by
  intro w hw h
  have hw : (ra.plain) = true := hw
  obtain ⟨b21_5, f, r⟩ := word_reads 0xC4000002 gd [(ra.code, 13, 4)] [(13, 4)] h rfl rfl (by decide) ⟨ra.code_lt, trivial⟩
  obtain ⟨b13_4, -⟩ := f
  have m := r 26 6 (x := 49) (by decide)
  have b0_9 : bits w.toNat 0 9 = 2 := r 0 9 (by decide)
  have b9_4 : bits w.toNat 9 4 = 0 := r 9 4 (by decide)
  have b17_4 : bits w.toNat 17 4 = 0 := r 17 4 (by decide)
  have s : decodeForm w.toNat = .ok (.extra (.chorusMark gd ra)) := by
    unfold decodeForm; rw [m]; change decDebug w.toNat _ = _
    refine Eq.trans (b := zero (bits w.toNat 9 4 + bits w.toNat 17 4) (do let ra ← reg (bits w.toNat 13 4); pure (.extra (.chorusMark (BitVec.ofNat 5 (bits w.toNat 21 5)) ra)))) (by unfold decDebug; rw [b0_9]; rfl) ?_
    simp only [b21_5, b9_4, b17_4, b13_4, zero, bind, Except.bind, pure, Except.pure, reg_code hw, BitVec.ofNat_toNat, BitVec.setWidth_eq, ↓reduceIte]
  rw [decodeWord, s]; rfl

theorem Roundtrip.traceMark (gd : Guard) (ra : Reg) : Roundtrip.Statement (.traceMark gd ra) := by
  intro w hw h
  have hw : (ra.plain) = true := hw
  obtain ⟨b21_5, f, r⟩ := word_reads 0xC4000003 gd [(ra.code, 13, 4)] [(13, 4)] h rfl rfl (by decide) ⟨ra.code_lt, trivial⟩
  obtain ⟨b13_4, -⟩ := f
  have m := r 26 6 (x := 49) (by decide)
  have b0_9 : bits w.toNat 0 9 = 3 := r 0 9 (by decide)
  have b9_4 : bits w.toNat 9 4 = 0 := r 9 4 (by decide)
  have b17_4 : bits w.toNat 17 4 = 0 := r 17 4 (by decide)
  have s : decodeForm w.toNat = .ok (.extra (.traceMark gd ra)) := by
    unfold decodeForm; rw [m]; change decDebug w.toNat _ = _
    refine Eq.trans (b := zero (bits w.toNat 9 4 + bits w.toNat 17 4) (do let ra ← reg (bits w.toNat 13 4); pure (.extra (.traceMark (BitVec.ofNat 5 (bits w.toNat 21 5)) ra)))) (by unfold decDebug; rw [b0_9]; rfl) ?_
    simp only [b21_5, b9_4, b17_4, b13_4, zero, bind, Except.bind, pure, Except.pure, reg_code hw, BitVec.ofNat_toNat, BitVec.setWidth_eq, ↓reduceIte]
  rw [decodeWord, s]; rfl

theorem Roundtrip.tadpoleBinding : Roundtrip.Statement .tadpoleBinding := Roundtrip.none rfl
theorem Roundtrip.quantumExpiry : Roundtrip.Statement .quantumExpiry := Roundtrip.none rfl
theorem Roundtrip.replyArrival : Roundtrip.Statement .replyArrival := Roundtrip.none rfl
theorem Roundtrip.icacheLineArrival : Roundtrip.Statement .icacheLineArrival := Roundtrip.none rfl
theorem Roundtrip.sfuOperationFinish : Roundtrip.Statement .sfuOperationFinish := Roundtrip.none rfl
theorem Roundtrip.hardwareMigration : Roundtrip.Statement .hardwareMigration := Roundtrip.none rfl
theorem Roundtrip.migrationDeparture : Roundtrip.Statement .migrationDeparture := Roundtrip.none rfl
theorem Roundtrip.migrRetry : Roundtrip.Statement .migrRetry := Roundtrip.none rfl
theorem Roundtrip.tadpoleArrival : Roundtrip.Statement .tadpoleArrival := Roundtrip.none rfl
theorem Roundtrip.wake : Roundtrip.Statement .wake := Roundtrip.none rfl
theorem Roundtrip.gangFormationTimeout : Roundtrip.Statement .gangFormationTimeout := Roundtrip.none rfl
theorem Roundtrip.tlbWalkCompletion : Roundtrip.Statement .tlbWalkCompletion := Roundtrip.none rfl
theorem Roundtrip.l1Fill : Roundtrip.Statement .l1Fill := Roundtrip.none rfl
theorem Roundtrip.writeBackAtHome : Roundtrip.Statement .writeBackAtHome := Roundtrip.none rfl
theorem Roundtrip.sliceRequest : Roundtrip.Statement .sliceRequest := Roundtrip.none rfl
theorem Roundtrip.hbmAccessCompletion : Roundtrip.Statement .hbmAccessCompletion := Roundtrip.none rfl
theorem Roundtrip.eftOperation : Roundtrip.Statement .eftOperation := Roundtrip.none rfl
theorem Roundtrip.reservationRevocation : Roundtrip.Statement .reservationRevocation := Roundtrip.none rfl
theorem Roundtrip.overflowChainRead : Roundtrip.Statement .overflowChainRead := Roundtrip.none rfl
theorem Roundtrip.omegaCombine : Roundtrip.Statement .omegaCombine := Roundtrip.none rfl
theorem Roundtrip.logAppendArrival : Roundtrip.Statement .logAppendArrival := Roundtrip.none rfl
theorem Roundtrip.logAreaFullTimeout : Roundtrip.Statement .logAreaFullTimeout := Roundtrip.none rfl
theorem Roundtrip.pairCheck : Roundtrip.Statement .pairCheck := Roundtrip.none rfl
theorem Roundtrip.accessCounterHalving : Roundtrip.Statement .accessCounterHalving := Roundtrip.none rfl
theorem Roundtrip.faultRecordDeferred : Roundtrip.Statement .faultRecordDeferred := Roundtrip.none rfl
theorem Roundtrip.engineSelection : Roundtrip.Statement .engineSelection := Roundtrip.none rfl
theorem Roundtrip.quadSignal : Roundtrip.Statement .quadSignal := Roundtrip.none rfl
theorem Roundtrip.mmaF4 : Roundtrip.Statement .mmaF4 := Roundtrip.none rfl
theorem Roundtrip.mmaBf : Roundtrip.Statement .mmaBf := Roundtrip.none rfl
theorem Roundtrip.mmaH : Roundtrip.Statement .mmaH := Roundtrip.none rfl
theorem Roundtrip.accZero : Roundtrip.Statement .accZero := Roundtrip.none rfl
theorem Roundtrip.accDrain : Roundtrip.Statement .accDrain := Roundtrip.none rfl
theorem Roundtrip.fmtSet : Roundtrip.Statement .fmtSet := Roundtrip.none rfl
theorem Roundtrip.qmma : Roundtrip.Statement .qmma := Roundtrip.none rfl
theorem Roundtrip.cp1d : Roundtrip.Statement .cp1d := Roundtrip.none rfl
theorem Roundtrip.cp2d : Roundtrip.Statement .cp2d := Roundtrip.none rfl
theorem Roundtrip.cpGather : Roundtrip.Statement .cpGather := Roundtrip.none rfl
theorem Roundtrip.cpScatter : Roundtrip.Statement .cpScatter := Roundtrip.none rfl
theorem Roundtrip.cpFill : Roundtrip.Statement .cpFill := Roundtrip.none rfl
theorem Roundtrip.cpSignal : Roundtrip.Statement .cpSignal := Roundtrip.none rfl
theorem Roundtrip.copyUnit : Roundtrip.Statement .copyUnit := Roundtrip.none rfl
theorem Roundtrip.jobCompletion : Roundtrip.Statement .jobCompletion := Roundtrip.none rfl
theorem Roundtrip.clReduce : Roundtrip.Statement .clReduce := Roundtrip.none rfl
theorem Roundtrip.clBcast : Roundtrip.Statement .clBcast := Roundtrip.none rfl
theorem Roundtrip.clAllreduce : Roundtrip.Statement .clAllreduce := Roundtrip.none rfl
theorem Roundtrip.clChunk : Roundtrip.Statement .clChunk := Roundtrip.none rfl
theorem Roundtrip.groupContribution : Roundtrip.Statement .groupContribution := Roundtrip.none rfl
theorem Roundtrip.groupDelivery : Roundtrip.Statement .groupDelivery := Roundtrip.none rfl
theorem Roundtrip.packetArrival : Roundtrip.Statement .packetArrival := Roundtrip.none rfl
theorem Roundtrip.packetGrant : Roundtrip.Statement .packetGrant := Roundtrip.none rfl
theorem Roundtrip.packetPromotion : Roundtrip.Statement .packetPromotion := Roundtrip.none rfl
theorem Roundtrip.messageArrival : Roundtrip.Statement .messageArrival := Roundtrip.none rfl
theorem Roundtrip.messageRetry : Roundtrip.Statement .messageRetry := Roundtrip.none rfl
theorem Roundtrip.streamMessageMove : Roundtrip.Statement .streamMessageMove := Roundtrip.none rfl
theorem Roundtrip.handlerStart : Roundtrip.Statement .handlerStart := Roundtrip.none rfl
theorem Roundtrip.remoteAccessService : Roundtrip.Statement .remoteAccessService := Roundtrip.none rfl
theorem Roundtrip.probeToken : Roundtrip.Statement .probeToken := Roundtrip.none rfl
theorem Roundtrip.phaseEnd : Roundtrip.Statement .phaseEnd := Roundtrip.none rfl
theorem Roundtrip.fabricPacketArrival : Roundtrip.Statement .fabricPacketArrival := Roundtrip.none rfl
theorem Roundtrip.endToEndAcknowledgement : Roundtrip.Statement .endToEndAcknowledgement := Roundtrip.none rfl
theorem Roundtrip.linkResend : Roundtrip.Statement .linkResend := Roundtrip.none rfl
theorem Roundtrip.portDown : Roundtrip.Statement .portDown := Roundtrip.none rfl
theorem Roundtrip.linkTraining : Roundtrip.Statement .linkTraining := Roundtrip.none rfl
theorem Roundtrip.dependenceMet : Roundtrip.Statement .dependenceMet := Roundtrip.none rfl
theorem Roundtrip.headBlocking : Roundtrip.Statement .headBlocking := Roundtrip.none rfl
theorem Roundtrip.pondPlacement : Roundtrip.Statement .pondPlacement := Roundtrip.none rfl
theorem Roundtrip.pondEnd : Roundtrip.Statement .pondEnd := Roundtrip.none rfl
theorem Roundtrip.queueSet : Roundtrip.Statement .queueSet := Roundtrip.none rfl
theorem Roundtrip.sliceSet : Roundtrip.Statement .sliceSet := Roundtrip.none rfl
theorem Roundtrip.asidSet : Roundtrip.Statement .asidSet := Roundtrip.none rfl
theorem Roundtrip.taskSet : Roundtrip.Statement .taskSet := Roundtrip.none rfl
theorem Roundtrip.keyLoadData : Roundtrip.Statement .keyLoadData := Roundtrip.none rfl
theorem Roundtrip.keyLoadTweak : Roundtrip.Statement .keyLoadTweak := Roundtrip.none rfl
theorem Roundtrip.routeSet : Roundtrip.Statement .routeSet := Roundtrip.none rfl
theorem Roundtrip.groupSetWrite : Roundtrip.Statement .groupSetWrite := Roundtrip.none rfl
theorem Roundtrip.groupSetRetire : Roundtrip.Statement .groupSetRetire := Roundtrip.none rfl
theorem Roundtrip.fqSet : Roundtrip.Statement .fqSet := Roundtrip.none rfl
theorem Roundtrip.faultAnswerReissue : Roundtrip.Statement .faultAnswerReissue := Roundtrip.none rfl
theorem Roundtrip.faultAnswerDeliver : Roundtrip.Statement .faultAnswerDeliver := Roundtrip.none rfl
theorem Roundtrip.shootdown : Roundtrip.Statement .shootdown := Roundtrip.none rfl
theorem Roundtrip.shootdownCluster : Roundtrip.Statement .shootdownCluster := Roundtrip.none rfl
theorem Roundtrip.moveStart : Roundtrip.Statement .moveStart := Roundtrip.none rfl
theorem Roundtrip.movePass : Roundtrip.Statement .movePass := Roundtrip.none rfl
theorem Roundtrip.moveEnd : Roundtrip.Statement .moveEnd := Roundtrip.none rfl
theorem Roundtrip.preempt : Roundtrip.Statement .preempt := Roundtrip.none rfl
theorem Roundtrip.resume : Roundtrip.Statement .resume := Roundtrip.none rfl
theorem Roundtrip.debugSet : Roundtrip.Statement .debugSet := Roundtrip.none rfl
theorem Roundtrip.dump : Roundtrip.Statement .dump := Roundtrip.none rfl
theorem Roundtrip.powerOperatingPoint : Roundtrip.Statement .powerOperatingPoint := Roundtrip.none rfl
theorem Roundtrip.powerCluster : Roundtrip.Statement .powerCluster := Roundtrip.none rfl
theorem Roundtrip.powerHbmRefresh : Roundtrip.Statement .powerHbmRefresh := Roundtrip.none rfl
theorem Roundtrip.powerLinkWidth : Roundtrip.Statement .powerLinkWidth := Roundtrip.none rfl
theorem Roundtrip.withdraw : Roundtrip.Statement .withdraw := Roundtrip.none rfl
theorem Roundtrip.cntRead : Roundtrip.Statement .cntRead := Roundtrip.none rfl
theorem Roundtrip.launch : Roundtrip.Statement .launch := Roundtrip.none rfl
theorem Roundtrip.attest : Roundtrip.Statement .attest := Roundtrip.none rfl
theorem Roundtrip.objSet : Roundtrip.Statement .objSet := Roundtrip.none rfl
theorem Roundtrip.pageZero : Roundtrip.Statement .pageZero := Roundtrip.none rfl
theorem Roundtrip.funcSet : Roundtrip.Statement .funcSet := Roundtrip.none rfl
theorem Roundtrip.devSet : Roundtrip.Statement .devSet := Roundtrip.none rfl
theorem Roundtrip.mrq : Roundtrip.Statement .mrq := Roundtrip.none rfl
theorem Roundtrip.meq : Roundtrip.Statement .meq := Roundtrip.none rfl
theorem Roundtrip.hstat : Roundtrip.Statement .hstat := Roundtrip.none rfl
theorem Roundtrip.bar2Access : Roundtrip.Statement .bar2Access := Roundtrip.none rfl
theorem Roundtrip.functionLevelReset : Roundtrip.Statement .functionLevelReset := Roundtrip.none rfl
theorem Roundtrip.boot : Roundtrip.Statement .boot := Roundtrip.none rfl
theorem Roundtrip.thermalTrip : Roundtrip.Statement .thermalTrip := Roundtrip.none rfl
theorem Roundtrip.chorusTick : Roundtrip.Statement .chorusTick := Roundtrip.none rfl
theorem Roundtrip.traceDrain : Roundtrip.Statement .traceDrain := Roundtrip.none rfl
theorem Roundtrip.traceDrainTimeout : Roundtrip.Statement .traceDrainTimeout := Roundtrip.none rfl
theorem Roundtrip.mcq : Roundtrip.Statement .mcq := Roundtrip.none rfl
theorem Roundtrip.illegalWord : Roundtrip.Statement .illegalWord := Roundtrip.none rfl
theorem Roundtrip.fetchTrap : Roundtrip.Statement .fetchTrap := Roundtrip.none rfl
theorem Roundtrip.operatingPointPauseEnd : Roundtrip.Statement .operatingPointPauseEnd := Roundtrip.none rfl
theorem Roundtrip.clusterPowerUp : Roundtrip.Statement .clusterPowerUp := Roundtrip.none rfl
theorem Roundtrip.finalPassTimeout : Roundtrip.Statement .finalPassTimeout := Roundtrip.none rfl
theorem Roundtrip.linkAcknowledgement : Roundtrip.Statement .linkAcknowledgement := Roundtrip.none rfl
theorem Roundtrip.ideEnable : Roundtrip.Statement .ideEnable := Roundtrip.none rfl

end Sys2Proof.Laws
end

