-- ==== Sys2Proof/Certificates/Slice0/Obligations.lean ====
section
/-! DEFINITION. The statements for the provers, one for each rule or group of rules of the spec, over the terms of
Safety. -/

open Sys2Proof Sys2Proof.Machine

/-! ## Every word (R77, R81) -/

/-- R81 over all 267 words: a word whose guard does not hold changes nothing but the pc; the words of a gang's leader are
stated so for a thread outside a gang, and FMA with RQ clear, since with RQ set it is an illegal word whatever its guard (R80, R215;
the last clause of `ScalarFloatResults`). R137: the guard of a control-flow word is the leader's; where it does not hold, every
member goes on at its next word. -/
def Obligations.GuardedOffWordOnlyAdvances : Prop :=
  (∀ (i : Instr) (gd : Guard) (s : State), i.guard = some gd → guardHolds s gd = false → s.Ready →
     (i.leads = false ∨ s.me.inGang = false) → ((∃ rd ra rb, i = .fma gd rd ra rb) → pswRq s.me.ctx.psw = false) →
     exec i s = .next s.done ∧ s.done.me.ctx.pc = s.me.ctx.pc + 4 ∧ s.done.mem = s.mem ∧ s.done.dev = s.dev ∧
       s.done.me.ctx.g = s.me.ctx.g ∧ s.done.me.ctx.psw = s.me.ctx.psw ∧ s.done.me.ctx.srg = s.me.ctx.srg ∧
       s.done.me.ctx.rmt = s.me.ctx.rmt ∧ s.done.me.trap = s.me.trap ∧ s.done.me.run = .active) ∧
  (∀ (i : Instr) (gd : Guard) (s : State), i.guard = some gd → i.leads = true → guardHolds s gd = false → s.Ready →
     s.followers.Nodup →
     ∃ t, exec i s = .next t ∧ t.me.ctx.pc = s.me.ctx.pc + 4 ∧ t.me.ctx.g = s.me.ctx.g ∧ t.mem = s.mem ∧
       ∀ u ∈ s.followers, (t.thread u).ctx.pc = (s.thread u).ctx.pc + 4 ∧ (t.thread u).ctx.g = (s.thread u).ctx.g)

/-! ## Integer arithmetic (R122 to R130) -/

/-- R124, the two-operand forms, SEL, MOV and NOP: rd takes the table's result, the pc advances, nothing else changes; a
result for gz is discarded (`State.put`). -/
def Obligations.IntegerResults : Prop :=
  ∀ (gd : Guard) (rd ra rb : Reg) (p : Pred) (s : State), s.Issues gd → s.plain ra = true → s.plain rb = true →
    s.plainDst rd = true →
    exec (.add gd rd ra rb) s = .next (s.put rd (s.val ra + s.val rb)).done ∧
    exec (.sub gd rd ra rb) s = .next (s.put rd (s.val ra - s.val rb)).done ∧
    exec (.and gd rd ra rb) s = .next (s.put rd (s.val ra &&& s.val rb)).done ∧
    exec (.or gd rd ra rb) s = .next (s.put rd (s.val ra ||| s.val rb)).done ∧
    exec (.xor gd rd ra rb) s = .next (s.put rd (s.val ra ^^^ s.val rb)).done ∧
    exec (.andn gd rd ra rb) s = .next (s.put rd (s.val ra &&& ~~~s.val rb)).done ∧
    exec (.orn gd rd ra rb) s = .next (s.put rd (s.val ra ||| ~~~s.val rb)).done ∧
    exec (.min gd rd ra rb) s = .next (s.put rd (if (s.val ra).toNat ≤ (s.val rb).toNat then s.val ra else s.val rb)).done ∧
    exec (.max gd rd ra rb) s = .next (s.put rd (if (s.val ra).toNat ≤ (s.val rb).toNat then s.val rb else s.val ra)).done ∧
    exec (.mins gd rd ra rb) s = .next (s.put rd (if (s.val ra).toInt ≤ (s.val rb).toInt then s.val ra else s.val rb)).done ∧
    exec (.maxs gd rd ra rb) s = .next (s.put rd (if (s.val ra).toInt ≤ (s.val rb).toInt then s.val rb else s.val ra)).done ∧
    exec (.shl gd rd ra rb) s = .next (s.put rd (s.val ra <<< ((s.val rb).toNat % 64))).done ∧
    exec (.shr gd rd ra rb) s = .next (s.put rd (s.val ra >>> ((s.val rb).toNat % 64))).done ∧
    exec (.sra gd rd ra rb) s = .next (s.put rd ((s.val ra).sshiftRight ((s.val rb).toNat % 64))).done ∧
    exec (.rol gd rd ra rb) s =
      .next (s.put rd (s.val ra <<< ((s.val rb).toNat % 64) ||| s.val ra >>> ((64 - (s.val rb).toNat % 64)))).done ∧
    exec (.ror gd rd ra rb) s =
      .next (s.put rd (s.val ra >>> ((s.val rb).toNat % 64) ||| s.val ra <<< ((64 - (s.val rb).toNat % 64)))).done ∧
    exec (.sel gd rd ra rb p) s = .next (s.put rd (if s.pred p then s.val ra else s.val rb)).done ∧
    exec (.mov gd rd ra) s = .next (s.put rd (s.val ra)).done ∧
    exec (.nop gd) s = .next s.done

/-- R124, the one-operand forms: the counts by what they count, the extensions by the value that they keep. -/
def Obligations.CountAndExtendResults : Prop :=
  ∀ (gd : Guard) (rd ra : Reg) (s : State), s.Issues gd → s.plain ra = true → s.plainDst rd = true →
    (∃ n : Nat, n ≤ 64 ∧ (∀ i, i < n → (s.val ra).getLsbD (63 - i) = false) ∧ (n < 64 → (s.val ra).getLsbD (63 - n) = true) ∧
      exec (.clz gd rd ra) s = .next (s.put rd (BitVec.ofNat 64 n)).done) ∧
    (∃ n : Nat, n ≤ 64 ∧ (∀ i, i < n → (s.val ra).getLsbD i = false) ∧ (n < 64 → (s.val ra).getLsbD n = true) ∧
      exec (.ctz gd rd ra) s = .next (s.put rd (BitVec.ofNat 64 n)).done) ∧
    exec (.popc gd rd ra) s =
      .next (s.put rd (BitVec.ofNat 64 ((List.range 64).countP fun i => (s.val ra).getLsbD i))).done ∧
    exec (.sextB gd rd ra) s = .next (s.put rd (((s.val ra).setWidth 8).signExtend 64)).done ∧
    exec (.sextH gd rd ra) s = .next (s.put rd (((s.val ra).setWidth 16).signExtend 64)).done ∧
    exec (.sextW gd rd ra) s = .next (s.put rd (((s.val ra).setWidth 32).signExtend 64)).done ∧
    exec (.zextB gd rd ra) s = .next (s.put rd (((s.val ra).setWidth 8).setWidth 64)).done ∧
    exec (.zextH gd rd ra) s = .next (s.put rd (((s.val ra).setWidth 16).setWidth 64)).done ∧
    exec (.zextW gd rd ra) s = .next (s.put rd (((s.val ra).setWidth 32).setWidth 64)).done

/-- R124 with R125: the forms of major 0x02 take entry k of the constant window, the eight bytes at TCM offset 8k (R25), as their
second operand; stated for entries whose words are sound. R125, R126: LDK and both forms of STK reach entry a[7:0], or the entry that the word names, without a segment
check; stated for a core whose scoreboard holds no overlapping copy, and entries whose words are sound. Each byte beside the
entry's eight reads as before. -/
def Obligations.ConstantWindowResults : Prop :=
  (∀ (k : BitVec 8) (s : State), s.kSound k →
     s.kEntry s.me.core k.toNat = BitVec.ofNat 64 (leNat (s.mem.read (tcmKey s.me.core (8 * k.toNat)) 8))) ∧
  (∀ (gd : Guard) (rd ra : Reg) (k : BitVec 8) (s : State), s.Issues gd → s.plainK ra k → s.kSound k → s.plainDst rd = true →
     let a := s.valK ra k
     let b := s.kEntry s.me.core k.toNat
     exec (.addK gd rd ra k) s = .next (s.put rd (a + b)).done ∧
     exec (.subK gd rd ra k) s = .next (s.put rd (a - b)).done ∧
     exec (.andK gd rd ra k) s = .next (s.put rd (a &&& b)).done ∧
     exec (.orK gd rd ra k) s = .next (s.put rd (a ||| b)).done ∧
     exec (.xorK gd rd ra k) s = .next (s.put rd (a ^^^ b)).done ∧
     exec (.andnK gd rd ra k) s = .next (s.put rd (a &&& ~~~b)).done ∧
     exec (.ornK gd rd ra k) s = .next (s.put rd (a ||| ~~~b)).done ∧
     exec (.minK gd rd ra k) s = .next (s.put rd (if a.toNat ≤ b.toNat then a else b)).done ∧
     exec (.maxK gd rd ra k) s = .next (s.put rd (if a.toNat ≤ b.toNat then b else a)).done ∧
     exec (.minsK gd rd ra k) s = .next (s.put rd (if a.toInt ≤ b.toInt then a else b)).done ∧
     exec (.maxsK gd rd ra k) s = .next (s.put rd (if a.toInt ≤ b.toInt then b else a)).done ∧
     exec (.movK gd rd k) s = .next (s.put rd b).done) ∧
  (∀ (gd : Guard) (rd ra rb : Reg) (k : BitVec 8) (s : State), s.Issues gd → s.plain ra = true → s.plain rb = true →
     s.plainDst rd = true →
     (∀ n : Nat, n < 256 → (s.core s.me.core).storeWaits (8 * n) 8 = false) →
     (∀ n : Nat, n < 256 → s.mem.sound (tcmKey s.me.core (8 * n)) 8) →
     let e := (s.val ra).toNat % 256
     exec (.ldk gd rd ra) s = .next (s.put rd (BitVec.ofNat 64 (leNat (s.mem.read (tcmKey s.me.core (8 * e)) 8)))).done ∧
     (∃ t, exec (.stk gd ra rb) s = .next t ∧
       t.mem.read (tcmKey s.me.core (8 * e)) 8 = leBytes 8 (s.val rb).toNat ∧
       (∀ x, x < tcmKey s.me.core (8 * e) ∨ tcmKey s.me.core (8 * e) + 8 ≤ x → t.mem.readByte x = s.mem.readByte x) ∧
       t.me = s.done.me ∧ t.dev = s.dev) ∧
     (∃ t, exec (.stkK gd ra k) s = .next t ∧
       t.mem.read (tcmKey s.me.core (8 * k.toNat)) 8 = leBytes 8 (s.val ra).toNat ∧
       (∀ x, x < tcmKey s.me.core (8 * k.toNat) ∨ tcmKey s.me.core (8 * k.toNat) + 8 ≤ x →
         t.mem.readByte x = s.mem.readByte x) ∧
       t.me = s.done.me ∧ t.dev = s.dev))

/-- R127: bit fields and shifts by an amount in the word, for every field that the word may name; a word with a field that
reaches beyond bit 63 or an unassigned shift, and one with a reserved bit, do not decode. -/
def Obligations.BitFieldResults : Prop :=
  ∀ (gd : Guard) (rd ra : Reg) (p : BitVec 6) (l : BitVec 5) (n : BitVec 6) (s : State), s.Issues gd →
    s.plain ra = true → s.plainDst rd = true → p.toNat + l.toNat + 1 ≤ 64 →
    exec (.bfx gd rd ra p l) s = .next (s.put rd ((((s.val ra) >>> p.toNat).setWidth (l.toNat + 1)).setWidth 64)).done ∧
    exec (.bfxs gd rd ra p l) s = .next (s.put rd ((((s.val ra) >>> p.toNat).setWidth (l.toNat + 1)).signExtend 64)).done ∧
    (s.plain rd = true → ∃ v : Word, (∀ i, i < 64 → v.getLsbD i =
        if p.toNat ≤ i ∧ i ≤ p.toNat + l.toNat then (s.val ra).getLsbD (i - p.toNat) else (s.val rd).getLsbD i) ∧
      exec (.bfi gd rd ra p l) s = .next (s.put rd v).done) ∧
    exec (.shlImm gd rd ra n) s = .next (s.put rd (s.val ra <<< n.toNat)).done ∧
    exec (.shrImm gd rd ra n) s = .next (s.put rd (s.val ra >>> n.toNat)).done ∧
    exec (.sraImm gd rd ra n) s = .next (s.put rd ((s.val ra).sshiftRight n.toNat)).done ∧
    exec (.rolImm gd rd ra n) s = .next (s.put rd (s.val ra <<< n.toNat ||| s.val ra >>> (64 - n.toNat))).done ∧
    exec (.rorImm gd rd ra n) s = .next (s.put rd (s.val ra >>> n.toNat ||| s.val ra <<< (64 - n.toNat))).done ∧
    ∀ w : BitVec 32, bits w.toNat 26 6 = 5 →
      ((bits w.toNat 11 2 < 3 ∧ 64 < bits w.toNat 5 6 + bits w.toNat 0 5 + 1) ∨ (bits w.toNat 11 2 = 3 ∧ 5 ≤ bits w.toNat 8 3) →
        decodeWord w = .error .minor) ∧
      (bits w.toNat 11 2 = 3 → bits w.toNat 8 3 < 5 → bits w.toNat 6 2 ≠ 0 → decodeWord w = .error .reserved)

/-- R128: products and quotients with their corners; DZ (STATUS[25]) and OF (STATUS[26]) are set in those cases only. -/
def Obligations.MultiplyDivideResults : Prop :=
  ∀ (gd : Guard) (rd ra rb : Reg) (s : State), s.Issues gd → s.plain ra = true → s.plain rb = true →
    s.plainDst rd = true →
    let a := s.val ra
    let b := s.val rb
    exec (.mul gd rd ra rb) s = .next (s.put rd (BitVec.ofNat 64 (a.toNat * b.toNat))).done ∧
    exec (.mulh gd rd ra rb) s = .next (s.put rd (BitVec.ofNat 64 (a.toNat * b.toNat / 2 ^ 64))).done ∧
    exec (.mulhs gd rd ra rb) s = .next (s.put rd (BitVec.ofInt 64 (a.toInt * b.toInt / 2 ^ 64))).done ∧
    (b ≠ 0 → exec (.div gd rd ra rb) s = .next (s.put rd (a / b)).done ∧
      exec (.rem gd rd ra rb) s = .next (s.put rd (a % b)).done) ∧
    (b = 0 → exec (.div gd rd ra rb) s = .next ((s.put rd 0xFFFFFFFFFFFFFFFF).putFlags 2).done ∧
      exec (.rem gd rd ra rb) s = .next ((s.put rd a).putFlags 2).done ∧
      exec (.divs gd rd ra rb) s = .next ((s.put rd 0xFFFFFFFFFFFFFFFF).putFlags 2).done ∧
      exec (.rems gd rd ra rb) s = .next ((s.put rd a).putFlags 2).done) ∧
    (b ≠ 0 → ¬(a = 0x8000000000000000 ∧ b = 0xFFFFFFFFFFFFFFFF) →
      exec (.divs gd rd ra rb) s = .next (s.put rd (BitVec.ofInt 64 (a.toInt.tdiv b.toInt))).done ∧
      exec (.rems gd rd ra rb) s = .next (s.put rd (BitVec.ofInt 64 (a.toInt.tmod b.toInt))).done) ∧
    (a = 0x8000000000000000 → b = 0xFFFFFFFFFFFFFFFF →
      exec (.divs gd rd ra rb) s = .next ((s.put rd 0x8000000000000000).putFlags 4).done ∧
      exec (.rems gd rd ra rb) s = .next ((s.put rd 0).putFlags 4).done)

/-- R129: the eleven compares of registers and of a register with entry k write one predicate; a write to p0 has no
effect (`State.putPred`); a compare of registers with a reserved bit does not decode. -/
def Obligations.CompareResults : Prop :=
  ∀ (gd : Guard) (p : Pred) (ra rb rk : Reg) (k : BitVec 8) (s : State), s.Issues gd → s.plain ra = true →
    s.plain rb = true → s.plainK rk k → s.kSound k →
    (let a := s.val ra
     let b := s.val rb
     exec (.cmpEq gd p ra rb) s = .next (s.putPred p (decide (a = b))).done ∧
     exec (.cmpNe gd p ra rb) s = .next (s.putPred p (decide (a ≠ b))).done ∧
     exec (.cmpLt gd p ra rb) s = .next (s.putPred p (decide (a.toInt < b.toInt))).done ∧
     exec (.cmpGe gd p ra rb) s = .next (s.putPred p (decide (a.toInt ≥ b.toInt))).done ∧
     exec (.cmpLe gd p ra rb) s = .next (s.putPred p (decide (a.toInt ≤ b.toInt))).done ∧
     exec (.cmpGt gd p ra rb) s = .next (s.putPred p (decide (a.toInt > b.toInt))).done ∧
     exec (.cmpLtu gd p ra rb) s = .next (s.putPred p (decide (a.toNat < b.toNat))).done ∧
     exec (.cmpGeu gd p ra rb) s = .next (s.putPred p (decide (a.toNat ≥ b.toNat))).done ∧
     exec (.cmpLeu gd p ra rb) s = .next (s.putPred p (decide (a.toNat ≤ b.toNat))).done ∧
     exec (.cmpGtu gd p ra rb) s = .next (s.putPred p (decide (a.toNat > b.toNat))).done ∧
     exec (.tst gd p ra rb) s = .next (s.putPred p (decide (a &&& b ≠ 0))).done) ∧
    (let a := s.valK rk k
     let b := s.kEntry s.me.core k.toNat
     exec (.cmpEqK gd p rk k) s = .next (s.putPred p (decide (a = b))).done ∧
     exec (.cmpNeK gd p rk k) s = .next (s.putPred p (decide (a ≠ b))).done ∧
     exec (.cmpLtK gd p rk k) s = .next (s.putPred p (decide (a.toInt < b.toInt))).done ∧
     exec (.cmpGeK gd p rk k) s = .next (s.putPred p (decide (a.toInt ≥ b.toInt))).done ∧
     exec (.cmpLeK gd p rk k) s = .next (s.putPred p (decide (a.toInt ≤ b.toInt))).done ∧
     exec (.cmpGtK gd p rk k) s = .next (s.putPred p (decide (a.toInt > b.toInt))).done ∧
     exec (.cmpLtuK gd p rk k) s = .next (s.putPred p (decide (a.toNat < b.toNat))).done ∧
     exec (.cmpGeuK gd p rk k) s = .next (s.putPred p (decide (a.toNat ≥ b.toNat))).done ∧
     exec (.cmpLeuK gd p rk k) s = .next (s.putPred p (decide (a.toNat ≤ b.toNat))).done ∧
     exec (.cmpGtuK gd p rk k) s = .next (s.putPred p (decide (a.toNat > b.toNat))).done ∧
     exec (.tstK gd p rk k) s = .next (s.putPred p (decide (a &&& b ≠ 0))).done) ∧
    (∀ b : Bool, (s.putPred 0 b).me.ctx = s.me.ctx) ∧
    ∀ w : BitVec 32, bits w.toNat 26 6 = 3 → bits w.toNat 0 5 ≤ 10 → bits w.toNat 5 4 ≠ 0 → decodeWord w = .error .reserved

/-- R130, with R14: the predicate forms, and what a predicate write leaves of the status word; PNOT and PMOV
with a reserved bit do not decode. -/
def Obligations.PredicateResults : Prop :=
  ∀ (gd : Guard) (pd pa pb : Pred) (s : State), s.Issues gd →
    exec (.pand gd pd pa pb) s = .next (s.putPred pd (s.pred pa && s.pred pb)).done ∧
    exec (.por gd pd pa pb) s = .next (s.putPred pd (s.pred pa || s.pred pb)).done ∧
    exec (.pxor gd pd pa pb) s = .next (s.putPred pd (s.pred pa ^^ s.pred pb)).done ∧
    exec (.pnot gd pd pa) s = .next (s.putPred pd (!s.pred pa)).done ∧
    exec (.pmov gd pd pa) s = .next (s.putPred pd (s.pred pa)).done ∧
    s.pred 0 = true ∧
    ∀ b : Bool, (s.putPred pd b).pred pd = (if pd = 0 then true else b) ∧
      (∀ q : Pred, q ≠ pd → (s.putPred pd b).pred q = s.pred q) ∧
      (∀ i, 16 ≤ i → (s.putPred pd b).me.ctx.psw.getLsbD i = s.me.ctx.psw.getLsbD i) ∧
      ∀ w : BitVec 32, bits w.toNat 26 6 = 4 → bits w.toNat 0 9 = 3 ∨ bits w.toNat 0 9 = 4 → bits w.toNat 9 4 ≠ 0 →
        decodeWord w = .error .reserved

/-! ## Control flow (R132 to R134, R137) -/

/-- R133 for a thread outside a gang: the next fetch, the link register and the loop counter. -/
def Obligations.ControlFlowResults : Prop :=
  ∀ (gd : Guard) (d21 : BitVec 21) (d13 : BitVec 13) (ra : Reg) (s : State), s.Issues gd → s.me.inGang = false →
    let pc := s.me.ctx.pc
    exec (.br gd d21) s = .next (s.advance (pc + 4 * d21.signExtend 32)) ∧
    exec (.call gd d21) s = .next ((s.put (.g 7) ((pc + 4).setWidth 64)).advance (pc + 4 * d21.signExtend 32)) ∧
    (s.plain ra = true → s.val ra % 4 = 0 → exec (.jmp gd ra) s = .next (s.advance ((s.val ra).setWidth 32))) ∧
    (s.plain ra = true → s.val ra % 4 ≠ 0 →
      exec (.jmp gd ra) s = .next (s.trapped 0x22 ((s.val ra).toNat % 2 ^ 32))) ∧
    (s.val (.g 7) % 4 = 0 → exec (.ret gd) s = .next (s.advance ((s.val (.g 7)).setWidth 32))) ∧
    (s.val (.g 7) % 4 ≠ 0 → exec (.ret gd) s = .next (s.trapped 0x22 ((s.val (.g 7)).toNat % 2 ^ 32))) ∧
    (s.plain ra = true → s.val ra ≠ 1 →
      exec (.loop gd ra d13) s = .next ((s.put ra (s.val ra - 1)).advance (pc + 4 * d13.signExtend 32))) ∧
    (s.plain ra = true → s.val ra = 1 → exec (.loop gd ra d13) s = .next (s.put ra 0).done)

/-- R137: a control-flow word of a gang's leader carries every member to the leader's next offset, also where JMP and RET take it from the
leader's register or LOOP from the leader's counter; CALL writes g7 in every member and LOOP decrements the counter of each; no other
thread changes. -/
def Obligations.GangFollowsLeader : Prop :=
  ∀ (gd : Guard) (d : BitVec 21) (d13 : BitVec 13) (ra : Reg) (s : State), s.Issues gd → s.followers.Nodup →
    s.breakpoint (s.servedTask s.ctl.acting) s.me.ctx.pc.toNat = false →
    let pc := s.me.ctx.pc
    let link := (pc + 4).setWidth 64
    let follow (i : Instr) (npc : BitVec 32) (mine : Vector Word 10) (theirs : Vector Word 10 → Vector Word 10) :=
      ∃ t, exec i s = .next t ∧ t.me.ctx.pc = npc ∧ t.me.ctx.g = mine ∧
        (∀ u ∈ s.followers, (t.thread u).ctx.pc = npc ∧ (t.thread u).ctx.g = theirs (s.thread u).ctx.g) ∧
        ∀ u, u ≠ s.ctl.acting → u ∉ s.followers → t.thread u = s.thread u
    follow (.br gd d) (pc + 4 * d.signExtend 32) s.me.ctx.g id ∧
    follow (.call gd d) (pc + 4 * d.signExtend 32) (s.me.ctx.g.set 7 link) (fun g => g.set 7 link) ∧
    (s.plain ra = true → s.val ra % 4 = 0 → follow (.jmp gd ra) ((s.val ra).setWidth 32) s.me.ctx.g id) ∧
    (s.val (.g 7) % 4 = 0 → follow (.ret gd) ((s.val (.g 7)).setWidth 32) s.me.ctx.g id) ∧
    (s.plain ra = true → follow (.loop gd ra d13) (if s.val ra = 1 then pc + 4 else pc + 4 * d13.signExtend 32)
      (s.put ra (s.val ra - 1)).me.ctx.g (fun g => match ra with | .g n => g.set n (g[n] - 1) | _ => g))

/-! ## Loads and stores (R21, R139 to R159) -/

/-- R144, R145 in TCM and scratchpad space: a load in the pipe returns the bytes that stand at base + offset, and nothing
else changes. -/
def Obligations.LocalLoadResults : Prop :=
  ∀ (gd : Guard) (rd ra rb : Reg) (sg : Fin 8) (k : BitVec 8) (sz : Size) (s : State), s.Issues gd → s.plainDst rd = true →
    let g := s.seg sg
    let n := Size.bytes sz
    (s.plainK ra k → s.kSound k →
      let o := (s.valK ra k + s.kEntry s.me.core k.toNat).toNat
      s.segCheck g o n .r n = none → s.localClear g (g.base.toNat + o) n →
      exec (.ld gd rd ra sg k sz) s =
        .next (s.put rd (BitVec.ofNat 64 (leNat (s.mem.read (s.localKey g (g.base.toNat + o)) n)))).done) ∧
    (s.plain ra = true → s.plain rb = true →
      let o := (s.val ra + s.val rb).toNat
      (s.segCheck g o n .r n = none → s.localClear g (g.base.toNat + o) n →
        exec (.ldRr gd rd ra sg rb sz) s =
          .next (s.put rd (BitVec.ofNat 64 (leNat (s.mem.read (s.localKey g (g.base.toNat + o)) n)))).done ∧
        exec (.lds gd rd ra sg rb sz) s =
          .next (s.put rd ((BitVec.ofNat (8 * n) (leNat (s.mem.read (s.localKey g (g.base.toNat + o)) n))).signExtend 64)).done) ∧
      (s.segCheck g o 16 .r 16 = none → s.localClear g (g.base.toNat + o) 16 → s.plainDst (pairSecond rd) = true →
        exec (.ldp gd rd ra sg rb) s =
          .next ((s.put rd (BitVec.ofNat 64 (leNat (s.mem.read (s.localKey g (g.base.toNat + o)) 8)))).put (pairSecond rd)
            (BitVec.ofNat 64 (leNat (s.mem.read (s.localKey g (g.base.toNat + o + 8)) 8)))).done))

/-- R144, R145 in TCM and scratchpad space: a store writes its bytes at base + offset; every other byte of memory, every
register and flag stays. -/
def Obligations.LocalStoreResults : Prop :=
  ∀ (gd : Guard) (rd ra rb : Reg) (sg : Fin 8) (k : BitVec 8) (sz : Size) (s : State), s.Issues gd →
    let g := s.seg sg
    let n := Size.bytes sz
    (s.plainK ra k → s.plainK rd k → s.kSound k →
      let o := (s.valK ra k + s.kEntry s.me.core k.toNat).toNat
      s.segCheck g o n .w n = none → s.localClear g (g.base.toNat + o) n →
      ∃ t, exec (.st gd rd ra sg k sz) s = .next t ∧
        s.storesTo t (s.localKey g (g.base.toNat + o)) (leBytes n (s.valK rd k).toNat) ∧ t.me = s.done.me ∧ t.dev = s.dev) ∧
    (s.plain ra = true → s.plain rb = true → s.plain rd = true →
      let o := (s.val ra + s.val rb).toNat
      (s.segCheck g o n .w n = none → s.localClear g (g.base.toNat + o) n →
        ∃ t, exec (.stRr gd rd ra sg rb sz) s = .next t ∧
          s.storesTo t (s.localKey g (g.base.toNat + o)) (leBytes n (s.val rd).toNat) ∧ t.me = s.done.me ∧ t.dev = s.dev) ∧
      (s.segCheck g o 16 .w 16 = none → s.localClear g (g.base.toNat + o) 16 → s.plain (pairSecond rd) = true →
        ∃ t, exec (.stp gd rd ra sg rb) s = .next t ∧
          s.storesTo t (s.localKey g (g.base.toNat + o))
            (leBytes 8 (s.val rd).toNat ++ leBytes 8 (s.val (pairSecond rd)).toNat) ∧ t.me = s.done.me ∧ t.dev = s.dev))

/-- R21 with R139 and R140: the first failing check of a load's or a store's segment traps precisely with its cause and
base + offset, whatever the space; PREF takes no trap (`CacheForms`). R179, R181: an object form traps precisely, before it
sends anything, when s4's check fails, and with 0x24 when s4 is not of object space. -/
def Obligations.CheckTraps : Prop :=
  (∀ (gd : Guard) (rd ra rb : Reg) (sg : Fin 8) (k : BitVec 8) (sz : Size) (c : Nat) (s : State), s.Issues gd →
     let g := s.seg sg
     let n := Size.bytes sz
     (s.plainK ra k → s.kSound k →
       let o := (s.valK ra k + s.kEntry s.me.core k.toNat).toNat
       (s.segCheck g o n .r n = some c → exec (.ld gd rd ra sg k sz) s = .next (s.trapped c ((g.base.toNat + o) % 2 ^ 57))) ∧
       (s.plainK rd k → s.segCheck g o n .w n = some c →
         exec (.st gd rd ra sg k sz) s = .next (s.trapped c ((g.base.toNat + o) % 2 ^ 57)))) ∧
     (s.plain ra = true → s.plain rb = true →
       let o := (s.val ra + s.val rb).toNat
       (s.segCheck g o n .r n = some c →
         exec (.ldRr gd rd ra sg rb sz) s = .next (s.trapped c ((g.base.toNat + o) % 2 ^ 57)) ∧
         exec (.lds gd rd ra sg rb sz) s = .next (s.trapped c ((g.base.toNat + o) % 2 ^ 57))) ∧
       (s.plain rd = true → s.segCheck g o n .w n = some c →
         exec (.stRr gd rd ra sg rb sz) s = .next (s.trapped c ((g.base.toNat + o) % 2 ^ 57))) ∧
       (s.segCheck g o 16 .r 16 = some c →
         exec (.ldp gd rd ra sg rb) s = .next (s.trapped c ((g.base.toNat + o) % 2 ^ 57))) ∧
       (s.plain rd = true → s.plain (pairSecond rd) = true → s.segCheck g o 16 .w 16 = some c →
         exec (.stp gd rd ra sg rb) s = .next (s.trapped c ((g.base.toNat + o) % 2 ^ 57)))) ∧
     (∀ o : Nat, g.space = .global → s.segCheck g o n .r n =
       if g.limit.toNat < o + n then some 0x20 else if g.r = false then some 0x21 else if o % n ≠ 0 then some 0x22 else none)) ∧
  (∀ (gd : Guard) (rd ra rb : Reg) (pd : Pred) (sc : Scope) (c : Nat) (s : State), s.Issues gd → s.plain ra = true →
     let va := (s.seg 4).base.toNat + (s.val ra).toNat
     let checked (n : Nat) := s.segCheck (s.seg 4) (s.val ra).toNat n .o 16
     let refused (n : Nat) (is : List Instr) :=
       (checked n = some c → ∀ i ∈ is, exec i s = .next (s.trapped c (va % 2 ^ 57))) ∧
       (checked n = none → (s.seg 4).space ≠ .object → ∀ i ∈ is, exec i s = .next (s.trapped 0x24 va))
     refused 16 [.objFree gd ra sc, .objRead gd rd ra sc, .barArrive gd rd ra sc, .barSync gd rd ra sc, .tktAcq gd rd ra sc,
       .tktTry gd pd ra sc, .tktRel gd ra sc, .cndSig gd ra sc, .cndBcast gd ra sc, .cntAdd gd rd ra sc rb, .cntSwap gd rd ra sc rb,
       .cntCas gd rd ra sc rb, .cntWaitge gd rd ra sc rb, .cntWaiteq gd rd ra sc rb, .barWait gd ra sc rb, .cndWait gd ra sc rb,
       .qPut gd ra sc rb, .qTryput gd pd ra sc rb] ∧
     (s.plain rb = true →
       refused 16 [.qGet gd rd ra sc rb, .qTryget gd pd ra sc rb] ∧
       refused (16 * granules ((s.val rb).toNat % 8)) [.objInit gd ra sc rb]))

/-- R145 in global space: a load whose translation and bytes the cluster holds completes in the pipe with the line's
bytes, and RMT is updated as R31 states, unless the access has counted already while it waited for its line. -/
def Obligations.GlobalLoadHits : Prop :=
  ∀ (gd : Guard) (rd ra rb : Reg) (sg : Fin 8) (k : BitVec 8) (sz : Size) (e : TlbEntry) (l : L1Line) (s : State),
    s.Issues gd → s.plainDst rd = true → (s.seg sg).space = .global → ∀ o : Nat, ∀ n : Nat,
    let g := s.seg sg
    let va := g.base.toNat + o
    s.segCheck g o n .r n = none → s.tlbHit va .load e → va % 128 + n ≤ 128 →
    (s.cluster s.myCluster).l1Find (s.asidOf s.myCluster) (va / 128) = some l → l.holds (va % 128) n → s.unwatched va n 2 →
    let b := l.bytes (va % 128) n
    (n = Size.bytes sz → s.plainK ra k → s.kSound k → o = (s.valK ra k + s.kEntry s.me.core k.toNat).toNat →
      ∃ t, exec (.ld gd rd ra sg k sz) s = .next t ∧ t.me.ctx.g = (s.put rd (BitVec.ofNat 64 (leNat b))).me.ctx.g ∧
        t.me.ctx.pc = s.me.ctx.pc + 4 ∧ t.me.ctx.psw = s.me.ctx.psw ∧ t.mem = s.mem ∧
        (s.me.aux.counted = false → t.me.ctx.rmt = (rmtStep s s.me (e.phys va)).1)) ∧
    (n = Size.bytes sz → s.plain ra = true → s.plain rb = true → o = (s.val ra + s.val rb).toNat →
      (∃ t, exec (.ldRr gd rd ra sg rb sz) s = .next t ∧ t.me.ctx.g = (s.put rd (BitVec.ofNat 64 (leNat b))).me.ctx.g ∧
        t.me.ctx.pc = s.me.ctx.pc + 4 ∧ t.me.ctx.psw = s.me.ctx.psw ∧ t.mem = s.mem) ∧
      (∃ t, exec (.lds gd rd ra sg rb sz) s = .next t ∧
        t.me.ctx.g = (s.put rd ((BitVec.ofNat (8 * n) (leNat b)).signExtend 64)).me.ctx.g ∧
        t.me.ctx.pc = s.me.ctx.pc + 4 ∧ t.me.ctx.psw = s.me.ctx.psw ∧ t.mem = s.mem)) ∧
    (n = 16 → s.plain ra = true → s.plain rb = true → s.plainDst (pairSecond rd) = true → o = (s.val ra + s.val rb).toNat →
      ∃ t, exec (.ldp gd rd ra sg rb) s = .next t ∧
        t.me.ctx.g = ((s.put rd (BitVec.ofNat 64 (leNat (b.take 8)))).put (pairSecond rd)
          (BitVec.ofNat 64 (leNat (b.drop 8)))).me.ctx.g ∧
        t.me.ctx.pc = s.me.ctx.pc + 4 ∧ t.me.ctx.psw = s.me.ctx.psw ∧ t.mem = s.mem)

/-- R145, R313 in global space: a store whose translation the TLB holds puts its bytes into the cluster L1, valid and
dirty; no byte of the home's memory changes. Where the line is not held, the one that it replaces is taken to be clean. Bytes stored into a
line read back, and every other byte of it reads as before, in a line without poison. -/
def Obligations.GlobalStoreEntersL1 : Prop :=
  (∀ (l : L1Line) (off : Nat) (bs : List Byte) (tag : Byte) (dirty : Bool), off + bs.length ≤ 128 → l.psn = 0 →
    (l.store off bs tag dirty).bytes off bs.length = bs ∧
    ∀ x, x < 128 → x < off ∨ off + bs.length ≤ x → (l.store off bs tag dirty).bytes x 1 = l.bytes x 1) ∧
  ∀ (gd : Guard) (rd ra rb : Reg) (sg : Fin 8) (k : BitVec 8) (sz : Size) (e : TlbEntry) (s : State),
    s.Issues gd → (s.seg sg).space = .global → ∀ (o : Nat) (bs : List Byte),
    let g := s.seg sg
    let va := g.base.toNat + o
    let n := bs.length
    let cl := s.myCluster
    let held := (s.cluster cl).l1Find (s.asidOf cl) (va / 128)
    s.segCheck g o n .w n = none → s.tlbHit va .store e → va % 128 + n ≤ 128 → s.unwatched va n 1 →
    (∀ l, held = some l → l.sealedLine = false) →
    (held = none → ∀ x ∈ (s.cluster cl).l1, l1Set x.va = l1Set (va / 128) → x.dirty = 0) →
    let enters (i : Instr) := ∃ t l, exec i s = .next t ∧ s.passesTo t ∧
      (t.cluster cl).l1Find (s.asidOf cl) (va / 128) = some l ∧
      l.data = ((held.getD (freshLine (s.asidOf cl) (va / 128))).store (va % 128) bs g.tag true).data ∧
      l.valid &&& byteMask (va % 128) n = byteMask (va % 128) n ∧ l.dirty &&& byteMask (va % 128) n = byteMask (va % 128) n
    (bs = leBytes (Size.bytes sz) (s.valK rd k).toNat → s.plainK ra k → s.plainK rd k → s.kSound k →
      o = (s.valK ra k + s.kEntry s.me.core k.toNat).toNat → enters (.st gd rd ra sg k sz)) ∧
    (bs = leBytes (Size.bytes sz) (s.val rd).toNat → s.plain ra = true → s.plain rb = true → s.plain rd = true →
      o = (s.val ra + s.val rb).toNat → enters (.stRr gd rd ra sg rb sz)) ∧
    (bs = leBytes 8 (s.val rd).toNat ++ leBytes 8 (s.val (pairSecond rd)).toNat → s.plain ra = true → s.plain rb = true →
      s.plain rd = true → s.plain (pairSecond rd) = true → o = (s.val ra + s.val rb).toNat → enters (.stp gd rd ra sg rb))

/-- R145, R146, R295 in object space: loads and stores, single and pair, go to the home, and the thread leaves the rotation with nothing
changed until the reply; R148: so do ordered accesses of global space at die scope and wider, LD.ACQ at once and ST.REL when its
release has nothing to wait for. Stated for an access that lies in one page (one that crosses into a second needs that page's
translation too: log 63) and of whose lines the cluster holds no dirty byte (such bytes go home first). -/
def Obligations.HomeAccessesAreSent : Prop :=
  ∀ (gd : Guard) (rd ra rb : Reg) (sg : Fin 8) (k : BitVec 8) (sz : Size) (sc : Scope) (e : TlbEntry) (s : State),
    s.Issues gd → s.admits (s.tenantOf s.myCluster) → ∀ o : Nat,
    let g := s.seg sg
    let va := g.base.toNat + o
    let n := Size.bytes sz
    let cl := s.myCluster
    let inPage (k : Nat) := va % 2 ^ e.size + k ≤ 2 ^ e.size ∧ s.cleanAt cl (s.asidOf cl) va ∧ s.cleanAt cl (s.asidOf cl) (va + k - 1)
    let loads (i : Instr) (k : Nat) (obj : Bool) := s.segCheck g o k .r k = none → s.tlbHit va .load e → inPage k →
      ∃ t, exec i s = .next t ∧ s.leavesTo t ∧ s.asksSlice t va k none obj
    let stores (i : Instr) (bs : List Byte) (acc : AccKind) (obj : Bool) := s.segCheck g o bs.length .w bs.length = none →
      s.tlbHit va acc e → inPage bs.length → ∃ t, exec i s = .next t ∧ s.leavesTo t ∧ s.asksSlice t va bs.length (some bs) obj
    (g.space = .object → s.plainK ra k → s.kSound k → o = (s.valK ra k + s.kEntry s.me.core k.toNat).toNat →
      (s.plainDst rd = true → loads (.ld gd rd ra sg k sz) n true) ∧
      (s.plainK rd k → stores (.st gd rd ra sg k sz) (leBytes n (s.valK rd k).toNat) .object true)) ∧
    (g.space = .object → s.plain ra = true → s.plain rb = true → o = (s.val ra + s.val rb).toNat →
      (s.plainDst rd = true → loads (.ldRr gd rd ra sg rb sz) n true ∧ loads (.lds gd rd ra sg rb sz) n true) ∧
      (s.plainDst rd = true → s.plainDst (pairSecond rd) = true → loads (.ldp gd rd ra sg rb) 16 true) ∧
      (s.plain rd = true → stores (.stRr gd rd ra sg rb sz) (leBytes n (s.val rd).toNat) .object true) ∧
      (s.plain rd = true → s.plain (pairSecond rd) = true →
        stores (.stp gd rd ra sg rb) (leBytes 8 (s.val rd).toNat ++ leBytes 8 (s.val (pairSecond rd)).toNat) .object true)) ∧
    (g.space = .global → scopeWide sc = true → s.plain ra = true → o = (s.val ra).toNat →
      (s.plainDst rd = true → loads (.ldAcqW gd rd ra sc sg) 4 false ∧ loads (.ldAcqD gd rd ra sc sg) 8 false) ∧
      (s.plain rd = true → s.mustWait cl sc = false → (∀ l ∈ (s.cluster cl).l1, l.sealedLine = false) →
        (va % 128 + 4 ≤ 128 → stores (.stRelW gd rd ra sc sg) (leBytes 4 (s.val rd).toNat) .store false) ∧
        (va % 128 + 8 ≤ 128 → stores (.stRelD gd rd ra sc sg) (leBytes 8 (s.val rd).toNat) .store false)))

/-- R148 in TCM and scratchpad space, at every scope: LD.ACQ loads and then acquires, ST.REL stores when no release of its
scope is still to be awaited. -/
def Obligations.OrderedLocalAccesses : Prop :=
  ∀ (gd : Guard) (rd ra : Reg) (sg : Fin 8) (sc : Scope) (s : State), s.Issues gd → s.plain ra = true →
    let g := s.seg sg
    let o := (s.val ra).toNat
    let key := s.localKey g (g.base.toNat + o)
    (s.plainDst rd = true → s.segCheck g o 4 .r 4 = none → s.localClear g (g.base.toNat + o) 4 →
      exec (.ldAcqW gd rd ra sc sg) s =
        .next ((s.put rd (BitVec.ofNat 64 (leNat (s.mem.read key 4)))).acquireAct s.myCluster sc).done) ∧
    (s.plainDst rd = true → s.segCheck g o 8 .r 8 = none → s.localClear g (g.base.toNat + o) 8 →
      exec (.ldAcqD gd rd ra sc sg) s =
        .next ((s.put rd (BitVec.ofNat 64 (leNat (s.mem.read key 8)))).acquireAct s.myCluster sc).done) ∧
    (s.plain rd = true → s.segCheck g o 4 .w 4 = none → s.localClear g (g.base.toNat + o) 4 →
      s.mustWait s.myCluster sc = false →
      ∃ t, exec (.stRelW gd rd ra sc sg) s = .next t ∧ s.storesTo t key (leBytes 4 (s.val rd).toNat) ∧ t.me = s.done.me) ∧
    (s.plain rd = true → s.segCheck g o 8 .w 8 = none → s.localClear g (g.base.toNat + o) 8 →
      s.mustWait s.myCluster sc = false →
      ∃ t, exec (.stRelD gd rd ra sc sg) s = .next t ∧ s.storesTo t key (leBytes 8 (s.val rd).toNat) ∧ t.me = s.done.me)

/-- R147: FENCE.ACQ drops the clean bytes of unsealed lines at die scope and wider and nothing below it; FENCE.REL and FENCE.FULL
complete when nothing is to be written back, FENCE.FULL with the acquire's drop, and otherwise leave for the write-backs of every dirty
line. R159: SCB.WAIT completes in the pipe when no entry of the core's scoreboard overlaps its range, or none stands at all for an empty
range, and otherwise leaves the rotation; it checks no segment. -/
def Obligations.FenceAndScoreboardResults : Prop :=
  (∀ (gd : Guard) (sc : Scope) (s : State), s.Issues gd →
     let cl := s.myCluster
     let acquires (t : State) := (scopeWide sc = false → t.clusters = s.clusters) ∧
       (scopeWide sc = true →
         (∀ l ∈ (t.cluster cl).l1, l.sealedLine = false → l.valid = l.valid &&& l.dirty) ∧
         (∀ l ∈ (s.cluster cl).l1, l.sealedLine = true → l.valid ≠ 0 → l ∈ (t.cluster cl).l1) ∧
         (∀ l ∈ (s.cluster cl).l1, l.sealedLine = false → l.valid &&& l.dirty ≠ 0 →
           { l with valid := l.valid &&& l.dirty } ∈ (t.cluster cl).l1))
     (∃ t, exec (.fenceAcq gd sc) s = .next t ∧ s.passesTo t ∧ t.dev = s.dev ∧ acquires t) ∧
     (s.mustWait cl sc = false →
       exec (.fenceRel gd sc) s = .next s.done ∧
       ∃ t, exec (.fenceFull gd sc) s = .next t ∧ s.passesTo t ∧ t.dev.fences = s.dev.fences + 1 ∧ acquires t) ∧
     (s.mustWait cl sc = true →
       ∃ t, exec (.fenceRel gd sc) s = .next t ∧ exec (.fenceFull gd sc) s = .next t ∧ t.me.run = .waiting ∧
         t.me.cont = .second ∧ t.me.ctx = s.me.ctx ∧ ∀ l ∈ (t.cluster cl).l1, l.dirty = 0)) ∧
  (∀ (gd : Guard) (ra rb : Reg) (s : State), s.Issues gd → s.plain ra = true → s.plain rb = true →
     let c := s.core s.me.core
     let clear := if s.val rb = 0 then c.scb = [] else c.storeWaits (s.val ra).toNat (s.val rb).toNat = false
     (clear → exec (.scbWait gd ra rb) s = .next s.done) ∧
     (¬clear → ∃ t, exec (.scbWait gd ra rb) s = .next t ∧ s.leavesTo t ∧ t.me.cont = .retry ∧ t.me.aux.why = .scb))

/-- R156: PREF completes for every operand and asks for a line of which the cluster lacks some byte; CDROP drops the line, dirty bytes
and seal with it; CWB leaves the rotation (R41), with its reply to come at once where the line holds no dirty byte or the space has none,
and for its write-back otherwise. -/
def Obligations.CacheForms : Prop :=
  ∀ (gd : Guard) (ra : Reg) (sg : Fin 8) (e : TlbEntry) (s : State), s.Issues gd → s.plain ra = true →
    let g := s.seg sg
    let o := (s.val ra).toNat
    let va := g.base.toNat + o
    let cl := s.myCluster
    let held := (s.cluster cl).l1Find (s.asidOf cl) (va / 128)
    (s.admits (s.tenantOf cl) → ∃ t, exec (.pref gd ra sg) s = .next t ∧ s.passesTo t ∧
      (g.space = .global → g.effLimit (s.spadSize cl) ≥ o + 1 → s.tlbHit va .prefetch e → (∀ l, held = some l → l.valid ≠ BitVec.allOnes 128) →
        ∃ r : SliceReq, t.msgs.find s.ctl.nextMsg = some (.slice r) ∧ r.fill = true ∧ r.va = va / 128 * 128)) ∧
    let answered := ∃ t, exec (.cwb gd ra sg) s = .next t ∧ s.leavesTo t ∧
      t.msgs.find s.ctl.nextMsg = some (.reply (.thread s.ctl.acting) {}) ∧ t.me.cont = .reply {}
    (g.space ≠ .global → s.segCheck g o 1 .r 1 = none → answered) ∧
    (g.space ≠ .global → s.segCheck g o 1 .w 1 = none → exec (.cdrop gd ra sg) s = .next s.done) ∧
    (g.space = .global → s.segCheck g o 1 .r 1 = none → s.tlbHit va .load e →
      ((∀ l, held = some l → l.dirty = 0) → answered) ∧
      (∀ l, held = some l → l.dirty ≠ 0 → ∃ t, exec (.cwb gd ra sg) s = .next t ∧ t.me.run = .waiting ∧
        ∀ x ∈ (t.cluster cl).l1, x.asid = s.asidOf cl → x.va = va / 128 → x.dirty = 0)) ∧
    (g.space = .global → s.segCheck g o 1 .w 1 = none → s.tlbHit va .cacheDrop e →
      ∃ t, exec (.cdrop gd ra sg) s = .next t ∧ s.passesTo t ∧
        (t.cluster cl).l1Find (s.asidOf cl) (va / 128) = none)


/-! ## Reserve and release, logged updates, seals, segments, remote accesses (R149 to R167) -/

/-- R149: a reserve form whose two checks pass sends its request to the word's home and leaves the rotation; stated for a line of which
the cluster holds no dirty byte (such bytes go home first: R145). That one whose base
makes its address unaligned traps with 0x22, so that no reservation is made there, is the model's choice: log 66. -/
def Obligations.ReserveFormsAreSent : Prop :=
  ∀ (gd : Guard) (rd ra rb : Reg) (sg : Fin 8) (sz : Size) (e : TlbEntry) (s : State), s.Issues gd → s.plain ra = true →
    s.plain rb = true → s.admits s.myTenant →
    let g := s.seg sg
    let n := Size.bytes sz
    let o := (s.val ra + s.val rb).toNat
    let va := g.base.toNat + o
    s.segCheck g o n .r n = none → s.segCheck g o n .w n = none → g.space = .global ∨ g.space = .object →
    s.tlbHit va .reserve e →
    (va % n ≠ 0 → s.plain rd = true → ∀ i ∈ [Instr.rsv gd rd ra sg rb sz, .rls gd rd ra sg rb sz, .rlsx gd ra sg rb sz],
      exec i s = .next (s.trapped 0x22 va)) ∧
    (va % n = 0 → s.cleanAt s.myCluster (s.asidOf s.myCluster) va →
    (s.plainDst rd = true → ∃ t, exec (.rsv gd rd ra sg rb sz) s = .next t ∧ s.leavesTo t ∧
      s.asksHome t va (.rsv n) .device (some rd) none none) ∧
    (s.plain rd = true → ∃ t, exec (.rls gd rd ra sg rb sz) s = .next t ∧ s.leavesTo t ∧
      s.asksHome t va (.rls n (s.val rd)) .device none none none) ∧
    (∃ t, exec (.rlsx gd ra sg rb sz) s = .next t ∧ s.leavesTo t ∧ s.asksHome t va (.rlsx n) .device none none none))

/-- R152: a logged update reads and writes nothing at issue: one entry goes to the log of the word's home and the thread
goes on at the next word. Stated for a home whose log area has room and an operand that lies in one page (log 63). -/
def Obligations.LoggedFormsAppend : Prop :=
  ∀ (gd : Guard) (rd ra rb : Reg) (sg : Fin 8) (sz : Size) (e : TlbEntry) (s : State), s.Issues gd → s.plain rd = true →
    s.plain ra = true → s.plain rb = true → s.admits s.myTenant → ∀ n : Nat,
    let g := s.seg sg
    let o := (s.val ra + s.val rb).toNat
    let va := g.base.toNat + o
    s.segCheck g o n .r n = none → s.segCheck g o n .w n = none → g.space = .global ∨ g.space = .object →
    s.tlbHit va .reserve e → va % 2 ^ e.size + n ≤ 2 ^ e.size → s.unwatched va n 1 →
    s.logFull (sliceOf (e.phys va)) (s.logLoad (sliceOf (e.phys va))) = false →
    let appends (i : Instr) (op : LogOp) := ∃ t x, exec i s = .next t ∧ s.passesTo t ∧
      t.me.aux.appends = s.me.aux.appends + 1 ∧ t.msgs.find s.ctl.nextMsg = some (.append x (.thread s.ctl.acting)) ∧
      x.pa = e.phys va ∧ x.op = op ∧ x.n = n ∧ x.val.toNat = (s.val rd).toNat % 2 ^ (8 * n)
    (n = Size.bytes sz → appends (.logAdd gd rd ra sg rb sz) .add ∧ appends (.logMin gd rd ra sg rb sz) .min ∧
      appends (.logMax gd rd ra sg rb sz) .max ∧ appends (.logOr gd rd ra sg rb sz) .or) ∧
    (n = 4 → appends (.logFadd gd rd ra sg rb) .fadd)

/-- R154, R155: SEAL and UNSEAL send their request for the seal record; SEAL releases first and needs a segment of global
space with the seal right. The address that SEAL's traps on that segment name is the model's choice: log 67. -/
def Obligations.SealFormsAreSent : Prop :=
  ∀ (gd : Guard) (rd ra rb : Reg) (sc : Scope) (va : Nat) (e : TlbEntry) (s : State), s.Issues gd → s.plain ra = true →
    s.admits s.myTenant → s.objOk (s.val ra).toNat 16 va e →
    (s.plain rb = true →
      let g := s.me.segs[(s.val rb).toNat % 8]'(Nat.mod_lt _ (by decide))
      (g.limit ≠ 0 → g.s = true → g.space = .global →
        ∃ t, exec (.seal gd ra sc rb) s = .next t ∧
          s.requests t va (.seal g.base.toNat g.limit.toNat sc) sc true none none none) ∧
      (g.limit = 0 → exec (.seal gd ra sc rb) s = .next (s.trapped 0x20 va)) ∧
      (g.limit ≠ 0 → g.s = false → exec (.seal gd ra sc rb) s = .next (s.trapped 0x21 va)) ∧
      (g.limit ≠ 0 → g.s = true → g.space ≠ .global → exec (.seal gd ra sc rb) s = .next (s.trapped 0x24 va))) ∧
    (s.plainDst rd = true → ∃ t, exec (.unseal gd rd ra sc) s = .next t ∧ s.requests t va .unseal sc false (some rd) none none)

/-- R160: SEG.LD of selector 0 writes the null segment, whatever the table holds; of another selector, where the cluster's TLB and
L1 hold the entry, it writes the segment that the entry's words give, field by field (R19), and the selector, in the pipe.
SEG.NARROW writes base + a and limit b to the register, with its space, rights and tag kept, and the entry of the
register's selector to the cluster L1 as a global store; a selector of 0 traps with 0x21 and a range beyond the limit with
0x20. The address that those two traps name is the model's choice: log 67. R161, R162: SEG.GIVE of a segment with the give right asks the
queue's home first whether it may, and SEG.TAKE into a register with a selector sends its request there; the giver keeps its segment until
the home has answered (R163). -/
def Obligations.SegmentForms : Prop :=
  (∀ (gd : Guard) (sd : Fin 8) (ra : Reg) (sc : Scope) (va : Nat) (e e' : TlbEntry) (s : State), s.Issues gd →
    s.plain ra = true → s.admits s.myTenant → s.objOk (s.val ra).toNat 16 va e →
    let sel := (s.me.ctx.sel[sd]).toNat
    sel ≠ 0 → (s.tlbUsed va .object).entryStorable sel e' →
    ((s.seg sd).g = true → (s.seg sd).w = true → (s.seg sd).space = .global →
      ∃ t, exec (.segGive gd sd ra sc) s = .next t ∧ s.requests t va .giveCheck sc false none none none ∧
        t.me.segs = s.me.segs) ∧
    (∃ t, exec (.segTake gd sd ra) s = .next t ∧ s.requests t va .take .device false none none none ∧
      t.me.segs = s.me.segs)) ∧
  ∀ (gd : Guard) (sd : Fin 8) (ra rb : Reg) (e : TlbEntry) (s : State), s.Issues gd → s.plain ra = true →
    let a := (s.val ra).toNat
    let sel := a % 256
    let va := s.segEntry (s.servedTask s.ctl.acting) sel
    let cl := s.myCluster
    (sel = 0 → exec (.segLd gd sd ra) s = .next (s.updMe fun t => { t with
      segs := t.segs.set sd {}, ctx := { t.ctx with sel := t.ctx.sel.set sd 0 } }).done) ∧
    (∀ l, sel ≠ 0 → s.tlbHit va .load e → va % 128 + 32 ≤ 128 → (s.cluster cl).l1Find (s.asidOf cl) (va / 128) = some l →
      l.holds (va % 128) 32 → s.unwatched va 32 2 →
      ∃ t g, exec (.segLd gd sd ra) s = .next t ∧ s.passesTo t ∧ t.me.segs = s.me.segs.set sd g ∧
        t.me.ctx.sel = s.me.ctx.sel.set sd (BitVec.ofNat 8 sel) ∧
        let w (i : Nat) : Nat := leNat (l.bytes (va % 128 + 8 * i) 8)
        g.base.toNat = w 0 % 2 ^ 57 ∧ g.limit.toNat = w 1 % 2 ^ 58 ∧
        g.space = (match w 2 % 4 with | 0 => .global | 1 => .scratch | 2 => .tcm | _ => .object) ∧
        g.r = bit (w 2) 8 ∧ g.w = bit (w 2) 9 ∧ g.x = bit (w 2) 10 ∧ g.o = bit (w 2) 11 ∧ g.s = bit (w 2) 12 ∧
        g.g = bit (w 2) 13 ∧ g.tag.toNat = field (w 2) 16 8) ∧
    (s.plain rb = true →
      let g := s.seg sd
      let b := (s.val rb).toNat
      let old := (s.me.ctx.sel[sd]).toNat
      let ea := s.segEntry (s.servedTask s.ctl.acting) old
      let new : Seg := { g with base := BitVec.ofNat 57 (g.base.toNat + a), limit := BitVec.ofNat 58 b }
      (old = 0 → exec (.segNarrow gd sd ra rb) s = .next (s.trapped 0x21 ((g.base.toNat + a) % 2 ^ 57))) ∧
      (old ≠ 0 → g.limit.toNat < a + b → exec (.segNarrow gd sd ra rb) s = .next (s.trapped 0x20 ((g.base.toNat + a) % 2 ^ 57))) ∧
      (old ≠ 0 → a + b ≤ g.limit.toNat → s.entryStorable old e → s.unwatched ea 32 1 →
        (∀ x ∈ (s.cluster cl).l1, l1Set x.va = l1Set (ea / 128) → x.dirty = 0) →
        ∃ t l, exec (.segNarrow gd sd ra rb) s = .next t ∧ s.passesTo t ∧ t.me.segs = s.me.segs.set sd new ∧
          t.me.ctx.sel = s.me.ctx.sel ∧
          (t.cluster cl).l1Find (s.asidOf cl) (ea / 128) = some l ∧
          l.dirty &&& byteMask (ea % 128) 32 = byteMask (ea % 128) 32 ∧
          l.valid &&& byteMask (ea % 128) 32 = byteMask (ea % 128) 32 ∧
          leBytes 32 (field l.data.toNat (8 * (ea % 128)) 256) = bytesOf [new.base.setWidth 64, new.limit.setWidth 64, BitVec.ofNat 64
            ((match g.space with | .global => 0 | .scratch => 1 | .tcm => 2 | .object => 3) + 2 ^ 8 * b2n g.r + 2 ^ 9 * b2n g.w +
              2 ^ 10 * b2n g.x + 2 ^ 11 * b2n g.o + 2 ^ 12 * b2n g.s + 2 ^ 13 * b2n g.g + 2 ^ 16 * g.tag.toNat), 0]))

/-- R164: a remote access goes as a message to slot 1 of the core that a[13:0] names, and the thread leaves the rotation. -/
def Obligations.RemoteAccessesAreSent : Prop :=
  ∀ (gd : Guard) (rd ra rb : Reg) (sp : RSpace) (sz : Size) (s : State), s.Issues gd → s.plain ra = true →
    s.plain rb = true → s.admits s.myTenant →
    let sends (i : Instr) (n : Nat) (nibble : Bool) (v : Option Word) := ∃ t r, exec i s = .next t ∧ s.leavesTo t ∧
      t.msgs.find s.ctl.nextMsg = some (.remote r) ∧ r.who = .thread s.ctl.acting ∧ r.core = (s.val ra).toNat % 2 ^ 14 ∧
      r.sp = sp ∧ r.off = (s.val rb).toNat ∧ r.n = n ∧ r.nibble = nibble ∧ r.val = v
    (s.plainDst rd = true → sends (.ldx gd rd ra rb sp sz) (Size.bytes sz) false none) ∧
    (s.plain rd = true → sends (.stx gd rd ra rb sp sz) (Size.bytes sz) false (some (s.val rd)) ∧
      sends (.stxN4 gd rd ra rb sp) 1 true (some (s.val rd)))

/-! ## Objects and queues (R178 to R195) -/

/-- R178 to R194: every object form whose checks pass sends its operation, with its operands as they stand at issue, to the
home of the object; a form with release strength releases first. -/
def Obligations.ObjectFormsAreSent : Prop :=
  ∀ (gd : Guard) (rd ra rb : Reg) (pd : Pred) (sc : Scope) (va : Nat) (e : TlbEntry) (s : State), s.Issues gd →
    s.plain ra = true → s.plainDst rd = true → s.admits s.myTenant → s.objOk (s.val ra).toNat 16 va e →
    let sends (i : Instr) (op : HomeOp) (rel : Bool) (rd : Option Reg) (pd : Option Pred) (acq : Option Scope) :=
      ∃ t, exec i s = .next t ∧ s.requests t va op sc rel rd pd acq
    sends (.objFree gd ra sc) .free true none none none ∧
    sends (.objRead gd rd ra sc) .read false (some rd) none (some sc) ∧
    sends (.barArrive gd rd ra sc) .barArrive true (some rd) none none ∧
    sends (.barSync gd rd ra sc) .barSync true (some rd) none (some sc) ∧
    sends (.tktAcq gd rd ra sc) .tktAcq false (some rd) none (some sc) ∧
    sends (.tktTry gd pd ra sc) .tktTry true none (some pd) (some sc) ∧
    sends (.tktRel gd ra sc) .tktRel true none none none ∧
    sends (.cndSig gd ra sc) .cndSig true none none none ∧
    sends (.cndBcast gd ra sc) .cndBcast true none none none ∧
    (s.plain rb = true →
      sends (.cntAdd gd rd ra sc rb) (.cntAdd (s.val rb)) true (some rd) none (some sc) ∧
      sends (.cntSwap gd rd ra sc rb) (.cntSwap (s.val rb)) true (some rd) none (some sc) ∧
      (s.plain rd = true → sends (.cntCas gd rd ra sc rb) (.cntCas (s.val rd) (s.val rb)) true (some rd) none (some sc)) ∧
      sends (.cntWaitge gd rd ra sc rb) (.waitGe (s.val rb)) false (some rd) none (some sc) ∧
      sends (.cntWaiteq gd rd ra sc rb) (.waitEq (s.val rb)) false (some rd) none (some sc) ∧
      sends (.barWait gd ra sc rb) (.barWait ((s.val rb).toNat % 2 ^ 16)) false none none (some sc) ∧
      (s.segCheck (s.seg 4) (s.val rb).toNat 16 .o 16 = none → (s.seg 4).base.toNat + (s.val rb).toNat < 2 ^ 57 →
        sends (.cndWait gd ra sc rb) (.cndWait ((s.seg 4).base.toNat + (s.val rb).toNat)) true none none (some sc)))

/-- R185, R192, R193: OBJ.INIT takes its image and a put its payload from the issuing core's TCM at issue; a get keeps the
TCM place for the reply. -/
def Obligations.PayloadFormsAreSent : Prop :=
  ∀ (gd : Guard) (rd ra rb : Reg) (pd : Pred) (sc : Scope) (va : Nat) (e : TlbEntry) (s : State), s.Issues gd →
    s.plain ra = true → s.plain rb = true → s.admits s.myTenant →
    let b := (s.val rb).toNat
    let z := 8 * 2 ^ (b % 4)
    let off := 8 * field b 3 12
    (s.objOk (s.val ra).toNat 16 va e → s.tcmOk off z .r 8 →
      s.tcmClear ((s.seg 3).base.toNat + off) z →
      let p := s.mem.read (s.tcmAt off) z
      (∃ t, exec (.qPut gd ra sc rb) s = .next t ∧ s.requests t va (.qPut (b % 8) p) sc true none none none) ∧
      (∃ t, exec (.qTryput gd pd ra sc rb) s = .next t ∧ s.requests t va (.qTryput (b % 8) p) sc true none (some pd) (some sc))) ∧
    (s.objOk (s.val ra).toNat 16 va e → s.tcmOk off z .w 8 →
      (s.plainDst rd = true → ∃ t, exec (.qGet gd rd ra sc rb) s = .next t ∧
        s.requests t va (.qGet (b % 8)) sc false (some rd) none (some sc) ∧
        ∃ k, t.me.cont = .reply k ∧ k.tcm = some ((s.seg 3).base.toNat + off)) ∧
      (∃ t, exec (.qTryget gd pd ra sc rb) s = .next t ∧
        s.requests t va (.qTryget (b % 8)) sc true none (some pd) (some sc))) ∧
    (let ty := b % 8
     let n := 16 * granules ty
     let im := 16 * field b 4 11
     ty ≠ 0 → bit b 3 = false → b < 2 ^ 15 → (granules ty = 2 → va % 32 = 0) → s.objOk (s.val ra).toNat n va e →
      s.tcmOk im n .r 16 → s.tcmClear ((s.seg 3).base.toNat + im) n →
      ∃ t, exec (.objInit gd ra sc rb) s = .next t ∧
        s.requests t va (.init ty (wordsOf (n / 8) (s.mem.read (s.tcmAt im) n))) sc true none none none)


/-! ## Packed lanes (R196 to R206) -/

/-- R198, R199: every packed integer form lane by lane, at each lane width; SAT is set exactly when a lane was clamped, and
no other flag changes. -/
def Obligations.PackedIntegerResults : Prop :=
  ∀ (gd : Guard) (rd ra rb : Reg) (l : LaneI) (s : State), s.Issues gd → s.plain ra = true → s.plain rb = true →
    s.plainDst rd = true →
    let w := laneW l
    let x (k : Nat) : Nat := lane w (s.val ra) k
    let y (k : Nat) : Nat := lane w (s.val rb) k
    let z (k : Nat) : Nat := lane w (s.val rd) k
    let hi : Int := 2 ^ (w - 1) - 1
    let lo : Int := -2 ^ (w - 1)
    let gives (i : Instr) (f : Nat → Nat) :=
      ∃ v, (∀ k, k < 64 / w → lane w v k = f k) ∧ exec i s = .next (s.put rd v).done
    let clamps (i : Instr) (f : Nat → Int) :=
      ∃ v, (∀ k, k < 64 / w → signed w (lane w v k) = max lo (min hi (f k))) ∧
        ((∀ k, k < 64 / w → lo ≤ f k ∧ f k ≤ hi) → exec i s = .next (s.put rd v).done) ∧
        ((∃ k, k < 64 / w ∧ (f k < lo ∨ hi < f k)) → exec i s = .next ((s.put rd v).putFlags 128).done)
    gives (.vadd gd rd ra rb l) (fun k => (x k + y k) % 2 ^ w) ∧
    gives (.vsub gd rd ra rb l) (fun k => (x k + 2 ^ w - y k) % 2 ^ w) ∧
    clamps (.vadds gd rd ra rb l) (fun k => signed w (x k) + signed w (y k)) ∧
    clamps (.vsubs gd rd ra rb l) (fun k => signed w (x k) - signed w (y k)) ∧
    gives (.vmul gd rd ra rb l) (fun k => x k * y k % 2 ^ w) ∧
    gives (.vmulh gd rd ra rb l) (fun k => wrapInt (2 * w) (signed w (x k) * signed w (y k)) / 2 ^ w) ∧
    (s.plain rd = true → gives (.vmac gd rd ra rb l) (fun k => (z k + x k * y k) % 2 ^ w)) ∧
    gives (.vmin gd rd ra rb l) (fun k => if signed w (x k) ≤ signed w (y k) then x k else y k) ∧
    gives (.vmax gd rd ra rb l) (fun k => if signed w (x k) ≤ signed w (y k) then y k else x k) ∧
    clamps (.vabs gd rd ra l) (fun k => (signed w (x k)).natAbs) ∧
    gives (.vavg gd rd ra rb l) (fun k => (x k + y k + 1) / 2) ∧
    gives (.vshl gd rd ra rb l) (fun k => x k * 2 ^ (y k % w) % 2 ^ w) ∧
    gives (.vshr gd rd ra rb l) (fun k => x k / 2 ^ (y k % w)) ∧
    gives (.vsra gd rd ra rb l) (fun k => wrapInt w (signed w (x k) / (2 ^ (y k % w) : Nat))) ∧
    gives (.vcmpEq gd rd ra rb l) (fun k => if x k = y k then 2 ^ w - 1 else 0) ∧
    gives (.vcmpNe gd rd ra rb l) (fun k => if x k = y k then 0 else 2 ^ w - 1) ∧
    gives (.vcmpLt gd rd ra rb l) (fun k => if signed w (x k) < signed w (y k) then 2 ^ w - 1 else 0) ∧
    gives (.vcmpGe gd rd ra rb l) (fun k => if signed w (x k) < signed w (y k) then 0 else 2 ^ w - 1) ∧
    gives (.vcmpLtu gd rd ra rb l) (fun k => if x k < y k then 2 ^ w - 1 else 0) ∧
    gives (.vcmpGeu gd rd ra rb l) (fun k => if x k < y k then 0 else 2 ^ w - 1) ∧
    (s.plain rd = true → gives (.vsel gd rd ra rb l) (fun k => if z k ≠ 0 then x k else y k)) ∧
    (s.plain rd = true → ∃ v, (∀ j, j < 2 → signed 32 (lane 32 v j) = signed 32 (wrapInt 32 (signed 32 (lane 32 (s.val rd) j) +
        signed 8 (lane 8 (s.val ra) (4 * j)) * signed 8 (lane 8 (s.val rb) (4 * j)) +
        signed 8 (lane 8 (s.val ra) (4 * j + 1)) * signed 8 (lane 8 (s.val rb) (4 * j + 1)) +
        signed 8 (lane 8 (s.val ra) (4 * j + 2)) * signed 8 (lane 8 (s.val rb) (4 * j + 2)) +
        signed 8 (lane 8 (s.val ra) (4 * j + 3)) * signed 8 (lane 8 (s.val rb) (4 * j + 3))))) ∧
      exec (.vdot4 gd rd ra rb) s = .next (s.put rd v).done)

/-- R202: the permutes move lanes and set no flag; an unassigned op and lane code 3 do not decode. -/
def Obligations.PermuteResults : Prop :=
  ∀ (gd : Guard) (rd ra rb : Reg) (l : LaneI) (s : State), s.Issues gd → s.plain ra = true → s.plain rb = true →
    s.plainDst rd = true →
    let w := laneW l
    let n := 64 / w
    let gives (i : Instr) (w n : Nat) (f : Nat → Nat) :=
      ∃ v, (∀ k, k < n → lane w v k = f k) ∧ exec i s = .next (s.put rd v).done
    gives (.vshuf gd rd ra rb l) w n (fun k => if bit (lane w (s.val rb) k) (w - 1) then 0
      else lane w (s.val ra) (lane w (s.val rb) k % n)) ∧
    gives (.vbcast gd rd ra rb l) w n (fun _ => lane w (s.val ra) ((s.val rb).toNat % n)) ∧
    gives (.vrev gd rd ra l) w n (fun k => lane w (s.val ra) (n - 1 - k)) ∧
    gives (.vpack gd rd ra rb l) w n (fun k => if k < n / 2 then lane (2 * w) (s.val ra) k % 2 ^ w
      else lane (2 * w) (s.val rb) (k - n / 2) % 2 ^ w) ∧
    gives (.vunpk gd rd ra l) (2 * w) (n / 2) (fun k => wrapInt (2 * w) (signed w (lane w (s.val ra) k))) ∧
    ∀ x : BitVec 32, bits x.toNat 26 6 = 26 → bits x.toNat 0 2 = 3 ∨ 5 ≤ bits x.toNat 2 7 → decodeWord x = .error .minor

/-- R197, R200, R201, R203, R205, R206: every packed float form and conversion completes in the pipe. Its register takes the lanes that
the sum, product, fused sum, minimum, maximum, compare mask or conversion of the format gives, rounded lane by lane in ascending order
in FRM; the flags of its lanes are ORed into STATUS, the generator stands where the roundings left it, and nothing else changes. The
packed minimum, maximum and compares round nothing. What one rounding gives is stated in `SpecialOperands`. -/
def Obligations.PackedFloatResults : Prop :=
  ∀ (gd : Guard) (rd ra rb : Reg) (l : LaneF) (x y : Fmt) (s : State), s.Issues gd → s.plain ra = true →
    s.plain rb = true → s.plainDst rd = true →
    let a := s.val ra
    let b := s.val rb
    let f := laneFmt l
    let run (c : R Word) : Word × Rnd := runR c s.me.ctx.psw s.me.ctx.srg
    let two (op : Machine.Num → Machine.Num → R Nat) : R Word := roundLanes f (fun p q _ => op p q) a b 0
    let lanesOf (op : Nat → Nat → Nat × Byte) : Word × Byte := mapLanes f.w (fun p q _ => op p q) a b 0
    let rounds (i : Instr) (r : Word × Rnd) := exec i s = .next (s.putRounded rd r).done
    let flags (i : Instr) (r : Word × Byte) := exec i s = .next ((s.put rd r.1).putFlags r.2).done
    rounds (.vfadd gd rd ra rb l) (run (two (fAdd f))) ∧ rounds (.vfmul gd rd ra rb l) (run (two (fMul f))) ∧
    (s.plain rd = true → rounds (.vfma gd rd ra rb l) (run (roundLanes f (fFma f) a b (s.val rd)))) ∧
    flags (.vfmin gd rd ra rb l) (lanesOf (fMinMax f false)) ∧
    flags (.vfmax gd rd ra rb l) (lanesOf (fMinMax f true)) ∧
    flags (.vfcmpEq gd rd ra rb l) (lanesOf (vfMask .eq f)) ∧
    flags (.vfcmpLt gd rd ra rb l) (lanesOf (vfMask .lt f)) ∧
    flags (.vfcmpLe gd rd ra rb l) (lanesOf (vfMask .le f)) ∧
    flags (.vfcmpUn gd rd ra rb l) (lanesOf (vfMask .un f)) ∧
    (let e := 64 / max (fmtWidth x) (fmtWidth y)
     let r := run (do
       let vs ← (List.range e).mapM fun i => vcvtElem x y (lane (fmtWidth y) a i)
       pure (packW (fmtWidth x) vs))
     rounds (.vcvt gd rd ra x y) r ∧ r.1.toNat < 2 ^ (fmtWidth x * e)) ∧
    (let r := run (f4blk ((lanes 16 a ++ lanes 16 b).map ((fmtFloat y).getD fp16).read))
     rounds (.vf4blk gd rd ra rb y) r ∧ r.1.toNat < 2 ^ 40) ∧
    (fmtFloat y = none → exec (.vsum gd rd ra y) s =
      .next (s.put rd (BitVec.ofInt 64 ((lanes (fmtWidth y) a).map (signed (fmtWidth y))).sum)).done) ∧
    ∀ g, fmtFloat y = some g →
      let r := s.runRounded (sumLanes ((lanes (fmtWidth y) a).map g.read))
      rounds (.vsum gd rd ra y) r ∧ r.1.toNat < 2 ^ 32

/-! ## Scalar floats, the special-function unit, rational mode (R207 to R227) -/

/-- R207, R208 with RQ = 0: each scalar form of major 0x1D completes in the pipe and reads FP32 from the low half of its operands. Its
register takes the rounded sum, difference, product, fused sum or conversion, the minimum or maximum, the sign change, or its predicate
the compare; the bits that R207 clears are 0; its flags are ORed into STATUS and nothing else changes. R215: with RQ = 1 FMA traps with
0x02 at once, whatever its guard. What one rounding gives is stated in `SpecialOperands`. -/
def Obligations.ScalarFloatResults : Prop :=
  (∀ (gd : Guard) (rd ra rb : Reg) (pd : Pred) (s : State), s.Issues gd → pswRq s.me.ctx.psw = false → s.plain ra = true →
     s.plain rb = true → s.plainDst rd = true →
     let a := s.val ra
     let b := s.val rb
     let x := fp32.read (a.toNat % 2 ^ 32)
     let y := fp32.read (b.toNat % 2 ^ 32)
     let rounds (w : Nat) (i : Instr) (c : R Nat) :=
       exec i s = .next (s.putRounded rd (s.runRounded c)).done ∧ (s.runRounded c).1.toNat < 2 ^ w
     let flags (i : Instr) (r : Nat × Byte) :=
       exec i s = .next ((s.put rd (BitVec.ofNat 64 r.1)).putFlags r.2).done ∧ r.1 < 2 ^ 32
     let compares (i : Instr) (k : FCmp) := exec i s = .next ((s.putPred pd (fCmp k x y).1).putFlags (fCmp k x y).2).done
     rounds 32 (.fadd gd rd ra rb) (fAdd fp32 x y) ∧ rounds 32 (.fsub gd rd ra rb) (fSub fp32 x y) ∧
     rounds 32 (.fmul gd rd ra rb) (fMul fp32 x y) ∧
     (s.plain rd = true → rounds 32 (.fma gd rd ra rb) (fFma fp32 x y (fp32.read ((s.val rd).toNat % 2 ^ 32)))) ∧
     flags (.fmin gd rd ra rb) (fMinMax fp32 false a.toNat b.toNat) ∧
     flags (.fmax gd rd ra rb) (fMinMax fp32 true a.toNat b.toNat) ∧
     flags (.fneg gd rd ra) (match x with
       | .nan sig => (0x7FC00000, if sig then 1 else 0)
       | _ => (Nat.xor (a.toNat % 2 ^ 32) (2 ^ 31), 0)) ∧
     flags (.fabs gd rd ra) (match x with
       | .nan sig => (0x7FC00000, if sig then 1 else 0)
       | _ => (a.toNat % 2 ^ 31, 0)) ∧
     compares (.fcmpEq gd pd ra rb) .eq ∧ compares (.fcmpLt gd pd ra rb) .lt ∧ compares (.fcmpLe gd pd ra rb) .le ∧
     compares (.fcmpUn gd pd ra rb) .un ∧
     rounds 32 (.fcvtSL gd rd ra) (ofInt fp32 a.toInt) ∧ rounds 32 (.fcvtSLu gd rd ra) (ofInt fp32 a.toNat) ∧
     rounds 64 (.fcvtLS gd rd ra) (toIntNum x 64 true) ∧ rounds 64 (.fcvtLuS gd rd ra) (toIntNum x 64 false) ∧
     flags (.fcvtSHf gd rd ra) (widen fp16 fp32 (a.toNat % 2 ^ 16)) ∧
     flags (.fcvtSBh gd rd ra) (widen bf16 fp32 (a.toNat % 2 ^ 16)) ∧
     rounds 16 (.fcvtHfS gd rd ra) (convert fp32 fp16 (a.toNat % 2 ^ 32)) ∧
     rounds 16 (.fcvtBhS gd rd ra) (convert fp32 bf16 (a.toNat % 2 ^ 32))) ∧
  (∀ (gd : Guard) (rd ra rb : Reg) (s : State), s.me.run = .active → pswRq s.me.ctx.psw = true →
     exec (.fma gd rd ra rb) s = .next (s.trapped 0x02 0))

/-- R201: the compares of FP32 values, and the sums and products that are decided without rounding. R52, R53 for FP32, FP16 and BF16:
Round() truncates a magnitude to the format's spacing around it and raises it as the mode says; a result in range is exact to that, with
NX when something was discarded and UF when it was tiny as well; one beyond the largest finite value sets OF and NX. -/
def Obligations.SpecialOperands : Prop :=
  (∀ (x y : Machine.Num), (x.isNan = true ∨ y.isNan = true) →
    (fCmp .eq x y).1 = false ∧ (fCmp .lt x y).1 = false ∧ (fCmp .le x y).1 = false ∧ (fCmp .un x y).1 = true ∧
      (fCmp .lt x y).2 = 1 ∧ (fCmp .le x y).2 = 1) ∧
  (∀ (x y : Machine.Num) (k : FCmp), x.isNan = false → y.isNan = false → (fCmp k x y).2 = 0) ∧
  (∀ (p q : Bool) (m n : Int), (fCmp .eq (.fin p 0 m) (.fin q 0 n)).1 = true) ∧
  (∀ (psw srg : Word) (y : Machine.Num) (sig : Bool),
    (runR (fAdd fp32 (.nan sig) y) psw srg).1 = 0x7FC00000 ∧ (runR (fMul fp32 (.nan sig) y) psw srg).1 = 0x7FC00000) ∧
  (∀ (psw srg : Word) (p : Bool), (runR (fAdd fp32 (.inf p) (.inf !p)) psw srg).1 = 0x7FC00000 ∧
    (runR (fAdd fp32 (.inf p) (.inf !p)) psw srg).2.flags = 1) ∧
  (∀ (psw srg : Word) (p q : Bool) (e : Int), (runR (fMul fp32 (.inf p) (.fin q 0 e)) psw srg).1 = 0x7FC00000 ∧
    (runR (fMul fp32 (.inf p) (.fin q 0 e)) psw srg).2.flags = 1) ∧
  (∀ f ∈ [fp32, fp16, bf16], ∀ (m N D rnd : Nat) (neg : Bool) (e : Int), m ≤ 4 → 0 < N → 0 < D → rnd < 2 ^ 16 →
    let a : ℚ := N / D * (2 : ℚ) ^ e
    let r := roundMag f m neg N D e rnd
    let top := (f.read f.maxCode).value
    ∃ (q : Int) (lo up : Nat) (d : ℚ), a = (lo + d) * (2 : ℚ) ^ q ∧ 0 ≤ d ∧ d < 1 ∧ lo < 2 ^ f.p ∧ f.emin - f.p + 1 ≤ q ∧
      (q = f.emin - f.p + 1 ∨ 2 ^ (f.p - 1) ≤ lo) ∧ up ≤ 1 ∧ (up = 1 ↔ raises m neg lo d rnd) ∧
      let v : ℚ := (lo + up) * (2 : ℚ) ^ q
      (v ≤ top → (f.read r.1).finite = true ∧ (f.read r.1).value = (if neg then -v else v) ∧ (r.2 &&& flagOF = 0) ∧
        (r.2 &&& flagNX ≠ 0 ↔ d ≠ 0) ∧ (r.2 &&& flagUF ≠ 0 ↔ d ≠ 0 ∧ a < (2 : ℚ) ^ f.emin)) ∧
      (top < v → r.2 &&& (flagOF ||| flagNX) = flagOF ||| flagNX))

/-- R52, R53, R56, R200, R201, R203, R204, R206, R208: sums, differences, products and fused sums of finite operands, integers, the narrowing
conversions and the sum of lanes are Round() of the exact value, with one call of Sto() in STO mode; the sign of an exact zero is that of
R201. The packed forms do so lane by lane in ascending order. A conversion into an integer is RoundInt() of the exact value, or the nearest
end of the range with NV; a widening is exact; the minimum and the maximum are one of their operands, −0 below +0; the compares decide by
value. -/
def Obligations.RoundedArithmetic : Prop :=
  (∀ f ∈ [fp32, fp16, bf16], ∀ (p q r : Bool) (m n k : Nat) (e d c : Int),
    let x : Machine.Num := .fin p m e
    let y : Machine.Num := .fin q n d
    let z : Machine.Num := .fin r k c
    let zero (a b : Bool) (both : Prop) [Decidable both] (frm : Nat) : Bool := if both ∧ a = b then a else frm == rdn
    GivesRound f (fAdd f x y) (x.value + y.value) (zero p q (m = 0 ∧ n = 0)) ∧
    GivesRound f (fSub f x y) (x.value - y.value) (zero p (!q) (m = 0 ∧ n = 0)) ∧
    GivesRound f (fMul f x y) (x.value * y.value) (fun _ => p != q) ∧
    GivesRound f (fFma f x y z) (x.value * y.value + z.value) (zero (p != q) r (m * n = 0 ∧ k = 0))) ∧
  (∀ f ∈ [fp32, fp16, bf16], ∀ v : Int, GivesRound f (ofInt f v) v (fun _ => false)) ∧
  (∀ f ∈ [fp32, fp16, bf16, fp4], ∀ g ∈ [fp32, fp16, bf16, fp4], ∀ (a : Nat) (p : Bool) (m : Nat) (e : Int), f.read a = .fin p m e →
    GivesRound g (convert f g a) (f.read a).value (fun _ => p)) ∧
  (∀ xs : List Machine.Num, (∀ x ∈ xs, x.finite = true) → (xs.map (·.value)).sum ≠ 0 →
    GivesRound fp32 (sumLanes xs) (xs.map (·.value)).sum (fun _ => false)) ∧
  (∀ f ∈ [fp32, fp16, bf16], ∀ (op : Machine.Num → Machine.Num → Machine.Num → R Nat) (a b z : Word) (k : Rnd),
    let r := (roundLanes f op a b z).run k
    ∃ c : Nat → Rnd, c 0 = k ∧ r.2 = c (64 / f.w) ∧ ∀ i < 64 / f.w,
      let y := (op (f.read (lane f.w a i)) (f.read (lane f.w b i)) (f.read (lane f.w z i))).run (c i)
      c (i + 1) = y.2 ∧ lane f.w r.1 i = y.1 % 2 ^ f.w) ∧
  (∀ (p : Bool) (m : Nat) (e : Int) (n : Nat) (sg : Bool) (k : Rnd), 0 < n → k.frm ≤ 4 →
    let x : Machine.Num := .fin p m e
    let y := (toIntNum x n sg).run k
    let g := if k.frm = sto then srgStep k.srg else k.srg
    let hi : Int := if sg then 2 ^ (n - 1) - 1 else 2 ^ n - 1
    let low : Int := if sg then -(2 ^ (n - 1)) else 0
    ∃ (lo up : Nat) (d : ℚ), |x.value| = lo + d ∧ 0 ≤ d ∧ d < 1 ∧ up ≤ 1 ∧ (up = 1 ↔ raises k.frm p lo d (g.toNat / 2 ^ 48)) ∧
      let v : Int := if p then -(lo + up : Int) else lo + up
      y.2.srg = g ∧
      (low ≤ v → v ≤ hi → y.1 = wrapInt n v ∧ y.2.flags = k.flags ||| (if d = 0 then 0 else flagNX)) ∧
      (hi < v → y.1 = wrapInt n hi ∧ y.2.flags = k.flags ||| flagNV) ∧
      (v < low → y.1 = wrapInt n low ∧ y.2.flags = k.flags ||| flagNV)) ∧
  (∀ f ∈ [fp16, bf16, fp4], ∀ a : Nat, ∀ g ∈ [fp32, fp16, bf16], f.w < g.w →
    ((f.read a).finite = true → (widen f g a).2 = 0 ∧ (g.read (widen f g a).1).finite = true ∧
      (g.read (widen f g a).1).value = (f.read a).value ∧ (g.read (widen f g a).1).neg = (f.read a).neg) ∧
    ∀ p, f.read a = .inf p → (widen f g a).2 = 0 ∧ g.read (widen f g a).1 = .inf p) ∧
  (∀ f ∈ [fp32, fp16, bf16], ∀ (mx : Bool) (a b : Nat), (f.read a).finite = true → (f.read b).finite = true →
    let x := f.read a
    let y := f.read b
    let r := fMinMax f mx a b
    r.2 = 0 ∧ (r.1 = a % 2 ^ f.w ∨ r.1 = b % 2 ^ f.w) ∧ (f.read r.1).value = (if mx then max x.value y.value else min x.value y.value) ∧
      (x.value = y.value → (f.read r.1).neg = if mx then x.neg && y.neg else x.neg || y.neg)) ∧
  (∀ (p q : Bool) (m n : Nat) (e d : Int),
    let x : Machine.Num := .fin p m e
    let y : Machine.Num := .fin q n d
    fCmp .eq x y = (decide (x.value = y.value), 0) ∧ fCmp .lt x y = (decide (x.value < y.value), 0) ∧
    fCmp .le x y = (decide (x.value ≤ y.value), 0) ∧ fCmp .un x y = (false, 0) ∧
    fCmp .lt (.inf p) y = (p, 0) ∧ fCmp .lt x (.inf q) = (!q, 0) ∧ fCmp .lt (.inf p) (.inf q) = (p && !q, 0) ∧
    fCmp .eq (.inf p) y = (false, 0) ∧ fCmp .eq (.inf p) (.inf q) = (p == q, 0))

/-- R210, R211, R215, R220: every special function and rational form, and in rational mode (RQ = 1) the words of major 0x1D, enters the
core's special-function queue behind what stands there and leaves the rotation; at its finish the head's answer is written to its
thread's register or predicate with its flags and generator step, and the thread goes on at its next word. What the unit answers: for
the special operands of R213, and for FDIV and FRCP the rounded quotient; for the rational forms of finite operands the exact result or
its QRound() (R215, R218, R221, R225), and rows 1 to 3 of R216, for FNEG and FABS too. R221: QSETM writes QRM and RQ, STATUS[21:19], from a[2:0] in the pipe and
leaves every other bit. -/
def Obligations.UnitAndModeResults : Prop :=
  (∀ (gd : Guard) (rd ra rb : Reg) (pd : Pred) (s : State), s.Issues gd → s.plain ra = true → s.plain rb = true →
     s.plainDst rd = true →
     let a := s.val ra
     let b := s.val rb
     let two (i : Instr) (op : SfuOp) := ∃ t, exec i s = .next t ∧ s.entersUnit t op (some rd) none a b
     let one (i : Instr) (op : SfuOp) := ∃ t, exec i s = .next t ∧ s.entersUnit t op (some rd) none a 0
     let cmp (i : Instr) (op : SfuOp) := ∃ t, exec i s = .next t ∧ s.entersUnit t op none (some pd) a b
     two (.fdiv gd rd ra rb) .fdiv ∧ one (.fsqrt gd rd ra) .fsqrt ∧ one (.frcp gd rd ra) .frcp ∧ one (.frsq gd rd ra) .frsq ∧
     one (.fexp2 gd rd ra) .fexp2 ∧ one (.flog2 gd rd ra) .flog2 ∧ one (.fsin gd rd ra) .fsin ∧ one (.fcos gd rd ra) .fcos ∧
     one (.ftanh gd rd ra) .ftanh ∧
     two (.qmake gd rd ra rb) .qmake ∧ two (.qmed gd rd ra rb) .qmed ∧ two (.qcf gd rd ra rb) .qcf ∧
     two (.qlim gd rd ra rb) .qlim ∧ two (.gcd gd rd ra rb) .gcd ∧ one (.qnum gd rd ra) .qnum ∧ one (.qden gd rd ra) .qden ∧
     one (.qcanon gd rd ra) .qcanon ∧ one (.qcvtF gd rd ra) .qcvtF ∧ one (.qcvtI gd rd ra) .qcvtI ∧
     one (.qclass gd rd ra) .qclass ∧
     (pswRq s.me.ctx.psw = true →
       two (.fadd gd rd ra rb) .qadd ∧ two (.fsub gd rd ra rb) .qsub ∧ two (.fmul gd rd ra rb) .qmul ∧
       two (.fmin gd rd ra rb) .qmin ∧ two (.fmax gd rd ra rb) .qmax ∧ one (.fneg gd rd ra) .qneg ∧ one (.fabs gd rd ra) .qabs ∧
       cmp (.fcmpEq gd pd ra rb) .qeq ∧ cmp (.fcmpLt gd pd ra rb) .qlt ∧ cmp (.fcmpLe gd pd ra rb) .qle ∧
       cmp (.fcmpUn gd pd ra rb) .qun ∧ one (.fcvtSL gd rd ra) .fromL ∧ one (.fcvtSLu gd rd ra) .fromLu ∧
       one (.fcvtLS gd rd ra) .toL ∧ one (.fcvtLuS gd rd ra) .toLu ∧ one (.fcvtSHf gd rd ra) .fromHf ∧
       one (.fcvtSBh gd rd ra) .fromBh ∧ one (.fcvtHfS gd rd ra) .toHf ∧ one (.fcvtBhS gd rd ra) .toBh)) ∧
  (∀ (e : SfuEntry) (rest : List SfuEntry) (s : State), (s.core s.ctl.ev.a).sfu = e :: rest → 32768 ≤ e.tid →
     (s.threads.find e.tid).isSome = true →
     let u := s.thread e.tid
     let r := e.op.answer e.a e.b e.psw u.ctx.srg
     let srg := (e.result u.ctx.srg).2.2.srg
     u.run = .sfu → u.slot = none → s.breakpoint u.ctx.gtid u.ctx.pc.toNat = false →
     let gives (c : Ctx) := ∃ t, exec .sfuOperationFinish s = .next t ∧ (t.core s.ctl.ev.a).sfu = rest ∧
       (t.thread e.tid).run = .ready ∧ (t.thread e.tid).ctx = { c with pc := u.ctx.pc + 4, srg := srg } ∧ t.mem = s.mem
     (∀ rd : Fin 10, e.rd = some (.g rd) → e.pd = none →
       gives { u.ctx with g := u.ctx.g.set rd r.1, psw := pswOrFlags u.ctx.psw r.2.2 }) ∧
     (∀ pd, e.rd = none → e.pd = some pd →
       gives { u.ctx with psw := pswOrFlags (pswSetPred u.ctx.psw pd.toNat r.2.1) r.2.2 })) ∧
  (∀ (a b psw srg : Word),
     let x := f32 a
     let y := f32 b
     let is (op : SfuOp) (w : Word) (fl : Byte) := op.answer a b psw srg = (w, false, fl)
     let rounds (op : SfuOp) (c : R Nat) := is op (BitVec.ofNat 64 (runR c psw srg).1) (runR c psw srg).2.flags
     let nan : Word := 0x7FC00000
     let one32 : Word := 0x3F800000
     (∀ sig, x = .nan sig → ∀ op ∈ [SfuOp.fsqrt, .frcp, .frsq, .fexp2, .flog2, .fsin, .fcos, .ftanh],
       is op nan (if sig then flagNV else 0)) ∧
     (x.isNan = true ∨ y.isNan = true → is .fdiv nan (sigFlag x ||| sigFlag y)) ∧
     (∀ p e, x = .fin p 0 e → is .fsqrt (zero32 p) 0 ∧ is .frcp (inf32 p) flagDZ ∧ is .frsq (inf32 p) flagDZ ∧
       is .fexp2 one32 0 ∧ is .flog2 (inf32 true) flagDZ ∧ is .fsin (zero32 p) 0 ∧ is .fcos one32 0 ∧ is .ftanh (zero32 p) 0 ∧
       (∀ q, y = .inf q → is .fdiv (zero32 (p != q)) 0) ∧
       (∀ q n d, y = .fin q n d → if n = 0 then is .fdiv nan flagNV else is .fdiv (zero32 (p != q)) 0)) ∧
     (x.finite = true → ∀ n : Int, let gives (op : SfuOp) (v : ℚ) :=
         ∃ w : Nat, w < 2 ^ 32 ∧ (fp32.read w).finite = true ∧ (fp32.read w).value = v ∧ is op (BitVec.ofNat 64 w) 0
       (x.value = n → -149 ≤ n → n ≤ 127 → gives .fexp2 ((2 : ℚ) ^ n)) ∧ (x.value = (2 : ℚ) ^ n → gives .flog2 n)) ∧
     (∀ p, x = .inf p → is .frcp (zero32 p) 0 ∧ is .fsin nan flagNV ∧ is .fcos nan flagNV ∧
       is .ftanh (if p then 0xBF800000 else one32) 0 ∧
       (if p then is .fsqrt nan flagNV ∧ is .frsq nan flagNV ∧ is .fexp2 0 0 ∧ is .flog2 nan flagNV
        else is .fsqrt (inf32 false) 0 ∧ is .frsq 0 0 ∧ is .fexp2 (inf32 false) 0 ∧ is .flog2 (inf32 false) 0) ∧
       (∀ q, y = .inf q → is .fdiv nan flagNV) ∧ ∀ q n d, y = .fin q n d → is .fdiv (inf32 (p != q)) 0) ∧
     (∀ p m e, m ≠ 0 → x = .fin p m e →
       (p = true → is .fsqrt nan flagNV ∧ is .frsq nan flagNV ∧ is .flog2 nan flagNV) ∧
       rounds .frcp (roundFrac fp32 p 1 m (-e)) ∧ (∀ q, y = .inf q → is .fdiv (zero32 (p != q)) 0) ∧
       ∀ q n d, y = .fin q n d → if n = 0 then is .fdiv (inf32 (p != q)) flagDZ
         else rounds .fdiv (roundFrac fp32 (p != q) m n (e - d)))) ∧
  (∀ (a b psw srg : Word),
     let x := readQ a
     let y := readQ b
     let is (op : SfuOp) (w : Word) (fl : Byte) := op.answer a b psw srg = (w, false, fl)
     let forms (op : SfuOp) (P Q : Int) := is op (qround (pswQrm psw) P Q).word (qround (pswQrm psw) P Q).flags
     let decides (op : SfuOp) (v : Bool) := op.answer a b psw srg = (0, v, 0)
     (∀ w, x = .pay w → ∀ op ∈ [SfuOp.qadd, .qsub, .qmul, .qmed], is op a (flagZD ||| y.nv)) ∧
     (∀ w, y = .pay w → (∀ v, x ≠ .pay v) → ∀ op ∈ [SfuOp.qadd, .qsub, .qmul, .qmed], is op b (flagZD ||| x.nv)) ∧
     ((∀ w, x ≠ .pay w) → (∀ w, y ≠ .pay w) → (∃ v, x = .ind v) ∨ (∃ v, y = .ind v) →
       ∀ op ∈ [SfuOp.qadd, .qsub, .qmul, .qmed], is op indQ (flagZD ||| (x.nv ||| y.nv))) ∧
     (∀ w, x = .pay w → is .qneg (putField a 63 1 (b2n (!bit a.toNat 63))) flagZD ∧ is .qabs (putField a 63 1 0) flagZD) ∧
     (∀ v, x = .ind v → is .qneg indQ (flagZD ||| x.nv) ∧ is .qabs indQ (flagZD ||| x.nv)) ∧
     (∀ p n d, x = .fin p n d →
       let u := signedQ p n
       is .qnum (BitVec.ofInt 64 (signedQ p (n / Nat.gcd n d))) 0 ∧ is .qden (BitVec.ofNat 64 (d / Nat.gcd n d)) 0 ∧
       is .qcvtI (BitVec.ofInt 64 (u / d)) 0 ∧
       ∀ q k c, y = .fin q k c →
         let v := signedQ q k
         forms .qadd (u * c + v * d) (d * c : Nat) ∧ forms .qsub (u * c - v * d) (d * c : Nat) ∧ forms .qmul (u * v) (d * c : Nat) ∧
         decides .qeq (decide (u * c = v * d)) ∧ decides .qlt (decide (u * c < v * d)) ∧
         decides .qle (decide (u * c ≤ v * d)) ∧ decides .qun false) ∧
     (b ≠ 0 → forms .qmake a.toInt b.toInt) ∧ forms .fromL a.toInt 1 ∧ forms .fromLu a.toNat 1 ∧
     is .gcd (BitVec.ofNat 64 (Nat.gcd a.toNat b.toNat)) 0) ∧
  (∀ (qrm : Nat) (P Q : Int), P ≠ 0 → Q ≠ 0 →
     let p := P.natAbs / Nat.gcd P.natAbs Q.natAbs
     let q := Q.natAbs / Nat.gcd P.natAbs Q.natAbs
     let width := if q = 1 then 0 else Nat.log2 q + 1
     width ≤ 56 → p < 2 ^ (57 - width) →
       readQ (qround qrm P Q).word = .fin (decide (P < 0) != decide (Q < 0)) p q ∧ (qround qrm P Q).flags = 0) ∧
  (∀ (gd : Guard) (ra : Reg) (s : State), s.Issues gd → s.plain ra = true →
     ∃ t, exec (.qsetm gd ra) s = .next t ∧ t.me.ctx.pc = s.me.ctx.pc + 4 ∧ t.me.ctx.g = s.me.ctx.g ∧ t.mem = s.mem ∧
       (∀ i, i < 64 → t.me.ctx.psw.getLsbD i =
         if 19 ≤ i ∧ i < 22 then (s.val ra).getLsbD (i - 19) else s.me.ctx.psw.getLsbD i))

/-! ## Engine jobs (R230 to R241) -/

/-- R230, R232: an ISSUE form reads its command from the TCM, writes the job's record, pushes the job and answers its ID,
whose upper bits are the record's place; with .SYNC the thread then waits for the record. A record out of range traps with
0x62 before any effect. -/
def Obligations.IssueResults : Prop :=
  ∀ (gd : Guard) (rd ra : Reg) (eng : Engine) (s : State), s.Issues gd → s.plain ra = true → s.plainDst rd = true →
    let a := (s.val ra).toNat
    let w := wordsOf 4 (s.mem.read (s.tcmAt a) 32)
    let r := 16 * wf (wordAt w 0) 16 11
    let form : Instr := match eng with
      | .mx => .issueMx gd rd ra | .qd => .issueQd gd rd ra | .cp => .issueCp gd rd ra | .cl => .issueCl gd rd ra
    let sync : Instr := match eng with
      | .mx => .issueMxSync gd rd ra | .qd => .issueQdSync gd rd ra | .cp => .issueCpSync gd rd ra
      | .cl => .issueClSync gd rd ra
    s.ctl.retry = false → s.tcmOk a 32 .r 32 → s.tcmClear ((s.seg 3).base.toNat + a) 32 →
    (r < 0x800 ∨ 0x6FF0 < r → ∀ i ∈ [form, sync],
      exec i s = .next (s.trapped 0x62 (((s.seg 3).base.toNat + r) % 2 ^ 57))) ∧
    (0x800 ≤ r → r ≤ 0x6FF0 → (s.core s.me.core).storeWaits r 16 = false → s.kickLoad eng s.me.core < eng.room →
      (s.core s.me.core).scb.length < 16 →
      let pushed (t : State) (npc : BitVec 32) := ∃ x, t.job s.ctl.nextJob = some x ∧ x.eng = eng ∧ x.core = s.me.core ∧
        x.tid = s.ctl.acting ∧ x.cmd.toList = w ∧ x.id / 32 = r / 16 ∧
        s.storesTo t (tcmKey s.me.core r) (leBytes 8 (x.id * 2 ^ 48 + wf (wordAt w 0) 28 3 * 2 ^ 16 +
          (if wf (wordAt w 0) 0 8 = 0x10 then wf (wordAt w 0) 40 4 else 0) * 2 ^ 12) ++ leBytes 8 0) ∧
        t.me.ctx = { (s.put rd (BitVec.ofNat 64 x.id)).me.ctx with pc := npc }
      (∃ t, exec form s = .next t ∧ pushed t (s.me.ctx.pc + 4) ∧ t.me.run = .active) ∧
      (∃ t, exec sync s = .next t ∧ pushed t s.me.ctx.pc ∧ t.me.run = .waiting ∧ t.me.cont = .observe r))

/-- R41, R234 to R236, R241: WAITJ and POLLJ find the record by the ID. POLLJ observes it in the pipe: the acquire, the predicate from
MATCH, and the trap after the effect for an error of a job that was not dropped; with DONE 0 it writes 0. WAITJ leaves the rotation and
observes when DONE is 1, at once when it is already. JDROP sets DROP in the record; a job that no engine has accepted ends with error 1.
FMT.LD checks its image and leaves the rotation; the context is loaded at once when the core has no matrix job outstanding, else when
those have completed. -/
def Obligations.ObservationResults : Prop :=
  (∀ (gd : Guard) (pd : Pred) (ra : Reg) (s : State), s.Issues gd → s.plain ra = true →
     let id := (s.val ra).toNat % 2 ^ 16
     let r := 16 * (id / 32)
     let ea := ((s.seg 3).base.toNat + r) % 2 ^ 57
     let w := s.recordWord s.me.core r
     let seen (u : State) : State :=
       let v := u.acquireAct s.myCluster (scopeOf (field w 16 3))
       if field w 12 4 ≠ 0 then v.putPred (BitVec.ofNat 4 (field w 12 4)) (bit w 3) else v
     (r < 0x800 ∨ 0x6FF0 < r → ∀ i ∈ [Instr.waitj gd ra, .pollj gd pd ra, .jdrop gd ra], exec i s = .next (s.trapped 0x62 ea)) ∧
     (0x800 ≤ r → r ≤ 0x6FF0 → field w 48 16 ≠ id → ∀ i ∈ [Instr.waitj gd ra, .pollj gd pd ra, .jdrop gd ra],
       exec i s = .next (s.trapped 0x63 ea)) ∧
     (0x800 ≤ r → r ≤ 0x6FF0 → field w 48 16 = id →
       (bit w 0 = false → exec (.pollj gd pd ra) s = .next (s.putPred pd false).done ∧
         ∃ t, exec (.waitj gd ra) s = .next t ∧ s.leavesTo t ∧ t.me.cont = .observe r) ∧
       (bit w 0 = true → ∃ t, exec (.waitj gd ra) s = .next t ∧ s.leavesTo t ∧ t.me.cont = .observe r ∧
         t.msgs.find s.ctl.nextMsg = some (.waitEnd (.thread s.ctl.acting))) ∧
       (bit w 0 = true → field w 40 8 = 0 ∨ field w 40 8 = 1 ∨ bit w 2 = true →
         exec (.pollj gd pd ra) s = .next (seen (s.putPred pd true)).done) ∧
       (bit w 0 = true → field w 40 8 ≠ 0 → field w 40 8 ≠ 1 → bit w 2 = false →
         let c := if field w 40 8 = 2 then 0x61 else 0x60
         exec (.pollj gd pd ra) s =
           .next ((seen (s.putPred pd true)).done.takeTrap s.ctl.acting c s.me.ctx.pc.toNat (s.me.ctx.pc + 4).toNat ea
             s.me.word)))) ∧
  (∀ (tid r : Nat) (s : State), 32768 ≤ tid → (s.threads.find tid).isSome = true →
     let u := s.thread tid
     let w := s.recordWord u.core r
     s.msgs.find s.ctl.ev.a = some (.waitEnd (.thread tid)) → s.awaits (.thread tid) = false → u.cont = .observe r →
     u.run = .waiting → u.slot = none → bit w 0 = true → field w 40 8 = 0 ∨ field w 40 8 = 1 ∨ bit w 2 = true →
     s.breakpoint u.ctx.gtid u.ctx.pc.toNat = false → s.ctl.need = none →
     ∃ t, exec .replyArrival s = .next t ∧ (t.thread tid).run = .ready ∧ (t.thread tid).cont = .none ∧ t.mem = s.mem ∧
       (t.thread tid).ctx = { u.ctx with
         pc := u.ctx.pc + 4,
         psw := if field w 12 4 ≠ 0 then pswSetPred u.ctx.psw (field w 12 4) (bit w 3) else u.ctx.psw }) ∧
  (∀ (gd : Guard) (ra : Reg) (s : State), s.Issues gd → s.plain ra = true →
     (let id := (s.val ra).toNat % 2 ^ 16
      let r := 16 * (id / 32)
      let w := s.recordWord s.me.core r
      0x800 ≤ r → r ≤ 0x6FF0 → field w 48 16 = id →
       ∃ t, exec (.jdrop gd ra) s = .next t ∧ t.me.run = .waiting ∧ t.me.ctx = s.me.ctx ∧
         s.storesTo t (tcmKey s.me.core r) (leBytes 8 (putField (BitVec.ofNat 64 w) 2 1 1).toNat) ∧
         ∀ j x, s.jobs.find? (fun j => j.2.tcmCore == s.me.core && j.2.pond == s.me.ident.pond && j.2.id == id &&
             !j.2.finished) = some (j, x) →
           ∃ y, t.job j = some y ∧ y.dropped = true ∧ (x.accepted = false → y.accepted = true ∧ y.err = 1)) ∧
     (let a := (s.val ra).toNat
      let ws := wordsOf 4 (s.mem.read (s.tcmAt a) 32)
      let img : Vector Word 4 := #v[wordAt ws 0, wordAt ws 1, wordAt ws 2, wordAt ws 3]
      let n := s.me.core % 8
      s.tcmOk a 32 .r 32 → s.tcmClear ((s.seg 3).base.toNat + a) 32 →
       (badContext ws = true → exec (.fmtLd gd ra) s = .next (s.trapped 0x61 (((s.seg 3).base.toNat + a) % 2 ^ 57))) ∧
       (badContext ws = false → s.matrixJobs s.me.core = [] →
         ∃ t, exec (.fmtLd gd ra) s = .next t ∧ s.leavesTo t ∧
           (t.cluster s.myCluster).mx.ctxs = (s.cluster s.myCluster).mx.ctxs.setIfInBounds n img ∧
           t.msgs.find s.ctl.nextMsg = some (.reply (.thread s.ctl.acting) {})) ∧
       (badContext ws = false → s.matrixJobs s.me.core ≠ [] →
         ∃ t, exec (.fmtLd gd ra) s = .next t ∧ s.leavesTo t ∧
           (t.cluster s.myCluster).mx.fmtWait = (s.cluster s.myCluster).mx.fmtWait ++
             [(n, s.ctl.acting, img, s.matrixJobs s.me.core)])))

/-! ## Threads, gangs, messages, nets (R255 to R279) -/

/-- R256: SPAWN writes the child into a free run-queue entry of the issuing core, else of the roomiest core of the cluster,
and answers the core's number; with no entry free it answers 2^64 − 1; a bad entry point, rank or level traps with 0x08.
R260: LNCH reads its record through s0, hands it to the scheduler and answers what that says; stated where the segment table entries
that the record names, and the page tables that lead to them, can be read at once. That an s0 of object space raises 0x24 there is the
model's choice (log 81). -/
def Obligations.SpawnAndLaunchResults : Prop :=
  ∀ (gd : Guard) (rd ra rb : Reg) (s : State), s.Issues gd → s.plain ra = true → s.plain rb = true → s.plainDst rd = true →
    s.ctl.acting ≠ s.ctl.nextTid →
    let a := (s.val ra).toNat
    let answersWith (t : State) (m : Memory) (v : Word) := s.leavesTo { t with mem := s.mem } ∧ t.mem = m ∧
      (∃ k, t.me.cont = .reply k ∧ k.rd = some rd) ∧
      ∃ i, s.ctl.nextMsg ≤ i ∧ t.msgs.find i = some (.reply (.thread s.ctl.acting) { value := v })
    (let bad := a % 4 ≠ 0 ∨ a / 2 ^ 32 = 0xFFFFFFFF ∨ pswLvl s.me.ctx.psw = 2
     let place := if 0 < s.freeEntries s.me.core then some s.me.core else s.roomiest s.myCluster
     (bad → exec (.spawn gd rd ra rb) s = .next (s.trapped 0x08 0)) ∧
     (¬bad → place = none → ∃ t, exec (.spawn gd rd ra rb) s = .next t ∧ answersWith t s.mem (BitVec.allOnes 64)) ∧
     (∀ c, ¬bad → place = some c → (s.cluster s.myCluster).crew.isSome = true →
      ∃ t u, exec (.spawn gd rd ra rb) s = .next t ∧
        answersWith t (s.mem.clearPoison (ctxKey c (s.freeEntry c)) 128) (BitVec.ofNat 64 c) ∧
        t.threads.find s.ctl.nextTid = some u ∧ u.run = .ready ∧ u.core = c ∧ u.ctx.pc = BitVec.ofNat 32 (a % 2 ^ 32) ∧
        u.ctx.g[0] = s.val rb ∧ u.ctx.gtid = s.servedTask s.ctl.acting ∧ u.ident.pondRank = BitVec.ofNat 32 (a / 2 ^ 32) ∧
        s.ctl.nextTid ∈ (t.core c).entries)) ∧
    (let g := s.seg 0
     let e := g.base.toNat + a
     let bs := s.mem.read (s.localKey g e) 64
     let who := threadAsker s.ctl.acting
     (∀ c, s.segCheck g a 64 .r 64 = some c → exec (.lnch gd rd ra rb) s = .next (s.trapped c (e % 2 ^ 57))) ∧
     (s.segCheck g a 64 .r 64 = none → g.space = .object → exec (.lnch gd rd ra rb) s = .next (s.trapped 0x24 (e % 2 ^ 57))) ∧
     (s.segCheck g a 64 .r 64 = none → s.mem.sound (s.localKey g e) 64 → s.mustWait s.myCluster .device = false →
      (g.space = .tcm ∧ (s.core s.me.core).loadWaits e 64 = false) ∨
        (g.space = .scratch ∧ (s.cluster s.myCluster).lineWaits e 64 = false) →
      s.entryAway who s.myTenant (Lr.ofWords (wordsOf 8 bs)) = none →
        let r := s.submit who s.myTenant ((s.val rb).toNat % 2 ^ 12) (Lr.ofWords (wordsOf 8 bs))
        ∃ t, exec (.lnch gd rd ra rb) s = .next t ∧ answersWith t r.1.mem r.2) ∧
     (∀ (x : TlbEntry) l, s.segCheck g a 64 .r 64 = none → g.space = .global → s.tlbHit e .load x →
      (s.cluster s.myCluster).l1Find (s.asidOf s.myCluster) (e / 128) = some l →
      l.holds (e % 128) 64 → s.mustWait s.myCluster .device = false →
      s.entryAway who s.myTenant (Lr.ofWords (wordsOf 8 (l.bytes (e % 128) 64))) = none →
      ∃ t v, exec (.lnch gd rd ra rb) s = .next t ∧ answersWith t t.mem v))

/-- R257 to R259: YIELD puts a worker at the tail of its run queue and does nothing in slots 0 and 1 and in a gang; EXIT
ends a thread after its release, ends a handler in slot 1, and traps in slot 0 and in a gang; MIGR yields for its own
cluster, traps outside the pond and in a gang, and else reserves an entry in the target cluster and departs. R40: slots 0 and 1 are
never displaced; that MIGR to another cluster raises 0x08 there is the model's choice (log 80). -/
def Obligations.YieldExitMigrResults : Prop :=
  ∀ (gd : Guard) (ra : Reg) (s : State), s.Issues gd → s.plain ra = true →
    let yields (i : Instr) :=
      (s.ctl.acting < 32768 ∨ s.lockstep = true → exec i s = .next s.done) ∧
      (32768 ≤ s.ctl.acting → s.lockstep = false → s.me.slot.isSome = true → ∃ t, exec i s = .next t ∧
        t.me.run = .ready ∧ t.me.ctx = { s.me.ctx with pc := s.me.ctx.pc + 4 } ∧ t.mem = s.mem ∧
        (t.core s.me.core).fifo = (s.core s.me.core).fifo ++ [s.ctl.acting])
    let target := (s.val ra).toNat % 2 ^ 11
    yields (.yield gd) ∧
    (s.isSlot0 = true ∨ s.lockstep = true → exec (.exit gd) s = .next (s.trapped 0x08 0)) ∧
    (s.isSlot1 = true → s.lockstep = false → s.mustWait s.myCluster .device = false → s.ctl.acting / 2 = s.me.core →
      ∃ t, exec (.exit gd) s = .next t ∧ t.me.run = .idle ∧ (t.core s.me.core).net.running = none ∧ t.mem = s.mem) ∧
    (32768 ≤ s.ctl.acting → s.lockstep = false → s.mustWait s.myCluster .device = false →
      ∃ t, exec (.exit gd) s = .next t ∧ t.threads.find s.ctl.acting = none ∧
        s.ctl.acting ∉ (t.core s.me.core).entries ∧ t.mem = s.mem) ∧
    (s.isSlot0 = false → s.lockstep = false → s.mustWait s.myCluster .device = true →
      ∃ t, exec (.exit gd) s = .next t ∧ t.me.run = .waiting ∧ t.me.cont = .exit ∧ t.me.ctx = s.me.ctx ∧
        (s.writesBack s.myCluster → t.mem = s.mem)) ∧
    (s.inPond s.me.ident.pond target = false ∨ s.lockstep = true → exec (.migr gd ra) s = .next (s.trapped 0x08 0)) ∧
    (s.inPond s.me.ident.pond target = true → s.lockstep = false → s.ctl.acting < 32768 → target ≠ s.myCluster →
      exec (.migr gd ra) s = .next (s.trapped 0x08 0)) ∧
    (s.inPond s.me.ident.pond target = true → s.lockstep = false →
      target = s.myCluster ∨ (32768 ≤ s.ctl.acting ∧ field s.me.ctx.trw.toNat 0 8 ≠ 0) → yields (.migr gd ra)) ∧
    (s.inPond s.me.ident.pond target = true → s.lockstep = false → 32768 ≤ s.ctl.acting → target ≠ s.myCluster →
      field s.me.ctx.trw.toNat 0 8 = 0 → ∃ t, exec (.migr gd ra) s = .next t ∧ t.me.run = .waiting ∧ t.me.ctx = s.me.ctx ∧
        (s.writesBack s.myCluster → t.mem = s.mem) ∧
        match s.roomiest target with
        | some c => t.me.cont = .depart c ∧ (t.core c).reserved = (s.core c).reserved + 1
        | none => t.me.cont = .depart (16384 + target))

/-- R261, R262: a GANG form traps at LVL 2, in a gang, in slots 0 and 1 and beside a GANG of another size; it waits until
every core of the group holds a thread of the task in the same form, and the last to come starts all of them at the
leader's next word. UNGANG ends the gang: every member leaves the rotation (R41) with its own reply to come, after which it goes on at
the next word; it does nothing outside a gang. -/
def Obligations.GangResults : Prop :=
  ∀ (gd : Guard) (n : Nat) (s : State), s.Issues gd → n = 2 ∨ n = 4 ∨ n = 8 →
    let i : Instr := if n = 2 then .gang2 gd else if n = 4 then .gang4 gd else .gang8 gd
    let k := s.me.slot.getD 0
    let us := s.groupSlot s.me.core n k
    let bad := pswLvl s.me.ctx.psw = 2 ∨ s.lockstep = true ∨ k < 2
    (bad → exec i s = .next (s.trapped 0x07 0)) ∧
    (¬bad → (∃ u, some u ∈ us ∧ s.formingElse n u = true) → exec i s = .next (s.trapped 0x07 0)) ∧
    (¬bad → (∀ u, some u ∈ us → s.formingElse n u = false) → (none ∈ us ∨ ∃ u, some u ∈ us ∧ u ≠ s.ctl.acting ∧
        (s.formingIn n u = false ∨ (s.thread u).ctx.gtid ≠ s.me.ctx.gtid)) →
      ∃ t, exec i s = .next t ∧ t.me.run = .forming n ∧ t.me.ctx = s.me.ctx ∧ t.me.slot = s.me.slot ∧ t.mem = s.mem ∧
        t.scheduled .gangFormationTimeout s.ctl.acting = true) ∧
    (∀ (ms : List Nat) (lead : Nat), ¬bad → us = ms.map some → ms.Nodup → ms.head? = some lead → s.ctl.acting ∈ ms →
      (∀ u ∈ ms, u ≠ s.ctl.acting → s.formingIn n u = true ∧ (s.thread u).ctx.gtid = s.me.ctx.gtid) →
      (∀ u ∈ ms, s.breakpoint s.me.ctx.gtid (s.thread u).ctx.pc.toNat = false) →
      ∃ t, exec i s = .next t ∧ t.mem = s.mem ∧ ∀ u ∈ ms, (t.thread u).run = .active ∧
        (t.thread u).ctx = { (s.thread u).ctx with
          pc := (s.thread lead).ctx.pc + 4,
          psw := putField (putField (s.thread u).ctx.psw 38 2 (if n = 2 then 1 else if n = 4 then 2 else 3)) 40 1
            (b2n (u == lead)) }) ∧
    (s.me.inGang = false → exec (.ungang gd) s = .next s.done) ∧
    (s.me.inGang = true → ∃ t, exec (.ungang gd) s = .next t ∧ t.mem = s.mem ∧
      ∀ u ∈ s.gangOf s.ctl.acting, (t.thread u).run = .waiting ∧ (t.thread u).cont = .reply {} ∧
        (32768 ≤ u → (t.thread u).slot = none) ∧
        (t.thread u).ctx = { (s.thread u).ctx with
          pc := s.me.ctx.pc, psw := putField (putField (s.thread u).ctx.psw 38 2 0) 40 1 0 } ∧
        ∃ i, t.msgs.find i = some (.reply (.thread u) {}))

/-- R265, R267, R268: AM.SEND puts one message with the task's tenant and KIND 0 on its way; GSTORE hands its value to the
core's interface, or traps with 0x82; PROBE.START asks the counter's home, whose check of the type it awaits as the model reads the rule
(log 27). -/
def Obligations.MessageFormsAreSent : Prop :=
  ∀ (gd : Guard) (ra rb : Reg) (s : State), s.Issues gd → s.plain ra = true → s.admits s.myTenant →
    (s.plain rb = true →
      let a := s.val ra
      let n := field a.toNat 32 4
      let b := (s.val rb).toNat
      (8 < n → exec (.amSend gd ra rb) s = .next (s.trapped 0x08 0)) ∧
      (n ≤ 8 → n = 0 ∨ (s.tcmOk b (8 * n) .r 8 ∧ s.tcmClear ((s.seg 3).base.toNat + b) (8 * n)) →
        ∃ t m d, exec (.amSend gd ra rb) s = .next t ∧ s.leavesTo t ∧ t.msgs.find s.ctl.nextMsg = some (.net m d) ∧
          m.header = putField (putField a 24 8 s.myTenant) 36 2 0 ∧
          m.payload = (if n = 0 then [] else wordsOf n (s.mem.read (s.tcmAt b) (8 * n))) ∧
          m.sender = .thread s.ctl.acting ∧ m.asked = true)) ∧
    (s.plain rb = true →
      let core := s.me.core
      let grp := (s.val ra).toNat % 2 ^ 12
      let e := s.groupEntry (core / 2048) grp
      let lost := (s.core core).groupBad.contains grp = true
      let bad := (geLocals e).contains (core % 2048) = false ∨ geTen e ≠ s.myTenant ∨ (geState e = 2 ∧ s.opensRound .nobody core (s.storeId s.me.ident.pond core) grp = true)
      (geState e = 0 ∨ (¬lost ∧ bad) → exec (.gstore gd ra rb) s = .next (s.trapped 0x82 0)) ∧
      (geState e ≠ 0 → lost → exec (.gstore gd ra rb) s = .next
        ((s.updCore core fun c => { c with groupBad := c.groupBad.filter (· != grp) }).trapped 0x82 0)) ∧
      (geState e ≠ 0 → ¬lost → ¬bad → (s.core core).groupOpen.contains grp = false → s.mustWait s.myCluster .device = false →
        ∃ t x, exec (.gstore gd ra rb) s = .next t ∧ s.leavesTo t ∧ (t.core core).groupOpen.contains grp = true ∧
          t.msgs.find s.ctl.nextMsg = some (.contribution x) ∧ x.vals = [(widenIn (geFmt e) (s.val rb)).1] ∧ x.tenant = s.myTenant)) ∧
    (∀ (e : TlbEntry) (va : Nat), s.objOk (s.val ra).toNat 16 va e → ∃ t, exec (.probeStart gd ra) s = .next t ∧
      s.requests t va (.probeType (s.val ra).toNat) .device true none none none)

/-- R270 to R272, R275, R279: a net form checks its node operands in s4 and sends its operation to the home of its node; the
forms that write the net release first. R271: N.FREE raises 0x4A with no effect where the cluster's limbo list has no room, which for a
node of another device is checked at the issuing cluster (the model's choice, log 29). R276, R278: PAIR.POP answers the head pair of the cluster's pool, which then counts
as busy, or 2^64 − 1; RULE.LD sets the cluster's table base after its check. -/
def Obligations.NetFormResults : Prop :=
  (∀ (gd : Guard) (rd ra rb : Reg) (e : TlbEntry) (s : State), s.Issues gd → s.plain ra = true → s.plain rb = true →
     s.plainDst rd = true → s.admits s.myTenant → (s.seg 4).space = .object →
     let a := (s.val ra).toNat
     let b := (s.val rb).toNat
     let node (x : Nat) := (s.seg 4).base.toNat + x / 4 * 4
     let ok (x : Nat) := s.segCheck (s.seg 4) (x / 4 * 4) 32 .o 16 = none ∧ node x < 2 ^ 57
     let sends (i : Instr) (va : Nat) (op : HomeOp) (rel : Bool) (rd : Option Reg) (acq : Option Scope) :=
       ∃ t, exec i s = .next t ∧ s.requests t va op .device rel rd none acq
     let u := 32 * field a 0 32
     let v := 32 * field a 32 32
     (ok a → s.tlbHit (node a) .object e →
       let full := s.isLocal (e.phys (node a)) = false ∧ s.limboFull s.myCluster = true
       (full → exec (.nFree gd ra) s = .next (s.trapped 0x4A 0)) ∧
       (¬full → sends (.nFree gd ra) (node a) .nFree true none none)) ∧
     (ok a → s.tlbHit (node a + 8 * (a % 4)) .object e →
       sends (.nLink gd ra rb) (node a) (.nLink 0 a b) true none none ∧
       sends (.nRead gd rd ra) (node a) (.nRead (a % 4)) false (some rd) (some .device) ∧
       (ok b → sends (.nRelink gd rd ra rb) (node a) (.nRelink 0 a b 0 0) true (some rd) none)) ∧
     (∀ e', ok a → ok b → s.tlbHit (node a) .object e' → (s.tlbUsed (node a) .object).tlbHit (min (node a) (node b)) .object e →
       sends (.pairPush gd ra rb) (min (node a) (node b)) (.pairPush a b) true none none) ∧
     (ok u → ok v → s.tlbHit (node u) .object e →
       sends (.ruleGo gd ra) (node u) (.ruleGo 0 u v 0) false none (some .device)) ∧
     (a / 2 ^ 10 ≠ 0 ∨ bit a 7 = true → exec (.nAlloc gd rd ra) s = .next (s.trapped 0x08 0)) ∧
     (a / 2 ^ 10 = 0 → bit a 7 = false → s.mayAlloc s.myCluster = true →
       let head := (s.cluster s.myCluster).regs.nfl
       (head = BitVec.allOnes 64 → ∃ t, exec (.nAlloc gd rd ra) s = .next t ∧ s.leavesTo t ∧
         t.msgs.find s.ctl.nextMsg = some (.reply (.thread s.ctl.acting) { value := BitVec.allOnes 64 })) ∧
       (head ≠ BitVec.allOnes 64 → ok head.toNat → s.tlbHit (node head.toNat) .object e →
         sends (.nAlloc gd rd ra) (node head.toNat) (.nAlloc (field a 0 7) (field a 8 2)) false (some rd) none))) ∧
  (∀ (gd : Guard) (rd ra : Reg) (s : State), s.Issues gd →
     (s.plainDst rd = true → s.me.aux.popped = none →
       let p := (s.cluster s.myCluster).pool
       let answers (t : State) (v : Word) := s.leavesTo t ∧ (∃ k, t.me.cont = .reply k ∧ k.rd = some rd) ∧
         t.msgs.find s.ctl.nextMsg = some (.reply (.thread s.ctl.acting) { value := v })
       (p.pairs = [] → ∃ t, exec (.pairPop gd rd) s = .next t ∧ answers t (BitVec.allOnes 64)) ∧
       (∀ u v rest, p.pairs = (u, v) :: rest → p.waiting = [] → ∃ t, exec (.pairPop gd rd) s = .next t ∧
         answers t (BitVec.ofNat 64 (u % 2 ^ 32 + v % 2 ^ 32 * 2 ^ 32)) ∧ t.me.aux.popped = some s.myCluster ∧
         (t.cluster s.myCluster).pool = { p with pairs := rest, busy := p.busy + 1 })) ∧
     (s.plain ra = true →
       let a := (s.val ra).toNat
       (∀ c, s.segCheck (s.seg 0) a 65536 .r 64 = some c →
         exec (.ruleLd gd ra) s = .next (s.trapped c (((s.seg 0).base.toNat + a) % 2 ^ 57))) ∧
       (s.segCheck (s.seg 0) a 65536 .r 64 = none → ∃ t, exec (.ruleLd gd ra) s = .next t ∧ s.leavesTo t ∧
         (t.cluster s.myCluster).regs.rtb = (s.val ra).setWidth 57)))

/-! ## System registers, traps, debug (R280, R281, R402 to R418) -/

/-- R280 with R16: what SRD reads and SWR writes for each register and role; an access that the table does not permit traps
with 0x05 and changes nothing. -/
def Obligations.SystemRegisterResults : Prop :=
  ∀ (gd : Guard) (x : Reg) (n : SysReg) (s : State), s.Issues gd →
    let cl := s.myCluster
    let reads (n : SysReg) (v : Word) := exec (.srd gd x n) s = .next (s.put x v).done
    let writes (n : SysReg) (u : State) := exec (.swr gd x n) s = .next u.done
    let ctx (f : Ctx → Ctx) := s.updMe fun t => { t with ctx := f t.ctx }
    let trap (f : TrapRegs → TrapRegs) := s.updMe fun t => { t with trap := f t.trap }
    let regs (f : ClusterRegs → ClusterRegs) := s.updCluster cl fun c => { c with regs := f c.regs }
    (s.plainDst x = true →
      reads .status s.me.ctx.psw ∧ reads .cause (s.me.trap.cause.setWidth 64) ∧ reads .epc (s.me.trap.epc.setWidth 64) ∧
      reads .eword (s.me.trap.eword.setWidth 64) ∧ reads .eaddr (s.me.trap.eaddr.setWidth 64) ∧
      reads .task ((s.gtidOf s.ctl.acting).setWidth 64) ∧ reads .trapvec ((s.cluster cl).regs.trapvec.setWidth 64) ∧
      reads .tnd (BitVec.ofNat 64 (field s.me.ctx.trw.toNat 0 8)) ∧ reads .migthr ((s.cluster cl).regs.migthr.setWidth 64) ∧
      reads .agelim (BitVec.ofNat 64 (s.cluster cl).router.agelim) ∧ reads .choruscfg s.dev.chorus.cfg ∧
      reads .nfl (s.cluster cl).regs.nfl ∧ reads .rtb ((s.cluster cl).regs.rtb.setWidth 64) ∧
      reads .cycle (BitVec.ofNat 64 (s.coreCycle s.me.core)) ∧ (s.role s.ctl.acting ≠ .task → reads .tscr s.me.trap.tscr)) ∧
    (s.plain x = true →
      let v := s.val x
      writes .status (ctx fun c => { c with psw := pswWrite c.psw v }) ∧
      writes .migthr (regs fun r => { r with migthr := v.setWidth 16 }) ∧
      (s.mayAlloc cl = true → writes .nfl (regs fun r => { r with
        nfl := if v = BitVec.allOnes 64 then v else v &&& 0x01FFFFFFFFFFFFFF })) ∧
      (s.role s.ctl.acting ≠ .task →
        writes .cause (trap fun r => { r with cause := v.setWidth 8 }) ∧
        writes .epc (trap fun r => { r with epc := v.setWidth 32 }) ∧
        writes .eaddr (trap fun r => { r with eaddr := v.setWidth 57 }) ∧ writes .tscr (trap fun r => { r with tscr := v })) ∧
      ∀ p, s.pond (s.pondOf s.ctl.acting) = some p → ∃ t, exec (.swr gd x .trapvec) s = .next t ∧ s.leavesTo t ∧
        ∀ c ∈ p.clusters, (t.cluster c).regs.trapvec = v.setWidth 32) ∧
    (s.role s.ctl.acting = .task → exec (.srd gd x .tscr) s = .next (s.trapped 0x05 0) ∧
      (n ∈ [SysReg.cause, .epc, .eaddr, .tscr] → exec (.swr gd x n) s = .next (s.trapped 0x05 0))) ∧
    (n ∈ [SysReg.eword, .task, .tnd, .agelim, .choruscfg, .rtb, .cycle] → exec (.swr gd x n) s = .next (s.trapped 0x05 0))

/-- R402: a worker that traps enters its handler: CAUSE, EPC, EADDR and EWORD saved, TND counted, LVL 1, the pc at TRAPVEC;
nothing else of it changes. Without a handler, or at TND 255, it ends. R407: slot 0 restarts at its entry, offset 0 by the model's choice
(log 5). -/
def Obligations.TrapEntryResults : Prop :=
  ∀ (c pc epc addr : Nat) (word : BitVec 32) (s : State),
    let t := s.takeTrap s.ctl.acting c pc epc addr word
    let vec := s.trapvec s.ctl.acting &&& 0xFFFFFFFC
    let tnd := field s.me.ctx.trw.toNat 0 8
    (32768 ≤ s.ctl.acting → s.me.inGang = false → vec ≠ 0 → tnd ≠ 255 →
      t.me.trap.cause = BitVec.ofNat 8 c ∧ t.me.trap.epc = BitVec.ofNat 32 epc ∧ t.me.trap.eaddr = BitVec.ofNat 57 addr ∧
      t.me.trap.eword = word ∧ t.me.trap.tscr = s.me.trap.tscr ∧
      t.me.ctx = { s.me.ctx with
        trw := putField s.me.ctx.trw 0 8 (tnd + 1), psw := putField s.me.ctx.psw 36 2 1, pc := vec } ∧
      t.me.segs = s.me.segs ∧ t.me.run = s.me.run ∧ t.mem = s.mem ∧ t.msgs = s.msgs) ∧
    (32768 ≤ s.ctl.acting → s.me.inGang = false → vec = 0 ∨ tnd = 255 → s.mustWait s.myCluster .device = false →
      t.threads.find s.ctl.acting = none) ∧
    (s.isSlot0 = true → t.me.ctx = { s.me.ctx with pc := 0 } ∧ t.me.run = s.me.run ∧ t.mem = s.mem) ∧
    (s.isSlot1 = true → t.me.run = .idle ∧ (t.core (s.ctl.acting / 2)).net.running = none)

/-- R281, R403, R404: TRAP and BRK take their causes after the effect, with EPC at the next word; ERET goes on at EPC with
TND lowered and LVL 0 at the last level, and traps with 0x05 outside a trap; an illegal word and a failed fetch take their
causes with EPC at the word. -/
def Obligations.TrapAndReturnResults : Prop :=
  ∀ (gd : Guard) (n : BitVec 8) (s : State),
    let tnd := field s.me.ctx.trw.toNat 0 8
    let npc := (s.me.ctx.pc + 4).toNat
    let vec := s.trapvec s.ctl.acting &&& 0xFFFFFFFC
    (s.Issues gd →
      exec (.trap gd n) s = .next (s.done.takeTrap s.ctl.acting 0x06 s.me.ctx.pc.toNat npc n.toNat s.me.word) ∧
      exec (.brk gd) s = .next (s.done.takeTrap s.ctl.acting 0xA0 s.me.ctx.pc.toNat npc 0 s.me.word) ∧
      (tnd = 0 → exec (.eret gd) s = .next (s.trapped 0x05 0)) ∧
      (tnd ≠ 0 → exec (.eret gd) s = .next ((s.updMe fun t => { t with ctx := { t.ctx with
        trw := putField t.ctx.trw 0 8 (tnd - 1), psw := if tnd = 1 then putField t.ctx.psw 36 2 0 else t.ctx.psw } }).advance
          (s.me.trap.epc &&& 0xFFFFFFFC)))) ∧
    (32768 ≤ s.ctl.acting → s.me.run = .active → s.me.inGang = false → s.ctl.lock = [] →
      vec ≠ 0 → tnd ≠ 255 →
      ∀ p ∈ [(Instr.illegalWord, if isFma s.me.word.toNat && pswRq s.me.ctx.psw then 0x02 else s.ctl.ev.a), (.fetchTrap, s.ctl.ev.a)],
      ∃ t, exec p.1 s = .next t ∧ t.me.trap.cause = BitVec.ofNat 8 p.2 ∧
        t.me.trap.epc = s.me.ctx.pc ∧ t.me.trap.eword = s.me.word ∧ t.me.ctx.pc = vec ∧ t.me.ctx.g = s.me.ctx.g ∧ t.mem = s.mem)

/-- R411, R416, R418: WATCH writes its watchpoint into the task's debug entry, and traps with 0x08 without one; CHORUS.MARK
stores its mark with the cycle; TRACE.MARK appends one record to the cluster's trace buffer. -/
def Obligations.DebugFormResults : Prop :=
  ∀ (gd : Guard) (ra rb : Reg) (s : State), s.Issues gd → s.plain ra = true →
    (s.plain rb = true →
      (s.debugEntry (s.servedTask s.ctl.acting) = none → exec (.watch gd ra rb) s = .next (s.trapped 0x08 0)) ∧
      (∀ i e, s.debugEntry (s.servedTask s.ctl.acting) = some (i, e) → ∃ t, exec (.watch gd ra rb) s = .next t ∧ s.leavesTo t ∧
        let a := (s.val ra).toNat
        let z := 2 ^ field a 4 4
        t.dev.dbg.find i = some (e.setIfInBounds (3 + a % 4) (BitVec.ofNat 64
          (field a 4 4 * 2 ^ 60 + field a 2 2 * 2 ^ 58 + (s.val rb).toNat % 2 ^ 57 / z * z))))) ∧
    exec (.chorusMark gd ra) s = .next (s.updMe fun t => { t with
      aux := { t.aux with mark := some ((s.val ra).setWidth 32, s.ctl.cycle) } }).done ∧
    (let b := (s.cluster s.myCluster).trace
     b.gating = none → b.lost = 0 → b.recs.length < 256 → ∃ t x, exec (.traceMark gd ra) s = .next t ∧ s.passesTo t ∧
      (t.cluster s.myCluster).trace.recs = b.recs ++ [x] ∧ x[0] = BitVec.ofNat 64 (s.ctl.cycle % 2 ^ 48) ∧
      x[1] = BitVec.ofNat 64 ((s.gtidOf s.ctl.acting).toNat * 2 ^ 32 + s.me.ctx.pc.toNat) ∧ x[2] = s.val ra ∧ x[3] = 0)

/-! ## Rows of the schedule: threads (R31 to R44, R136, R184, R210, R261, R337, R338) -/

/-- R41 to R44, R136, R184, R210, R261, R337, R338, R392: a binding gives the head of the run queue its slot and identity word;
a quantum's end puts the thread at the tail; a migration reserves an entry, departs when nothing is awaited and arrives ready;
a GANG that is not met in time traps. A reply or a wake writes its result and makes the thread ready at its next word; a page
fault parks the thread with a token; an instruction line joins the cache; the special-function queue's head finishes; a walk
fills the TLB, or parks its thread. Stated for a worker thread that is listed. -/
def Obligations.ThreadRowResults : Prop :=
  (∀ (tid c : Nat) (s : State), 32768 ≤ tid → (s.threads.find tid).isSome = true →
     let u := s.thread tid
     let a := s.ctl.ev.a
     let b := s.ctl.ev.b
     (∀ rest, s.ctl.ev.c ≠ 1 → 2 ≤ b → b < 8 → (s.core a).slots.toList.getD b .empty = .empty → (s.core a).fifo = tid :: rest → u.core = a →
       u.run = .ready → u.cont = .none → (∀ i : Fin 8, u.ctx.sel[i] = 0) →
       s.mem.firstPoison (tcmKey a (0x7000 + 128 * u.aux.entry)) 128 = none →
       ∃ t, exec .tadpoleBinding s = .next t ∧ (t.thread tid).run = .active ∧ (t.thread tid).slot = some b ∧
         (t.core a).fifo = rest ∧ (t.core a).slots.toList.getD b .empty = .loading tid 1 ∧
         (∀ i : Fin 8, (t.thread tid).segs[i] = {}) ∧ (t.thread tid).ctx.g = u.ctx.g ∧ (t.thread tid).ctx.pc = u.ctx.pc ∧
         s.storesTo t (tcmKey a (8 * (248 + b))) (leBytes 8 (bindWord b u.ident).toNat)) ∧
     ((s.core a).slots.toList.getD b .empty = .held tid → u.core = a → u.run = .active → u.slot.isSome = true →
       ∃ t, exec .quantumExpiry s = .next t ∧ (t.thread tid).run = .ready ∧ (t.thread tid).slot = none ∧
         (t.core a).fifo = (s.core a).fifo ++ [tid] ∧ (t.thread tid).ctx = u.ctx ∧ t.mem = s.mem) ∧
     (∀ target, a = tid → u.aux.migReq = some target → u.inGang = false → field u.ctx.trw.toNat 0 8 = 0 →
       s.entryJobs u.core u.aux.entry = 0 → u.run = .active → target ≠ u.core / 8 → ∃ t, exec .hardwareMigration s = .next t ∧ (t.thread tid).ctx = u.ctx ∧
         match s.roomiest target with
         | some k => (t.thread tid).run = .waiting ∧ (t.thread tid).cont = .depart k ∧
           (t.core k).reserved = (s.core k).reserved + 1
         | none => (t.thread tid).run = .active ∧ (t.thread tid).aux.migReq = none) ∧
     (a = tid → u.cont = .depart c → c < 16384 → s.entryJobs u.core u.aux.entry = 0 → u.aux.appends = 0 →
       s.awaits (.thread tid) = false → ∃ t, exec .migrationDeparture s = .next t ∧ (t.thread tid).run = .moving ∧
         (t.thread tid).ctx = { u.ctx with
           rmt := putField (putField u.ctx.rmt 0 16 0) 39 1 0 &&& 0xFFFFFFFFFF, psw := pswClean u.ctx.psw,
           trw := u.ctx.trw &&& 0x1FF } ∧
         t.msgs.find s.ctl.nextMsg = some (.tadpole tid c)) ∧
     (a = tid → u.cont = .depart c → 16384 ≤ c → ∃ t, exec .migrRetry s = .next t ∧ (t.thread tid).ctx = u.ctx ∧
       match s.roomiest (c - 16384) with
       | some k => (t.thread tid).cont = .depart k ∧ (t.core k).reserved = (s.core k).reserved + 1
       | none => t.scheduled .migrRetry tid = true) ∧
     (s.msgs.find a = some (.tadpole tid c) → s.isSavedThread tid = false → u.cont = .none ∨ u.cont = .second →
       s.breakpoint u.ctx.gtid u.ctx.pc.toNat = false → ∃ t, exec .tadpoleArrival s = .next t ∧
         (t.thread tid).core = c ∧ (t.thread tid).run = .ready ∧ (t.thread tid).slot = none ∧ tid ∈ (t.core c).entries ∧
         tid ∈ (t.core c).fifo ∧ (t.thread tid).ctx.g = u.ctx.g ∧
         (t.thread tid).ctx.pc = if u.cont = .none then u.ctx.pc else u.ctx.pc + 4) ∧
     (∀ n, a = tid → u.run = .forming n → u.aux.waitAt = b → u.slot.isSome = true → u.inGang = false →
       ((s.groupSlot u.core n (u.slot.getD 0)).filterMap id).filter (s.formingIn n) = [tid] →
       s.isSavedThread tid = false → s.trapvec tid &&& 0xFFFFFFFC ≠ 0 → field u.ctx.trw.toNat 0 8 ≠ 255 →
       ∃ t, exec .gangFormationTimeout s = .next t ∧ (t.thread tid).run = .active ∧ (t.thread tid).trap.cause = 0x07 ∧
         (t.thread tid).trap.epc = u.ctx.pc ∧
         (t.thread tid).ctx.pc = s.trapvec tid &&& 0xFFFFFFFC)) ∧
  (∀ (tid : Nat) (s : State), 32768 ≤ tid → (s.threads.find tid).isSome = true → s.isSavedThread tid = false →
     s.ctl.need = none →
     let u := s.thread tid
     let a := s.ctl.ev.a
     let parked (t : State) (c va : Nat) := (t.thread tid).run = .faulted ∧ (t.thread tid).ctx.pc = u.ctx.pc ∧
       (t.thread tid).ctx.g = u.ctx.g ∧ t.dev.tokens.find s.ctl.nextTok = some ⟨.thread tid, c, va, none⟩
     (∀ (p : Instr × (Reply → Msg)), p ∈ [(Instr.replyArrival, Msg.reply (.thread tid)), (.wake, Msg.wake (.thread tid))] →
       (∀ (rd : Fin 10) (v : Word), s.msgs.find a = some (p.2 { value := v }) → u.run = .waiting ∨ u.run = .parked →
         u.slot = none → u.aux.sample = none → u.cont = .reply { rd := some (.g rd) } →
         s.breakpoint u.ctx.gtid u.ctx.pc.toNat = false → ∃ t, exec p.1 s = .next t ∧ (t.thread tid).run = .ready ∧
           (t.thread tid).cont = .none ∧ (t.thread tid).ctx = { u.ctx with pc := u.ctx.pc + 4, g := u.ctx.g.set rd v } ∧
           tid ∈ (t.core u.core).fifo ∧ t.mem = s.mem ∧ t.msgs.find a = none) ∧
       (∀ (k : Take) (c va acc : Nat), s.msgs.find a = some (p.2 { fault := some (c, va, acc) }) → u.cont = .reply k →
         ∃ t, exec p.1 s = .next t ∧ parked t c va)) ∧
     (∀ r d psn sl x, s.msgs.find a = some (.fill r d psn sl x) → r.who = .thread tid →
       ∃ t, exec .icacheLineArrival s = .next t ∧ (t.thread tid).ctx = u.ctx ∧ t.mem = s.mem ∧
         ((t.thread tid).run = if u.slot.isSome then .active else .ready) ∧
         ((s.cluster r.cluster).isOn = true →
           (∃ e, (tlbFind (s.cluster r.cluster).tlb r.asid r.va).1 = some e ∧ e.phys r.va = r.pa) →
           ∃ y, (t.cluster r.cluster).icache.head? = some y ∧ y.asid = r.asid ∧ y.va = r.va / 128)) ∧
     (∀ (e : SfuEntry) rest (rd : Fin 10), (s.core a).sfu = e :: rest → e.tid = tid → e.rd = some (.g rd) → e.pd = none →
       u.run = .sfu → u.slot = none → s.breakpoint u.ctx.gtid u.ctx.pc.toNat = false →
       let r := e.result u.ctx.srg
       ∃ t, exec .sfuOperationFinish s = .next t ∧ (t.core a).sfu = rest ∧ (t.thread tid).run = .ready ∧
         (t.thread tid).ctx = { u.ctx with pc := u.ctx.pc + 4, g := u.ctx.g.set rd r.1, psw := pswOrFlags u.ctx.psw r.2.2.flags,
                                           srg := r.2.2.srg }) ∧
     (∀ w, s.msgs.find a = some (.walk w) → w.who = .thread tid →
       let found := s.walkBy (walkAsker a) w.asid w.tenant w.va w.kind
       s.walkStopped w.cluster w.asid w.va found.toOption = false →
       (∀ e, found = .ok e → (s.cluster w.cluster).isOn = true → ∃ t, exec .tlbWalkCompletion s = .next t ∧
         (t.cluster w.cluster).tlb.head? = some e ∧ t.mem = s.mem ∧ (t.thread tid).ctx = u.ctx ∧
         (u.cont = .none → (t.thread tid).run = if u.slot.isSome then .active else .ready) ∧
         (u.cont ≠ .none → ∃ d, (d, Happen.resume tid) ∈ t.ctl.agenda)) ∧
       (∀ c pa, found = .error (c, pa) → c ≠ 0 → ∃ t, exec .tlbWalkCompletion s = .next t ∧ parked t c w.va)))

/-! ## Rows of the homes (R142 to R153, R180 to R195, R273, R313 to R325, R397, R399) -/

/-- R145, R146, R148, R313, R316, R322, R397, R399: a line that comes fills its cluster's L1 whole, but for the bytes that the L1 holds
dirty, when its crew still uses the address space; a write-back writes its masked bytes and no other; a store and a load are performed at
their home, after HBM when the slice lacks the line, an ordered load with the cluster's own dirty bytes over the home's; every access
counter of a die is halved; a fault record that waited goes to its queue when there is room. -/
def Obligations.SliceRowResults : Prop :=
  ∀ (s : State), s.ctl.need = none →
    let a := s.ctl.ev.a
    (∀ r d psn sl x, s.msgs.find a = some (.fill r d psn sl x) →
      let c := s.cluster r.cluster
      let held := c.l1Find r.asid (r.va / 128)
      let takes := x = false ∧ c.isOn = true ∧ ∀ k, c.crew = some k → k.asid = r.asid
      let byte (d : BitVec 1024) (i : Nat) : Nat := field d.toNat (8 * i) 8
      -- a line that an acquire has passed has served, and leaves the L1
      (s.ctl.ev.b = 1 → exec .l1Fill s = .next ((s.dropMsg a).updCluster r.cluster fun c =>
        c.dropClean fun l => l.asid == r.asid && l.va == r.va / 128)) ∧
      (s.ctl.ev.b ≠ 1 → ∃ t, exec .l1Fill s = .next t ∧
        (takes → ∃ l, (t.cluster r.cluster).l1Find r.asid (r.va / 128) = some l ∧ l.valid = BitVec.allOnes 128 ∧ l.sealedLine = sl ∧
          (held = none → l.dirty = 0 ∧ l.psn = psn ∧ ∀ i < 128, byte l.data i = byte d i) ∧
          ∀ o, held = some o → l.dirty = o.dirty ∧
            ∀ i < 128, byte l.data i = if bit o.dirty.toNat i = true then byte o.data i else byte d i) ∧
        (¬takes → (t.cluster r.cluster).l1 = c.l1) ∧
        (∀ tid, r.who = .thread tid → (s.threads.find tid).isSome = true → ∃ due, (due, Happen.resume tid) ∈ t.ctl.agenda))) ∧
    (∀ w, s.msgs.find a = some (.wb w) → w.unsent = false → w.ac = false → s.finalMove w.pa = none →
      (s.die (sliceOf (s.key w.pa) / 256)).refresh ≠ 2 → w.waiters = [] → s.seals = [] → s.lineHeld (s.key w.pa) w.key →
      (∀ i < 128, (s.mem.tag (s.key w.pa + i)).ty = 0 ∧ (s.mem.tag (s.key w.pa + i)).mark = false) →
      ∃ t, exec .writeBackAtHome s = .next t ∧ t.msgs.find a = none ∧
        (∀ i < 128, t.mem.readByte (s.key w.pa + i) =
          if bit w.mask.toNat i = true then BitVec.ofNat 8 (field w.data.toNat (8 * i) 8) else s.mem.readByte (s.key w.pa + i)) ∧
        ∀ x, x < s.key w.pa ∨ s.key w.pa + 128 ≤ x → t.mem.readByte x = s.mem.readByte x) ∧
    (∀ r : SliceReq, s.msgs.find a = some (.slice r) → r.ac = false → r.who.isFar = false → s.isLocal r.pa = true →
      let k := s.key r.pa
      (s.die (sliceOf k / 256)).refresh ≠ 2 →
      (∀ bs, r.write = some bs → r.obj = false → s.lineHeld k r.key → s.objBusy k r.first = false → s.finalMove r.pa = none →
        s.seals = [] → (∀ i < bs.length, (s.mem.tag (k + i)).ty = 0 ∧ (s.mem.tag (k + i)).mark = false) →
        ∃ t, exec .sliceRequest s = .next t ∧ s.storesTo t k (bs.take r.first)) ∧
      ((s.slice (sliceOf k)).lines.contains (k / 128) = false → r.write = none →
        ∃ t, exec .sliceRequest s = .next t ∧ t.mem = s.mem ∧ t.scheduled .hbmAccessCompletion a = true) ∧
      (r.write = none → r.fill = false → r.split = none → r.got = [] → r.bad = none → s.mem.sound k r.n →
        s.wbPending r = false → s.objBusy k r.n = false → (s.agentCluster r.who).isSome = true →
        s.admits (s.agentTenant r.who) →
        let bs := s.mem.readHome k r.n
        let answers (i : Instr) := ∃ t, exec i s = .next t ∧ t.mem = s.mem ∧ t.msgs.find s.ctl.nextMsg =
          some (.reply r.who { data := bif r.ordered then s.mergeOwn r.cluster r.asid r.va bs else bs })
        (s.lineHeld k r.key → answers .sliceRequest) ∧ (s.lineFresh k r.key → answers .hbmAccessCompletion))) ∧
    (∃ t, exec .accessCounterHalving s = .next t ∧ t.mem = s.mem ∧ t.scheduled .accessCounterHalving a = true ∧
      ∀ sl reg c, (s.slice sl).acc.find reg = some c → (t.slice sl).acc.find reg =
        some (if sl / 256 = a then { c with count := c.count / 2, armed := c.armed || decide (c.count / 2 < 64) } else c)) ∧
    (∀ r s', (s.die a).faults = [r] → (s.die a).unmade = [] → s.putFault r = some s' →
      ∃ t, exec .faultRecordDeferred s = .next t ∧ (t.die a).faults = [] ∧ t.mem = s'.mem) ∧
    (∀ r, (s.die a).faults = [r] → s.putFault r = none → ∃ t, exec .faultRecordDeferred s = .next t ∧
      (t.die a).faults = [r] ∧ t.scheduled .faultRecordDeferred a = true)

/-- R151 to R153, R180, R188, R273, R319 to R321: an operation at an object's home is performed on the counter as R188 gives
it; a reservation's grant that ends is revoked; a chained waiter moves inline; two requests that meet become one message;
an append joins the log of its home, or waits for room and after its time posts a record; a pair check sets PP and pushes
the pair once. That the record of an append names its word's physical address is the model's reading, log 60; that an entry keeps where its
bytes beyond a page end stand is the model's choice, log 63. -/
def Obligations.HomeRowResults : Prop :=
  ∀ (s : State), s.ctl.need = none →
    let a := s.ctl.ev.a
    (∀ r, s.msgs.find a = some (.home r) → r.ac = false → s.finalMove r.pa = none →
      let k := s.reqKey r
      (s.die (sliceOf k / 256)).refresh ≠ 2 → (s.obj k).busy = false → (s.obj k).waiters = [] → s.waitsFor k = [] →
      s.lineHeld k r.key → s.isType k 1 = true → s.mem.sound k 32 → s.cleanAt r.cluster r.asid r.va →
      let old := BitVec.ofNat 64 (s.word k)
      let runs (v : Word) := ∃ t, exec .eftOperation s = .next t ∧ s.storesTo t k (leBytes 8 v.toNat) ∧
        ((s.agentCluster r.who).isSome = true → s.admits (s.agentTenant r.who) →
          t.msgs.find s.ctl.nextMsg = some (.reply r.who { value := old, addr := r.va }))
      (∀ v, r.op = .cntAdd v → runs (old + v)) ∧ (∀ v, r.op = .cntSwap v → runs v) ∧
      (∀ v, r.op = .cntCas old v → runs v)) ∧
    (∀ sl v, s.slices.findSome? (fun x => (x.2.rsv.find? (·.stamp == s.ctl.ev.b)).map fun v => (x.1, v)) = some (sl, v) →
      (∀ u ∈ (s.slice (sliceOf v.pa)).rsv, u.pa = v.pa → s.lineHeld u.pa u.req.key) →
      ∃ t, exec .reservationRevocation s = .next t ∧ (∀ u ∈ (t.slice sl).rsv, u.stamp ≠ v.stamp) ∧
        ⟨v.pa, v.gtid, v.pond, v.tsn⟩ ∈ (t.slice sl).dead ∧ ∀ x, t.mem.readByte x = s.mem.readByte x) ∧
    (∀ w, s.isType a 2 = false → (s.obj a).waiters = [w] → w.inl = false →
      field (s.word (a + 8)) 54 5 < s.limit a → s.storeUse a < 2048 → s.waitsFor a = [] →
      ∃ t, exec .overflowChainRead s = .next t ∧ (t.obj a).waiters = [{ w with inl := true }] ∧ (t.obj a).reading = false) ∧
    (∀ m r, s.msgs.find a = some m → s.msgs.find s.ctl.ev.b = some (.home r) → m.requests ≠ [] →
      s.scheduled .eftOperation a = true → s.scheduled .eftOperation s.ctl.ev.b = true → a ≠ s.ctl.ev.b →
      ∃ t, exec .omegaCombine s = .next t ∧ t.msgs.find a = some (.combined (s.insertPort r m.requests)) ∧
        t.msgs.find s.ctl.ev.b = none ∧ t.scheduled .eftOperation s.ctl.ev.b = false) ∧
    (∀ e who, s.msgs.find a = some (.append e who) →
      let sl := sliceOf (s.key e.pa)
      let now (pa : Nat) : Nat := if s.isLocal pa then pa - localOf pa + s.key pa else pa
      let x : LogEntry := { e with pa := now e.pa, seq := s.ctl.nextId, split := e.split.map fun p => (p.1, now p.2.1, p.2.2) }
      let full := s.logFull sl (s.slice sl).log.length = true ∨ (s.slice sl).logWait ≠ []
      (¬full → ∃ t, exec .logAppendArrival s = .next t ∧ (t.slice sl).log = (s.slice sl).log ++ [x] ∧
        (e.ac = false → t.mem = s.mem)) ∧
      (full → ∃ t, exec .logAppendArrival s = .next t ∧
        (t.slice sl).logWait = (s.slice sl).logWait ++ [({ e with seq := s.ctl.nextId }, who)] ∧ t.mem = s.mem)) ∧
    (∀ e tid, (s.slice a).logWait.find? (·.1.seq == s.ctl.ev.b) = some (e, .thread tid) →
      let d := (s.thread tid).core / 2048 % 8
      s.dev.fqs = [] → (s.die d).faults.length < 256 → ∃ t x, exec .logAreaFullTimeout s = .next t ∧
        (t.die d).faults = (s.die d).faults ++ [x] ∧ x.cause = 0x4B ∧ x.addr = e.pa) ∧
    (∀ u v r b k pa va key, s.msgs.find a = some (.pairCheck u v r b) → r.who = .nobody → s.pond 0 = none →
      s.node r (min (u / 4 * 4) (v / 4 * 4)) = .node k pa va key → s.lineHeld k key → s.mem.sound k 32 →
      let p := (s.cluster r.cluster).pool
      (bit (s.word (k + 8)) 60 = true → ∃ t, exec .pairCheck s = .next t ∧ t.mem = s.mem ∧ (t.cluster r.cluster).pool = p) ∧
      (bit (s.word (k + 8)) 60 = false → p.pairs.length < 65536 → ∃ t, exec .pairCheck s = .next t ∧
        bit (t.word (k + 8)) 60 = true ∧ (t.cluster r.cluster).pool.pairs =
          p.pairs ++ [(min (u / 4 * 4) (v / 4 * 4) / 32, max (u / 4 * 4) (v / 4 * 4) / 32)]))

/-! ## Rows of the engines and the groups (R229 to R253, R346 to R360) -/

/-- R229, R232, R237, R241, R243 to R253, R348, R351, R353: an engine takes its next command; each matrix command that nothing
holds back is accepted, has its effect on its bank, context or destination, and completes after its service time (stated where no code of
memory shows an error, R324); a QMMA is accepted in all four members at once. A copy command that passes its checks begins; the hart moves one unit of 128 bytes at
most; a command with a bad field ends with error 4; a job that is over writes ERR, FLG, MATCH, DONE and RES into its record. That the
rotation over the cores advances with each selection (log 32), that a command reads B at the end of its fill (log 70) and A at its
acceptance, where its product is made (log 19), and the order of a command's blocks where an element saturates (log 71) are the model's
readings and choices. -/
def Obligations.EngineRowResults : Prop :=
  (∀ (j : Nat) (x : Job) (s : State), s.job j = some x → s.mem.oneBit = [] → s.mem.lostBits = [] →
     let a := s.ctl.ev.a
     let cl := x.core / 8
     let mx := (s.cluster cl).mx
     let free := mx.current = none ∧ mx.selected = some j ∧
       (mx.filled = true ∨ (mx.fillEnd ≤ s.ctl.cycle ∧ s.bWaits cl cl x = false)) ∧ s.modeBad cl x = false ∧ s.aWaits cl x = false
     let ring := if mx.filled then mx.shadow else (s.bLatches cl cl x).1
     let filled := s.updCluster cl fun c => { c with mx := { c.mx with ring := ring } }
     let accepted (i : Instr) (t : State) := exec i s = .next t ∧ (∃ y, t.job j = some y ∧ y.accepted = true) ∧
       (t.cluster cl).mx.current = some j ∧ (t.cluster cl).mx.currentEnd = s.ctl.cycle + x.service ∧
       t.scheduled .jobCompletion j = true
     let sm := ctxSm (s.context cl x.core)
     (a = cl → (s.cluster cl).mx.selected = none → (s.cluster cl).mx.quadNext = some j → ∃ t, exec .engineSelection s = .next t ∧
       (t.cluster cl).mx.selected = some j ∧ (t.cluster cl).mx.quadNext = none ∧
       (t.cluster cl).mx.fillEnd = s.ctl.cycle + x.fillTime) ∧
     (∀ k, a = cl → (s.cluster cl).mx.selected = none → (s.cluster cl).mx.quadNext = none → s.nextCore cl = some (k, j) →
       x.illegal = false → x.eng = .mx → s.mxCheck cl x = 0 → ∃ t, exec .engineSelection s = .next t ∧
       (t.cluster cl).mx.selected = some j ∧ (t.cluster cl).mx.last = k ∧
       (t.cluster cl).mx.fillEnd = s.ctl.cycle + x.fillTime) ∧
     (∀ c, a = c → s.ctl.ev.b = j →
       (s.heldAtIssuer j = true → ∃ t, exec .quadSignal s = .next t ∧ (t.cluster c).mx.quadNext = some j ∧
         t.scheduled .engineSelection c = true) ∧
       (s.heldAtIssuer j = false → exec .quadSignal s = .next s)) ∧
     (a = j → free →
       (∃ t, accepted .mmaF4 t ∧ t.bank cl x.bank = ((s.bank cl x.bank).each fun m n e =>
         accRows (m / 8) e ((s.aF4 cl x sm).1.getD m #[]) ((ringF4 ring).getD n #[])).1 ∧ t.mem = s.mem) ∧
       (∃ t, accepted .mmaBf t ∧ t.bank cl x.bank = (filled.mulHalf cl x bf16).1.bank cl x.bank ∧ t.mem = s.mem) ∧
       (∃ t, accepted .mmaH t ∧ t.bank cl x.bank = (filled.mulHalf cl x fp16).1.bank cl x.bank ∧ t.mem = s.mem) ∧
       (∃ t, accepted .accZero t ∧ t.bank cl x.bank = { fp32 := x.mode } ∧ t.mem = s.mem) ∧
       (∃ t, accepted .accDrain t ∧ t.bank cl x.bank = (if x.mode then { fp32 := (s.bank cl x.bank).fp32 } else s.bank cl x.bank) ∧
         s.storesTo t (spadKey cl (wf x.cmd[2] 0 24)) (drainBank (s.bank cl x.bank) x.bank (s.context cl x.core)).1) ∧
       (let key := tcmKey x.core (wf x.cmd[1] 0 16)
        let ws := wordsOf 4 (s.mem.read key 32)
        s.mem.firstPoison key 32 = none → ∃ t, accepted .fmtSet t ∧ t.mem = s.mem ∧
         if badContext ws = true then (t.job j).map (·.err) = some 0x02 ∧ t.context cl x.core = s.context cl x.core
         else t.context cl x.core = #v[wordAt ws 0, wordAt ws 1, wordAt ws 2, wordAt ws 3])) ∧
     (∀ ms, a = j → s.quadOf x = some ms → s.heldAtIssuer j = true → mx.current ≠ some j → (∀ m ∈ ms, s.mayAccept m j = true) →
       s.quadWaits ms x = false → s.quadError ms x = 0 → ∃ t, exec .qmma s = .next t ∧
         (∃ y, t.job j = some y ∧ y.accepted = true) ∧ (∀ m ∈ ms, (t.cluster m).mx.current = some j) ∧
         t.scheduled .jobCompletion j = true ∧ t.mem = s.mem)) ∧
  (∀ (j : Nat) (x : Job) (s : State), s.job j = some x →
     let a := s.ctl.ev.a
     let cl := x.core / 8
     (a = j → ∀ i ∈ [Instr.cp1d, .cp2d, .cpGather, .cpScatter, .cpFill, .cpSignal],
       (x.illegal = true → ∃ t, exec i s = .next t ∧ (t.job j).map (·.err) = some 0x04 ∧
         t.scheduled .jobCompletion j = true) ∧
       (x.illegal = false → x.preErr = 0 → x.eng = .cp → (x.ty = 0x10 → x.sgm = 2 → x.len = 0) →
         (x.ty = 0x12 ∨ x.ty = 0x13 → x.idx % 8 = 0 ∧ x.idx + 8 * x.cnt ≤ 0x7000) → ∃ t, exec i s = .next t ∧
           (t.job j).map (·.phase) = some (if x.ty = 0x10 ∧ x.sgm ≠ 0 then 1 else 2) ∧
           t.scheduled .copyUnit cl = true ∧ t.mem = s.mem)) ∧
     (∀ rest, a = cl → (s.cluster cl).copy.stopped = [] → (s.cluster cl).copy.nextAt ≤ s.ctl.cycle →
       s.movableFrom cl = j :: rest → x.phase = 2 → x.unit < x.units → x.dst.seg.space = .tcm →
       let o := (x.unitAt x.unit).2.1
       let n := (x.unitAt x.unit).2.2
       let dst := s.jobKey x (x.dst.seg.base.toNat + x.dst.off + o)
       let src := s.jobKey x (x.src.seg.base.toNat + x.src.off + o)
       let moves (bs : List Byte) := ∃ t, exec .copyUnit s = .next t ∧ s.storesTo t dst bs ∧
         (t.job j).map (·.unit) = some (x.unit + 1)
       (x.ty = 0x14 → moves (patBytes x.cmd[1] o n)) ∧
       (x.ty = 0x10 → x.src.seg.space = .tcm → s.mem.sound src n → moves (s.mem.read src n))) ∧
     (a = j → x.eng = .cp → s.mustWait cl (scopeOf x.csc) = false → s.copyHeld j x = false →
       (∀ u ∈ s.threads, ∀ q, u.2.cont ≠ .observe q) →
       let key := s.jobKey x x.record
       let w : Word := BitVec.ofNat 64 (leNat (s.mem.read key 8))
       ∃ t, exec .jobCompletion s = .next t ∧ t.job j = none ∧ s.storesTo t key
         (leBytes 8 (putField (putField (putField (putField w 40 8 x.err) 32 8 x.flg.toNat) 3 1 (b2n x.isMatch)) 0 1 1).toNat ++
           leBytes 8 x.res.toNat)))

/-- R252, R267, R354, R357 to R359: a CL command whose group lists its core begins, another ends with error 9; its next chunk
goes to the die's router as a contribution; a contribution joins its round, which goes up or is delivered when every
contributor has come (R360: in a group marked retiring a core's contribution joins open rounds only); a delivered GSTORE writes the value
and the round into the contributor's TCM, where its crew now stands. -/
def Obligations.GroupRowResults : Prop :=
  ∀ (s : State),
    let a := s.ctl.ev.a
    (∀ x, s.job a = some x → x.illegal = false → x.preErr = 0 → ∀ i ∈ [Instr.clReduce, .clBcast, .clAllreduce],
      let e := s.groupEntry (x.core / 2048) x.group
      let bad := geState e = 0 ∨ geState e = 3 ∨ (geLocals e).contains (x.core % 2048) = false ∨
        4096 < min x.chunk x.elems * fmtBytes (geFmt e)
      (bad → ∃ t, exec i s = .next t ∧ (t.job a).map (·.err) = some 0x09 ∧ t.scheduled .jobCompletion a = true) ∧
      (¬bad → ∃ t, exec i s = .next t ∧ (t.job a).map (·.phase) = some 2 ∧ t.scheduled .clChunk x.core = true)) ∧
    (∀ j x, (s.core a).clCur = some j → s.job j = some x → x.core = a → x.phase = 2 → x.pending = 0 →
      let e := s.groupEntry (a / 2048) x.group
      geState e ≠ 0 → x.inbox = [] →
      (x.done = x.chunks → ∃ t, exec .clChunk s = .next t ∧ (t.job j).map (·.phase) = some 5 ∧
        t.scheduled .jobCompletion j = true) ∧
      (x.done < x.chunks → x.sent < x.chunks → x.sent < x.done + 4 → geState e = 1 → x.src.seg.space = .tcm →
        0 < x.chunkElems x.sent →
        let n := x.chunkElems x.sent
        let key := s.jobKey x (x.src.seg.base.toNat + x.src.off + fmtBytes (geFmt e) * (x.sent * x.chunk))
        s.mem.sound key (fmtBytes (geFmt e) * n) → ∃ t y, exec .clChunk s = .next t ∧
          t.msgs.find s.ctl.nextMsg = some (.contribution y) ∧ y.router = a / 2048 ∧ y.group = x.group ∧ y.key = a % 2048 ∧
          y.vals = (chunkVals (geFmt e) (x.ty == bcastSig) n (s.mem.read key (fmtBytes (geFmt e) * n))).1 ∧
          (t.job j).map (·.sent) = some (x.sent + 1) ∧ t.mem = s.mem)) ∧
    (∀ c, s.msgs.find a = some (.contribution c) → c.who = .nobody → c.ack = .nobody →
      member (s.routerMap c.router) c.tenant = true →
      let e := s.groupEntry c.router c.group
      let num := c.num
      geState e ≠ 0 → (geKeys c.router e).contains c.key = true → geTen e = c.tenant →
      (geState e = 2 → c.key < 0x10000 → s.roundOpen c.group num = true) →
      let rounds := addPart c.group num ⟨c.key, c.vals, c.flg, c.who, c.num, c.sig, c.err, c.chunk, c.sagt⟩ (s.groupsAt c.router).rounds
      let whole := (rounds.find? fun r => r.group == c.group && r.num == num).any fun r =>
        !r.sent && (geKeys c.router e).all fun k => r.parts.any (·.key == k)
      ∃ t, exec .groupContribution s = .next t ∧ t.mem = s.mem ∧ (whole = false → (t.groupsAt c.router).rounds = rounds) ∧
        (whole = true → gePar e = 0xFF → ∃ d, t.msgs.find s.ctl.nextMsg = some (.delivery d) ∧ d.router = c.router ∧
          d.group = c.group ∧ d.num = num)) ∧
    (∀ d x p, s.msgs.find a = some (.delivery d) → d.ack = .nobody → member (s.routerMap d.router) d.tenant = true →
      (s.groupsAt d.router).round d.group d.num = some x → x.parts = [p] → p.key < 0x10000 → p.who = .nobody → d.err = 0 →
      let e := s.groupEntry d.router d.group
      ∀ k, geCtr e = 0 → s.crewPlace .nobody (2048 * d.router + p.key) p.chunk = .ok k → ∃ t, exec .groupDelivery s = .next t ∧
        s.storesTo t (tcmKey k (geDlv e)) (leBytes 8 (narrowOut (geFmt e) (wordAt d.vals 0)).toNat ++ leBytes 8 p.num) ∧
        (t.core k).groupOpen.contains d.group = false)

/-! ## Rows of the networks and the scheduler (R166, R263 to R268, R330 to R336, R364 to R383) -/

/-- R165, R166, R264 to R268, R364 to R375: a packet of a member joins its buffer, another is dropped and counted; a granted
head moves to the next router, or leaves; a head that has waited AGELIM is promoted; a message goes into its ring, is refused
for want of a crew, or is sent again; slot 0's queue and a handler take the heads of their rings; slot 1 performs remote
accesses; the probe's token sums the interfaces, and a phase's end increments its counter. -/
def Obligations.NetworkRowResults : Prop :=
  ∀ (s : State),
    let a := s.ctl.ev.a
    let b := s.ctl.ev.b
    let c := s.ctl.ev.c
    let n := (s.core a).net
    (∀ p, s.msgs.find b = some (.torus p) →
      (c = 0 → member (s.router a).bitmap p.tenant = true → ∃ t, exec .packetArrival s = .next t ∧
        (t.router a).buf p.vc = (s.router a).buf p.vc ++ [b] ∧ t.mem = s.mem) ∧
      (member (s.router a).bitmap p.tenant = false → ∃ t, exec .packetArrival s = .next t ∧
        b ∉ (t.router a).buf (c * 4 + p.vc) ∧ (t.router a).tviol = sat32 (s.router a).tviol ∧ t.mem = s.mem) ∧
      (((s.router a).buf c).head? = some b → p.since + (s.router a).agelim ≤ s.ctl.cycle →
        ∃ t, exec .packetPromotion s = .next t ∧ t.msgs.find b = some (.torus { p with promoted := true }) ∧ t.mem = s.mem)) ∧
    (∀ g o, TorusOut.grant { (s.router a).outs.get {} b with scheduled := false } b (s.router a).weights (s.cands a b) =
        some (g, o) →
      (b ≠ 0 → ∃ t, exec .packetGrant s = .next t ∧
        g.id ∈ (t.router (s.hopOf a g.pkt).2).buf (inputAt b * 4 + g.vc) ∧
        ((t.router a).outs.get {} b).busyUntil = s.ctl.cycle + g.pkt.flits) ∧
      (∀ w r, b = 0 → g.pkt.msg ≠ g.id → s.msgs.find g.pkt.msg = some (.reply w r) → ∃ t, exec .packetGrant s = .next t ∧
        t.scheduled .replyArrival g.pkt.msg = true ∧
        ((t.router a).outs.get {} b).busyUntil = s.ctl.cycle + g.pkt.flits)) ∧
    (∀ m core u, s.msgs.find a = some (.net m core) → m.sender = .thread u → hdrDev m.header = s.dev.id →
      hdrKind m.header = 0 →
      let k := (s.core core).net
      let z := 8 * (1 + m.payload.length)
      (s.hostsTask (core / 8) m = false → m.asked = true → (s.agentCluster m.sender).isSome = true →
        ∃ t, exec .messageArrival s = .next t ∧ t.msgs.find s.ctl.nextMsg = some (.reply m.sender { cause := 0x25 }) ∧
          t.mem = s.mem) ∧
      (s.hostsTask (core / 8) m = true → hdrHnd m.header ≤ 239 → k.hUsed + z ≤ 2048 → k.hTail + z ≤ 2048 → k.running = none →
        ∃ t, exec .messageArrival s = .next t ∧ t.scheduled .handlerStart core = true ∧
          s.storesTo t (tcmKey core (0x6000 + k.hTail)) (bytesOf (m.header :: m.payload)) ∧
          (t.core core).net.hUsed = k.hUsed + z) ∧
      (s.hostsTask (core / 8) m = true → hdrHnd m.header ≤ 239 → 2048 < k.hUsed + z →
        ∃ t, exec .messageArrival s = .next t ∧ t.mem = s.mem ∧ t.msgs.find s.ctl.nextMsg = some (.refusal a)) ∧
      (∃ t q, exec .messageRetry s = .next t ∧ t.msgs.find s.ctl.nextMsg = some (.torus q) ∧ q.msg = a ∧ q.vc = 2)) ∧
    (∀ k m core, s.msgs.find a = some (.refusal k) → s.msgs.find k = some (.net m core) → a ≠ k → m.refusals < 63 →
      ∃ t, exec .messageRetry s = .next t ∧ t.msgs.find k = some (.net { m with refusals := m.refusals + 1 } core) ∧
        t.scheduled .messageRetry k = true ∧ t.mem = s.mem) ∧
    (let r := s.ringWords a 0x6800 n.sHead
     let ws := r.1
     n.sUsed ≠ 0 → n.sSkip = 0 → n.rx.length + ws.length ≤ 64 → ∃ t, exec .streamMessageMove s = .next t ∧
      (t.core a).net.rx = n.rx ++ ws ∧ (t.core a).net.sUsed = n.sUsed - 8 * ws.length ∧ t.mem = r.2.mem) ∧
    (∀ crew, (s.cluster (a / 8)).crew = some crew → n.hUsed ≠ 0 → n.hSkip = 0 → n.running = none →
      (s.thread (2 * a + 1)).run ≠ .faulted → (∀ i < 5, Lr.sel crew.launch i % 256 = 0) →
      let r := s.ringWords a 0x6000 n.hHead
      let ws := r.1
      let entry := ((r.2.kTouch a (hdrHnd (wordAt ws 0))).kEntry a (hdrHnd (wordAt ws 0))).toNat % 2 ^ 32
      entry ≠ 0 → entry % 4 = 0 → ∃ t, exec .handlerStart s = .next t ∧
        let u := t.thread (2 * a + 1)
        u.run = .active ∧ u.ctx.pc = BitVec.ofNat 32 entry ∧ u.ctx.g[0] = wordAt ws 0 ∧ u.ctx.g[1] = wordAt ws 1 ∧
          (t.core a).net.running = some (wordAt ws 0) ∧ (t.core a).net.hUsed = n.hUsed - 8 * ws.length ∧
          s.storesTo t (tcmKey a (8 * 249)) (leBytes 8 (bindWord 1 (systemIdent crew.pond)).toNat)) ∧
    (∀ i rest r, b = 0 → n.remote = i :: rest → s.msgs.find i = some (.remote r) → r.nibble = false → r.sp = .tcm →
      s.remoteBad r = 0 → s.dev.dumps.find a = none →
      (∀ v, r.val = some v → (s.core a).storeWaits r.off r.n = false → ∃ t, exec .remoteAccessService s = .next t ∧
        s.storesTo t (tcmKey a r.off) (leBytes r.n v.toNat) ∧ (t.core a).net.remote = rest) ∧
      (r.val = none → (s.core a).loadWaits r.off r.n = false → s.mem.sound (tcmKey a r.off) r.n →
        (s.agentCluster r.who).isSome = true → ∃ t, exec .remoteAccessService s = .next t ∧ t.mem = s.mem ∧
          (t.core a).net.remote = rest ∧
          t.msgs.find s.ctl.nextMsg = some (.reply r.who { data := s.mem.read (tcmKey a r.off) r.n, addr := r.off }))) ∧
    (∀ x i sum black, s.pond a = some x → x.probe.token = some (i, sum, black) → x.suspended = false → x.isEnded = false →
      let cl := x.clusters.getD i 0
      let p := (s.cluster cl).probe
      (i + 1 < x.clusters.length → ∃ t, exec .probeToken s = .next t ∧ (t.pond a).map (·.probe.token) =
        some (some (i + 1, sum + p.count, black || p.black || s.ifBusy cl)) ∧ t.mem = s.mem) ∧
      (x.clusters.length ≤ i + 1 → black = false → p.black = false → s.ifBusy cl = false → sum + p.count = 0 →
        s.roundsOpen x = false → ∃ t, exec .probeToken s = .next t ∧ (t.pond a).map (·.probe.token) = some none ∧
          t.scheduled .phaseEnd a = true ∧ t.mem = s.mem)) ∧
    (∀ x r rest, b = 0 → s.ctl.need = none → s.pond a = some x → x.suspended = false → s.seals = [] → s.recycling x = false →
      x.probe.starts = r :: rest → (∀ sl, (s.slice sl).log = []) → x.logDevs = [] →
      s.merging x = false → s.lineHeld (s.reqKey r) r.key → s.mem.sound (s.reqKey r) 32 →
      (∀ cl ∈ x.clusters, (s.cluster cl).pool.limbo = []) → s.retiring = [] → s.isLocal r.pa = true →
      s.isType (s.reqKey r) 1 = true → (s.obj (s.reqKey r)).waiters = [] → ∃ t, exec .phaseEnd s = .next t ∧
        (t.pond a).map (·.probe.starts) = some rest ∧
        s.storesTo t (s.reqKey r) (leBytes 8 (BitVec.ofNat 64 (s.word (s.reqKey r)) + 1).toNat))

/-- R331 to R336, R376 to R382: a dependence that is met readies its head; a head that waits too long blocks; the scheduler
places a ready head's pond on the first free rectangle and starts it; a pond that has ended frees its clusters; a request of
another device enters the network of its home once; acknowledgements, resends, a port that goes down or comes up. -/
def Obligations.SchedulerAndFabricRowResults : Prop :=
  ∀ (s : State),
    let a := s.ctl.ev.a
    let b := s.ctl.ev.b
    (∀ r rest, (s.queue a).recs = r :: rest → r.dep = .asked → b = 1 → ∃ t, exec .dependenceMet s = .next t ∧
      (t.queue a).recs = { r with dep := .met } :: rest ∧ t.scheduled .pondPlacement 0 = true ∧ t.mem = s.mem) ∧
    (∀ r, s.eligible a = some r → r.blocking = none → ∃ t, exec .headBlocking s = .next t ∧
      (t.queue a).recs = { r with blocking := some s.ctl.nextId } :: (s.queue a).recs.drop 1 ∧ t.mem = s.mem) ∧
    (∀ q k r col row, a = 0 → s.dev.queues = [(q, k)] → k.cfg.prio < 4 → k.recs = [r] → r.dep = .met → r.image.isSome = true →
      s.mayPlace q r.tenant = true →
      s.firstFit r.tenant k.rect (Lr.width r.launch) (Lr.height r.launch) = some (col, row) →
      ∃ t p, exec .pondPlacement s = .next t ∧ t.pond s.ctl.nextPond = some p ∧ p.col = col ∧ p.row = row ∧
        p.launch = r.launch ∧ p.state = .starting ∧ ((∀ cl, s.writesBack cl) → t.mem = s.mem)) ∧
    (∀ p, a ≠ 0 → s.pond a = some p → p.state = .starting → s.pondWbs p = false → p.w = 1 → p.h = 1 → 0 < Lr.crew p.launch →
      let cl := clusterAt p.col p.row
      ∃ t u, exec .pondPlacement s = .next t ∧ (t.pond a).map (·.state) = some .running ∧
        (t.cluster cl).regs.trapvec = BitVec.ofNat 32 (Lr.tvec p.launch) ∧
        t.ctl.nextTid = s.ctl.nextTid + Lr.crew p.launch ∧ t.threads.find s.ctl.nextTid = some u ∧ u.run = .ready ∧
        u.core = 8 * cl ∧ u.ctx.pc = BitVec.ofNat 32 (Lr.entry p.launch)) ∧
    (∀ p, s.ctl.need = none → s.pond a = some p → p.state = .running → p.aborted = false → p.live = 0 →
      (∀ j ∈ s.jobs, j.2.pond = a → j.2.finished = true) → s.appending p = false → s.seals = [] →
      (∀ sl, (s.slice sl).log = []) → p.logDevs = [] → s.merging p = false → s.retiring = [] →
      Lr.don p.launch = false →
      ∃ t, exec .pondEnd s = .next t ∧ (t.pond a).map (·.state) = some .ended ∧ t.mem = s.mem ∧
        ∀ cl ∈ p.clusters, ∀ x, (s.cluster cl).crew = some x → x.pond = a → (t.cluster cl).crew = none) ∧
    (∀ p, s.ctl.ev.arg = .fabric p → s.ctl.need = none →
      (opAssigned p.op = false → exec .fabricPacketArrival s =
        .next ((s.updPort a fun q => { q with badop := sat32 q.badop }).dropLines (eventAsker s.ctl.ev))) ∧
      (opAssigned p.op = true → s.fabricViolation a p = none → p.ddev = s.dev.id →
        (p.op = 0x01 → ((s.dedupOf p).look p.seq p.ackt).1 = .fresh →
          ∃ t r, exec .fabricPacketArrival s = .next t ∧ t.msgs.find s.ctl.nextMsg = some (.slice r) ∧ r.pa = p.pa ∧
            r.n = p.arg.toNat % 2 ^ 16 ∧ r.write = none ∧ r.who = .fabric p.sdev p.sagt p.seq p.ten p.op ∧ t.mem = s.mem) ∧
        (p.op < 32 → ((s.dedupOf p).look p.seq p.ackt).1 = .parked →
          ∃ t, exec .fabricPacketArrival s = .next t ∧ (t.port a).dup = sat32 (s.port a).dup ∧ t.msgs = s.msgs ∧
            t.mem = s.mem))) ∧
    (∀ i k q, s.ctl.need = none → s.outstanding a b = some i → s.msgs.find i = some (.fabric k) →
      s.msgs.find k.carried = some (.slice q) → q.who = .nobody → q.fill = false → q.split = none →
      (q.write.isSome = true → (s.dev.agents.get {} a).wait = [] → ∃ t, exec .endToEndAcknowledgement s = .next t ∧
        (t.dev.agents.get {} a).out = (s.dev.agents.get {} a).out.filter (·.1 != b) ∧ t.msgs.find i = none ∧ t.mem = s.mem) ∧
      (q.write = none → ∃ t, exec .endToEndAcknowledgement s = .next t ∧
        (t.port k.last).sent = (s.port k.last).sent.filter (· != i) ∧ t.msgs = s.msgs ∧ t.mem = s.mem)) ∧
    (∃ t, exec .linkAcknowledgement s = .next t ∧ (t.port a).line = (ackLine (s.port a).line b).1 ∧ t.mem = s.mem) ∧
    (b = 1 → exec .linkResend s = .next (s.updPort a fun q => { q with crcerr := sat32 q.crcerr })) ∧
    (b ≠ 1 → (s.port a).line ≠ [] →
      ((s.port a).resends < 8 → exec .linkResend s =
        .next (s.updPort a fun q => { q with retry := sat32 q.retry, resends := q.resends + 1 })) ∧
      (8 ≤ (s.port a).resends → ∃ t, exec .linkResend s = .next t ∧ t.scheduled .portDown a = true ∧ t.mem = s.mem)) ∧
    (a < 128 → ∃ t, exec .portDown s = .next t ∧ (t.port a).up = false ∧ t.mem = s.mem ∧
      ∀ f ∈ (t.xdie 0).fwd ++ (t.xdie 1).fwd, bit f.2.toNat a = false) ∧
    exec .linkTraining s = .next (s.updPort a fun q => { q with
      up := true, rate := b, width := min q.lanes s.ctl.ev.c, line := [], resends := 0 })

/-! ## Rows of the host's commands (R327 to R330, R340 to R344, R395 to R401, R421 to R444) -/

/-- R327, R386, R396, R427 to R429, R432, R438, R443, R444: a completed command puts one completion record into the queue of
its function; the PF's commands fail with status 0x02 on another function (where the queue of 64 is full the record waits for room: the model's
choice, log 58); each command that sets a table sets what its
operands name, or fails with its status and changes nothing; CNT_READ answers the counters of a unit, two to a word, the model's choice of
a layout (log 25). -/
def Obligations.TableCommandResults : Prop :=
  ∀ (h : CmdHdr) (c : HostCmd) (s : State), s.ctl.ev.arg = .cmd h c →
    let ends (i : Instr) (opc st : Nat) (ws : List Word) (u : State) := exec i s = .next (u.cmdEnd h opc st ws)
    (∀ opc st ws,
      let u := (s.cmdEnd h opc st ws).fn h.fn
      (s.cmdEnd h opc st ws).mem = s.mem ∧
      ((s.fn h.fn).mrq.length < 64 → ∃ rest, u.mrq = (s.fn h.fn).mrq ++ ⟨opc, st, h.fn, h.tag, ws⟩ :: rest) ∧
      (64 ≤ (s.fn h.fn).mrq.length → u.mrq = (s.fn h.fn).mrq ∧ u.mrqWait = (s.fn h.fn).mrqWait ++ [⟨opc, st, h.fn, h.tag, ws⟩])) ∧
    (h.fn ≠ 0 → ∀ p ∈ [(Instr.queueSet, 0x01), (.sliceSet, 0x02), (.asidSet, 0x03), (.taskSet, 0x04), (.keyLoadData, 0x05),
        (.keyLoadTweak, 0x05), (.routeSet, 0x06), (.groupSetWrite, 0x07), (.groupSetRetire, 0x07), (.fqSet, 0x08),
        (.moveEnd, 0x0C), (.debugSet, 0x0F), (.powerHbmRefresh, 0x11), (.powerLinkWidth, 0x11), (.withdraw, 0x12),
        (.cntRead, 0x13), (.funcSet, 0x18), (.devSet, 0x19)], ends p.1 p.2 2 [] s) ∧
    (h.fn = 0 →
      (∀ q cfg, c = .queueSet q cfg → (4096 ≤ q ∨ queueOk cfg = false → ends .queueSet 0x01 3 [] s) ∧
        (q < 4096 → queueOk cfg = true → ends .queueSet 0x01 0 [] (s.updQueue q fun k => { k with
          cfg := cfg, seq := if cfg.en && !k.cfg.en then 0 else k.seq }).kick)) ∧
      (∀ die ovf log lim, c = .sliceSet die ovf log lim → die < 8 → ovf ≤ 2 ^ 24 → ovf % 65536 = 0 → log ≤ 2 ^ 26 →
        log % 2 ^ 20 = 0 → 1 ≤ lim → lim ≤ 16 →
        ends .sliceSet 0x02 0 [] ((s.updDie die fun d => { d with cfg := ⟨ovf, log, lim⟩ }).dieLogRoom die)) ∧
      (∀ asid e, c = .asidSet asid e → asid < 8192 → wf e 60 3 = 0 → wf e 0 12 = 0 →
        ends .asidSet 0x03 0 [] (s.updDev fun d => { d with asids := d.asids.set asid e })) ∧
      (∀ ten n asid seg, c = .taskSet ten n asid seg → ten < 256 → n < 0xFFFFFF → asid < 8192 →
        ends .taskSet 0x04 0 [] (s.updDev fun d => { d with tasks := d.tasks.set (ten * 2 ^ 24 + n) ⟨asid, seg.toNat⟩ })) ∧
      (∀ k key, c = .keyLoadData k key → ((s.fn 0).ide = false → ends .keyLoadData 0x05 2 [] s) ∧
        ((s.fn 0).ide = true → k < 256 → ends .keyLoadData 0x05 0 [] (s.updDev fun d => { d with staged := d.staged.set k key }))) ∧
      (∀ k key, c = .keyLoadTweak k key → (s.fn 0).ide = true → k < 256 →
        (s.dev.staged.find k = none → ends .keyLoadTweak 0x05 4 [] s) ∧
        ∀ data, s.dev.staged.find k = some data → ∃ u, ends .keyLoadTweak 0x05 0 [] u ∧
          u.dev.keys.find k = some ⟨data, key⟩ ∧ u.dev.staged.find k = none) ∧
      (∀ r m, c = .routeSet (.bitmap r m) →
        (r < 2048 → ends .routeSet 0x06 0 [] (s.updRouter r fun x => { x with bitmap := m })) ∧
        (2048 ≤ r → r < 2058 → ends .routeSet 0x06 0 [] (s.updGroups (r - 2048) fun g => { g with bitmap := m })) ∧
        (2058 ≤ r → r < 2186 → ends .routeSet 0x06 0 [] (s.updPort (r - 2058) fun p => { p with bitmap := m })) ∧
        (2186 ≤ r → ends .routeSet 0x06 3 [] s)) ∧
      (∀ xd d m, c = .routeSet (.forward xd d m) → xd < 2 → d < 4096 →
        ends .routeSet 0x06 0 [] ((s.updXdie xd fun x => { x with fwd := x.fwd.set d m }).retryHeld xd)) ∧
      (∀ cl a b d e, c = .routeSet (.vcWeights cl a b d e) → cl < 2048 → (∀ w ∈ [a, b, d, e], 1 ≤ w ∧ w ≤ 15) →
        ends .routeSet 0x06 0 [] (s.updRouter cl fun x => { x with weights := #v[a, b, d, e] })) ∧
      (∀ cl n, c = .routeSet (.agelim cl n) → cl < 2048 → n < 2 ^ 16 →
        ends .routeSet 0x06 0 [] (s.updRouter cl fun x => { x with agelim := n })) ∧
      (∀ r i a b d e, c = .groupSetWrite r i a b d e → r < 10 → i < 4096 → groupEntryOk r #v[a, b, d, e] = true →
        (geState (s.groupEntry r i) ≠ 0 → ends .groupSetWrite 0x07 4 [] s) ∧
        (geState (s.groupEntry r i) = 0 →
          let u := s.updGroups r fun g => { g with entries := g.entries.set i #v[a, b, d, e] }
          ends .groupSetWrite 0x07 0 [] (if geState #v[a, b, d, e] = 2 ∧ u.groupLives i = false then u.retireGroup i else u))) ∧
      (∀ r i, c = .groupSetRetire r i → r < 10 → i < 4096 →
        let e := s.groupEntry r i
        (geState e ≠ 1 → ends .groupSetRetire 0x07 4 [] s) ∧
          (geState e = 1 →
            let u := s.updGroups r fun g => { g with entries := g.entries.set i (e.set 0 (putField e[0] 62 2 2)) }
            ends .groupSetRetire 0x07 0 [] (if u.groupLives i then u else u.retireGroup i))) ∧
      (∀ ten addr cap, c = .fqSet ten addr cap → ten < 256 → 1 ≤ cap →
        ends .fqSet 0x08 0 [] (s.updDev fun d => { d with fqs := d.fqs.set ten ⟨addr, cap⟩ })) ∧
      (∀ fn asid base size, c = .funcSet fn asid base size → fn < 256 → asid < 8192 → base % 65536 = 0 → base < 2 ^ 57 →
        size % 65536 = 0 → 65536 ≤ size → size ≤ 2 ^ 36 →
        ends .funcSet 0x18 0 [] (s.updFn fn fun f => { f with win := some (asid, base, size) })) ∧
      (∀ id, c = .devSet id → (4096 ≤ id → ends .devSet 0x19 3 [] s) ∧
        (id < 4096 → (∀ p ∈ s.dev.ponds, p.2.isLive = false) → (∀ p ∈ s.ports, p.2.up = false) → ∃ u, ends .devSet 0x19 0 [] u ∧
          u.dev.id = id ∧ (s.slices = [] → u = s.updDev fun d => { d with id := id })) ∧
        (∀ p ∈ s.dev.ponds, id < 4096 → p.2.isLive = true → ends .devSet 0x19 4 [] s) ∧
        ∀ p ∈ s.ports, id < 4096 → p.2.up = true → ends .devSet 0x19 4 [] s) ∧
      (∀ i ws, c = .debugSet (.entry i ws) → i < 1024 →
        ends .debugSet 0x0F 0 [] (s.updDev fun d => { d with dbg := d.dbg.set i ws })) ∧
      (∀ cl n, c = .debugSet (.sper cl n) → cl < 2048 → n < 65536 →
        ends .debugSet 0x0F 0 [] (s.updCluster cl fun x => { x with trace := { x.trace with sper := n, count := 0 } })) ∧
      (∀ stack mode, c = .powerHbmRefresh stack mode → stack < 8 → mode = 2 →
        ends .powerHbmRefresh 0x11 0 [] (s.updDie stack fun d => { d with refresh := 2 })) ∧
      (∀ stack mode, c = .powerHbmRefresh stack mode → stack < 8 → mode < 2 → ∃ u, ends .powerHbmRefresh 0x11 0 [] u ∧
        (u.die stack).refresh = mode ∧ (u.die stack).held = [] ∧ u.mem = s.mem) ∧
      (∀ cfg ring n, c = .debugSet (.chorus cfg ring n) → wf cfg 48 15 = 0 → ∃ u, ends .debugSet 0x0F 0 [] u ∧
        u.dev.chorus.cfg = cfg ∧ u.dev.chorus.ring = ring ∧ u.dev.chorus.ringSize = n ∧ u.mem = s.mem ∧
        (bit cfg.toNat 63 = true → bit s.dev.chorus.cfg.toNat 63 = false → u.scheduled .chorusTick 0 = true)) ∧
      (∀ cl ring n, c = .debugSet (.traceRing cl ring n) → cl < 2048 → ∃ u, ends .debugSet 0x0F 0 [] u ∧
        (u.cluster cl).trace = { (s.cluster cl).trace with ring := ring, ringSize := n } ∧ u.mem = s.mem) ∧
      (∀ l w, c = .powerLinkWidth l w → (l = 0 → w = 4 ∨ w = 8 ∨ w = 16 →
          ends .powerLinkWidth 0x11 0 [] (s.updDev fun d => { d with hostWidth := w })) ∧
        (1 ≤ l → l ≤ 128 → w = 1 ∨ w = 2 → ends .powerLinkWidth 0x11 0 [] (s.updPort (l - 1) fun p => { p with lanes := w }))) ∧
      (∀ cl on, c = .withdraw cl on → cl < 2048 →
        let u := s.updCluster cl fun x => { x with withdrawn := on }
        ends .withdraw 0x12 0 [] (if on then u else u.clustersFreed)) ∧
      (∀ n clr, c = .cntRead (.cluster n) clr → (2048 ≤ n → ends .cntRead 0x13 3 [] s) ∧
        (n < 2048 → ends .cntRead 0x13 0 (packCounters [(s.cluster n).corr, (s.cluster n).uncorr, (s.cluster n).psnread,
            (s.cluster n).multihit])
          (if clr then s.updCluster n fun x => { x with corr := 0, uncorr := 0, psnread := 0, multihit := 0 } else s))) ∧
      (∀ x clr, c = .cntRead x clr → (s.counterSet x = none → ends .cntRead 0x13 3 [] s) ∧
        ∀ cs v, s.counterSet x = some (cs, v) → ends .cntRead 0x13 0 (packCounters cs) (if clr then v else s)) ∧
      (∀ p clr, c = .cntRead (.port p) clr → p < 128 →
        let x := s.port p
        ends .cntRead 0x13 0 (packCounters [x.crcerr, x.retry, x.down, x.resent, x.dup, x.tviol, x.badop])
          (if clr then s.updPort p fun x => { x with crcerr := 0, retry := 0, down := 0, resent := 0, dup := 0, tviol := 0, badop := 0 }
           else s)))

/-- R330, R340 to R344, R395, R398, R400, R401, R421 to R423, R430, R431, R437, R440, R441: LAUNCH, ATTEST, OBJ_SET and
PAGE_ZERO; a fault answered; a shootdown told to every cluster and done by each; a page move, its passes and its ends; a
pond saved and resumed; a dump; an operating point changed; a cluster gated and brought back. The model's own: the length of a pause
(log 3), the layout of a report and its signatures (log 17), the words of a dump and of a save area (log 25), the form of a page move's
counter and status word (log 52), and that a shootdown drops the clean bytes of the range too (log 74). -/
def Obligations.WorkCommandResults : Prop :=
  ∀ (h : CmdHdr) (c : HostCmd) (s : State),
    let ends (i : Instr) (opc st : Nat) (ws : List Word) (u : State) := exec i s = .next (u.cmdEnd h opc st ws)
    let ends' (i : Instr) (opc st : Nat) (ws : List Word) (u : State) := s.ctl.need = none →
      exec i s = .next ((u.cmdEnd h opc st ws).dropLines (eventAsker s.ctl.ev))
    let a := s.ctl.ev.a
    let b := s.ctl.ev.b
    (s.ctl.ev.arg = .cmd h c →
      (∀ q l, c = .launch q l →
        let who := hostAsker h.fn
        let v := (s.recordTouch who h.fn l).dropLines who
        (∀ asid va, s.entryAway who h.fn l = some (asid, va) →
          exec .launch s = .next ((s.askLine who asid h.fn va).at (s.ctl.cycle + 8) (.ev s.ctl.ev))) ∧
        (s.entryAway who h.fn l = none → s.refusal who h.fn q l ≠ 0 →
          ends .launch 0x14 1 [BitVec.ofNat 64 (s.refusal who h.fn q l)] v) ∧
        (s.entryAway who h.fn l = none → s.refusal who h.fn q l = 0 →
          ∃ u, ends .launch 0x14 0 [BitVec.ofNat 64 ((s.queue q).seq % 2 ^ 32)] u ∧ u.mem = v.mem ∧
          (u.queue q).recs = (s.queue q).recs ++ [{ launch := l, tenant := h.fn, seq := (s.queue q).seq }])) ∧
      (∀ nonce va, c = .attest nonce va → b ≠ 1 → (2 ^ 30 ≤ s.dev.boot.lmsCount → ends' .attest 0x15 5 [] s) ∧
        (s.dev.boot.lmsCount < 2 ^ 30 → (s.fn h.fn).win = none → ends' .attest 0x15 4 [0x2C] s) ∧
        (∀ asid base size u, s.dev.boot.lmsCount < 2 ^ 30 → (s.fn h.fn).win = some (asid, base, size) → base ≤ va.toNat →
          va.toNat % 8 = 0 →
          let ws := s.reportWords h.fn nonce
          let sig (n k : Nat) : List Word := (List.range n).map fun i => Config.signature ws k i
          let all := ws ++ sig 12 0 ++ sig 411 (1 + s.dev.boot.lmsCount) ++ sig 256 (2 ^ 31)
          va.toNat - base + 8 * all.length ≤ size → s.windowWrite asid va.toNat all = .ok u → u.ctl.need = none →
          u.windowAway h.fn va = false →
          ends' .attest 0x15 0 [va] (u.updDev fun d => { d with boot := { d.boot with lmsCount := d.boot.lmsCount + 1 } }))) ∧
      (∀ asid va ty img, c = .objSet asid va ty img → (ty = 0 ∨ 7 < ty ∨ 8192 ≤ asid → ends' .objSet 0x16 3 [] s) ∧
        (va % (16 * typeGranules ty) ≠ 0 → ends' .objSet 0x16 3 [] s)) ∧
      (∀ asid va ty img, c = .objSet asid va ty img → 1 ≤ ty → ty ≤ 7 → va % (16 * typeGranules ty) = 0 → asid < 8192 →
        let ten := field (s.dev.asids.get 0 asid).toNat 52 8
        (h.fn ≠ 0 → ten ≠ h.fn → ends' .objSet 0x16 2 [] s) ∧
        (h.fn = 0 ∨ ten = h.fn →
          (∀ x pa, s.walk asid ten va .object = .error (x, pa) → x ≠ 0 → ends' .objSet 0x16 4 [BitVec.ofNat 64 x] s) ∧
          (∀ e, s.ctl.need = none → s.walk asid ten va .object = .ok e → s.isLocal (e.phys va) = true → ∃ t r, exec .objSet s = .next t ∧
            t.msgs.find s.ctl.nextMsg = some (.home r) ∧ r.who = .host h.fn h.tag ∧ r.va = va ∧ r.pa = e.phys va ∧ t.mem = s.mem ∧
            r.op = .init ty (wordsOf (2 * typeGranules ty) (s.mem.read (hostKey img) (16 * typeGranules ty)))))) ∧
      (h.fn ≠ 0 → ends' .pageZero 0x17 2 [] s) ∧
      (∀ pa n k, c = .pageZero pa n k → h.fn = 0 → n = 2 ^ 16 ∨ n = 2 ^ 21 ∨ n = 2 ^ 30 → pa % n = 0 → k < 256 →
        s.isLocal pa = true → s.stackShut pa = false → ∃ u, ends' .pageZero 0x17 0 [] u ∧
          (∀ x, localOf pa ≤ x → x < localOf pa + n → u.mem.readByte x = 0) ∧
          ∀ x, x < localOf pa ∨ localOf pa + n ≤ x → u.mem.readByte x = s.mem.readByte x) ∧
      (∀ tok, (c = .faultAnswerReissue tok → s.dev.tokens.find tok = none → ends .faultAnswerReissue 0x09 0 []
          (s.updXdie 0 fun x => { x with fqstale := sat32 x.fqstale })) ∧
        ∀ tid cause va, s.dev.tokens.find tok = some ⟨.thread tid, cause, va, none⟩ → 32768 ≤ tid →
          (s.threads.find tid).isSome = true →
          let u := s.thread tid
          (tenantOfGtid u.ctx.gtid ≠ h.fn → (c = .faultAnswerReissue tok → ends .faultAnswerReissue 0x09 2 [] s) ∧
            (c = .faultAnswerDeliver tok → ends .faultAnswerDeliver 0x09 2 [] s)) ∧
          (tenantOfGtid u.ctx.gtid = h.fn →
          (c = .faultAnswerReissue tok → s.isSavedThread tid = false → u.cont = .none → ∃ t, ends .faultAnswerReissue 0x09 0 [] t ∧
            t.dev.tokens.find tok = none ∧ (t.thread tid).run = (if u.slot.isSome then .active else .ready) ∧
            (t.thread tid).ctx = { u.ctx with trw := putField u.ctx.trw 8 1 0 } ∧ t.mem = s.mem) ∧
          (let vec := (s.cluster (u.core / 8)).regs.trapvec &&& 0xFFFFFFFC
           c = .faultAnswerDeliver tok → s.isSavedThread tid = false → u.inGang = false → vec ≠ 0 → field u.ctx.trw.toNat 0 8 ≠ 255 →
           ∃ t, ends .faultAnswerDeliver 0x09 0 [] t ∧ t.dev.tokens.find tok = none ∧
            (t.thread tid).trap.cause = BitVec.ofNat 8 cause ∧ (t.thread tid).trap.epc = u.ctx.pc ∧ (t.thread tid).ctx.pc = vec))) ∧
      (∀ asid va len ctr, c = .shootdown asid va len ctr → h.fn = 0 → asid < 8192 → va + len ≤ 2 ^ 57 →
        ∃ t, exec .shootdown s = .next t ∧ t.dev.shoots.find s.ctl.nextId = some ⟨asid, va, len, ctr, 2048, h.fn, h.tag, none⟩ ∧
          t.scheduled .shootdownCluster s.ctl.nextId = true ∧ t.mem = s.mem) ∧
      (∀ old new large leaf ctr st, c = .moveStart old new large leaf ctr st → h.fn = 0 →
        let n := if large then 2 ^ 21 else 2 ^ 16
        old % n = 0 → new % n = 0 → s.isLocal old = true → s.isLocal new = true → old ≠ new → leaf % 8 = 0 →
        s.stackShut old = false → s.stackShut new = false →
        (s.moveBusy old n = true → ends .moveStart 0x0B 4 [] (s.hostWord st 1)) ∧
        (s.moveBusy old n = false → s.mem.wf = true → ∃ t, exec .moveStart s = .next t ∧
          t.dev.moves.find s.ctl.nextId = some { old := old, new := new, size := n, leaf := leaf, ctr := ctr, status := st,
                                                 fn := h.fn, tag := h.tag } ∧ t.scheduled .movePass s.ctl.nextId = true ∧
          (∀ i < n, t.mem.readByte (localOf new + i) = s.mem.readByte (localOf old + i)) ∧
          ∀ x, x < localOf new ∨ localOf new + n ≤ x → t.mem.readByte x = s.mem.readByte x)) ∧
      (∀ old, c = .moveEnd old → h.fn = 0 → ((∀ f ∈ s.dev.forwards, f.1 ≠ old) → ends .moveEnd 0x0C 4 [] s) ∧
        ∀ f ∈ s.dev.forwards, f.1 = old →
          ends .moveEnd 0x0C 0 [] (s.updDev fun d => { d with forwards := d.forwards.filter fun f => f.1 != old })) ∧
      (∀ q seq pond area, c = .preempt q seq pond area → h.fn = 0 → (area % 4096 ≠ 0 → ends .preempt 0x0D 3 [] s) ∧
        (area % 4096 = 0 → s.namedPond q seq pond = none → ends .preempt 0x0D 4 [] s) ∧
        (∀ k p, area % 4096 = 0 → s.namedPond q seq pond = some (k, p) → s.pond k = some p → p.state = .running →
          ∃ t, exec .preempt s = .next t ∧ (t.pond k).map (·.state) = some (.preempting 0 h.tag area) ∧
            t.scheduled .preempt k = true ∧ t.mem = s.mem)) ∧
      (∀ area, c = .resume area → h.fn = 0 → ((∀ p ∈ s.dev.ponds, p.2.state ≠ .saved area) → ends .resume 0x0E 4 [] s) ∧
        (∀ k p, (s.dev.ponds.find? fun p => p.2.state == .saved area) = some (k, p) →
          (s.firstBlocker p.tenant ≠ none ∨ s.stackShut area = true ∨ s.firstFit p.tenant (s.queue p.queue).rect p.w p.h = none →
            s.pond k = some p → ∃ t, exec .resume s = .next t ∧
            (t.pond k).map (·.state) = some (.resuming 0 h.tag area) ∧ t.mem = s.mem) ∧
          ∀ col row, s.firstBlocker p.tenant = none → s.stackShut area = false →
            s.firstFit p.tenant (s.queue p.queue).rect p.w p.h = some (col, row) → ∃ t, exec .resume s = .next t ∧
            (t.pond k).map (fun x => (x.col, x.row, x.state)) = some (col, row, .running))) ∧
      (∀ core asid va size entry, c = .dump core asid va size entry → h.fn = 0 →
        (16384 ≤ core → ends' .dump 0x10 3 [] s) ∧
        (core < 16384 → va % 256 = 0 → asid < 8192 → (s.dev.dumps.find core).isSome = true → ends' .dump 0x10 4 [] s) ∧
        (core < 16384 → va % 256 = 0 → asid < 8192 → s.dev.dumps.find core = none → s.ctl.need = none → 256 ≤ size →
          ∃ t, exec .dump s = .next t ∧
          (t.dev.dumps.find core).map (fun d => (d.asid, d.va, d.size, d.entry)) = some (asid, va, size, entry) ∧
          (t.core core).noBind = true ∧ t.scheduled .dump core = true ∧ t.mem = s.mem)) ∧
      (∀ die point, c = .powerOperatingPoint die point → h.fn = 0 → (8 ≤ die ∨ 4 ≤ point → ends .powerOperatingPoint 0x11 3 [] s) ∧
        (die < 8 → point < 4 → (s.die die).paused = false → ∃ t, exec .powerOperatingPoint s = .next t ∧
          (t.die die).point = point ∧ (t.die die).paused = true ∧ t.scheduled .operatingPointPauseEnd die = true ∧ t.mem = s.mem)) ∧
      (∀ cl, c = .powerCluster cl true → h.fn = 0 → cl < 2048 →
        ((s.cluster cl).crew.isSome = true ∨ (s.cluster cl).powered = false → ends .powerCluster 0x11 4 [] s) ∧
        ((s.cluster cl).crew = none → (s.cluster cl).powered = true → ∃ t, exec .powerCluster s = .next t ∧
          (t.cluster cl).powered = false ∧ (t.cluster cl).gatingCmd = some (0, h.tag) ∧
          t.scheduled .traceDrainTimeout cl = true ∧ t.mem = s.mem)) ∧
      (∀ cl, c = .powerCluster cl false → h.fn = 0 → cl < 2048 →
        ((s.cluster cl).powered = true → ends .powerCluster 0x11 4 [] s) ∧
        ((s.cluster cl).powered = false → (s.cluster cl).gatingCmd = none → s.scheduled .clusterPowerUp cl = false →
          ∃ t, exec .powerCluster s = .next t ∧ t.scheduled .clusterPowerUp cl = true ∧ t.mem = s.mem))) ∧
    (∀ x, s.dev.shoots.find a = some x → s.ctl.ev.c ≠ 3 → s.homeShut x.ctr = false →
      s.isLocal x.ctr = true → s.isType (s.key x.ctr) 1 = true → (s.obj (s.key x.ctr)).waiters = [] → x.move = none →
      s.lineHeld (s.key x.ctr) (s.lineKey (s.key x.ctr)) → s.mem.sound (s.key x.ctr) 16 →
      let counts (t : State) := exec .shootdownCluster s = .next t ∧
        s.storesTo t (s.key x.ctr) (leBytes 8 (BitVec.ofNat 64 (s.word (s.key x.ctr)) + 1).toNat) ∧
        t.dev.shoots.find a = (if 1 < x.left then some { x with left := x.left - 1 } else none) ∧
        (x.left = 1 → (s.fn x.fn).mrq.length < 64 → (t.fn x.fn).mrq = (s.fn x.fn).mrq ++ [⟨0x0A, 0, x.fn, x.tag, []⟩])
      ((s.cluster b).isOn = false ∨ s.ctl.ev.c = 2 → ∃ t, counts t ∧ (t.cluster b).tlb = (s.cluster b).tlb) ∧
      ((s.cluster b).isOn = true → s.ctl.ev.c < 2 → (∀ l ∈ (s.cluster b).l1, l.dirty = 0) → s.wbInFlight b = false → ∃ t, counts t ∧
        (t.cluster b).tlb = (s.cluster b).tlb.filter (fun e => !s.shootEntry x e) ∧
        ∀ l ∈ (t.cluster b).l1, s.shootHits b x l.asid (128 * l.va) 128 = false)) ∧
    (∀ m, s.dev.moves.find a = some m → s.stackShut m.old = false → s.stackShut m.new = false → s.stackShut m.leaf = false →
      (m.final = false → 64 < m.dirty.length → m.pass < 8 → ∃ t, exec .movePass s = .next t ∧
        t.dev.moves.find a = some { m with dirty := [], pass := m.pass + 1 } ∧ t.scheduled .movePass a = true) ∧
      (m.final = false → m.dirty.length ≤ 64 ∨ 8 ≤ m.pass → ∃ t, exec .movePass s = .next t ∧ t.mem = s.mem ∧
        t.dev.moves.find a = some { m with final := true, finalStart := s.ctl.cycle } ∧
        t.scheduled .movePass a = true ∧ t.scheduled .finalPassTimeout a = true) ∧
      (m.final = true → s.ctl.cycle ≤ m.finalStart + 3800 → s.pageBusy m = false → s.isLocal m.leaf = true → ∃ t, exec .movePass s = .next t ∧
        t.dev.forwards = (m.old, m.new, m.size) :: s.dev.forwards ∧
        t.dev.moves.find a = some { m with final := false, dirty := [], parked := [] } ∧
        t.dev.shoots.find s.ctl.nextId = some ⟨0, 0, 0, m.ctr, 2048, m.fn, m.tag, some a⟩) ∧
      (m.final = true → ∃ t, exec .finalPassTimeout s = .next t ∧ t.dev.moves.find a = none ∧
        s.storesTo t (hostKey m.status) (leBytes 8 2) ∧
        ((s.fn m.fn).mrq.length < 64 → (t.fn m.fn).mrq = (s.fn m.fn).mrq ++ [⟨0x0B, 0, m.fn, m.tag, [2]⟩]))) ∧
    (∀ p, s.ctl.ev.arg = .none → s.pond a = some p →
      (∀ fn tag area u, p.state = .preempting fn tag area → s.unbindAll (s.pondThreads a) = (u, true) → u.pondQuiet a p = true →
        u.stackShut area = false → (∀ cl ∈ p.clusters, ∀ l ∈ (u.cluster cl).l1, l.dirty = 0) → u.pondWbs p = false →
        ∃ t, exec .preempt s = .next t ∧ (t.pond a).map (·.state) = some (.saved area) ∧
          ∀ cl ∈ p.clusters, (t.cluster cl).crew = none) ∧
      (p.state = .running → s.pondWbs p = false → (s.fn b).mrq.length < 64 → ∃ t, exec .resume s = .next t ∧ t.mem = s.mem ∧
        (t.fn b).mrq = (s.fn b).mrq ++ [⟨0x0E, 0, b, BitVec.ofNat 32 s.ctl.ev.c, []⟩])) ∧
    (∀ d, s.ctl.ev.arg = .none → s.dev.dumps.find a = some d → s.ctl.need = none →
      let done (u : State) (st n : Nat) := (u.fn d.fn).mrq.length < 64 → ∃ t, exec .dump s = .next t ∧ t.dev.dumps.find a = none ∧
        (t.fn d.fn).mrq = (u.fn d.fn).mrq ++ [⟨0x10, 0, d.fn, d.tag, [BitVec.ofNat 64 st, BitVec.ofNat 64 n]⟩] ∧
        u.storesTo t (hostKey d.entry) (leBytes 8 st ++ leBytes 8 n)
      (0 < b → s.dumpAway d = false → done s (b - 1) s.ctl.ev.c) ∧
      ∀ u st n, b = 0 → s.dumpThreads a = [] → s.dumpRun a d = (u, st, n) → u.ctl.need = none → u.dumpAway d = false → done u st n) ∧
    (∃ t, exec .operatingPointPauseEnd s = .next t ∧ (t.die a).paused = false ∧
      (t.die a).lostCycles = (s.die a).lostCycles + pauseCycles ∧ t.mem = s.mem) ∧
    (let r := (s.cluster a).trace
     ∃ t, exec .clusterPowerUp s = .next t ∧ (t.cluster a).powered = true ∧ (t.cluster a).l1 = [] ∧ (t.cluster a).tlb = [] ∧
      (t.cluster a).icache = [] ∧ t.mem = s.mem ∧ (t.cluster a).trace.recs = [#v[BitVec.ofNat 64 (2 * 2 ^ 60 + s.ctl.cycle % 2 ^ 48),
        BitVec.ofNat 64 (r.dropped * 2 ^ 32), BitVec.ofNat 64 (r.gating.getD 0), BitVec.ofNat 64 s.ctl.cycle, 0, 0, 0, 0]])

/-! ## Rows of the host and of the part as a whole (R414 to R420, R424 to R426, R433 to R436, R442) -/

/-- R414 to R420, R424 to R426, R433, R435, R442: a command joins its queue of 64 and is lost when it is full; the host
reads completions, records, the status and the memory behind its window, and writes there (offsets without a register read as zero and
ignore writes); a function-level reset empties the queues; the ROM's checks decide the boot (a flash without an image: the model's choice,
log 12); a thermal trip and a fundamental reset of the link start the part from reset; a snapshot is written or lost (the form of the host's
rings is the model's choice, log 8); a trace buffer drains into its ring, and what a gating cannot drain in time is dropped. That the first
failing check of the ROM ends them is the model's reading, log 53, and so are the size of an access through BAR2 and that a function's
accesses wait for one another: log 56. -/
def Obligations.HostRowResults : Prop :=
  ∀ (s : State),
    let a := s.ctl.ev.a
    let f := s.fn a
    (∀ h c, s.ctl.ev.arg = .cmd h c → (s.dev.boot.bootok = false → exec .mcq s = .next s) ∧
      (s.dev.boot.bootok = true → 64 ≤ f.mcq.length → exec .mcq s = .next (s.updFn a fun f => { f with mcqFull := true })) ∧
      (s.dev.boot.bootok = true → f.mcq.length < 64 → f.busy = true →
        exec .mcq s = .next (s.updFn a fun f => { f with mcq := f.mcq ++ [(⟨a, h.tag⟩, c)] })) ∧
      (∀ k, s.dev.boot.bootok = true → f.mcq = [] → f.busy = false → f.mrqWait = [] → s.barWrites a = false → c.kind = some k →
        ∃ t due, exec .mcq s = .next t ∧
        (t.fn a).busy = true ∧ (due, Happen.ev ⟨k, 0, 0, 0, .cmd ⟨a, h.tag⟩ c⟩) ∈ t.ctl.agenda ∧ t.mem = s.mem)) ∧
    (let out (i : Instr) (u : State) (bs : List Byte) := exec i s = .next (u.updDev fun d => { d with hostOut := bs })
     (a ≠ 0 → out .meq s (List.replicate 64 0)) ∧
     (f.mrq = [] → out .mrq s (List.replicate 64 0)) ∧
     (∀ x rest, f.mrq = x :: rest → out .mrq
       ((s.updFn a fun f => { f with mrq := rest ++ f.mrqWait.take 1, mrqWait := f.mrqWait.drop 1 }).nextCommand a) x.bytes) ∧
     (s.dev.meq = [] → out .meq s (List.replicate 64 0)) ∧
     (∀ x rest, a = 0 → s.dev.meq = x :: rest → out .meq (s.updDev fun d => { d with meq := rest }) (bytesOf x.words)) ∧
     (s.ctl.ev.b = 0 → out .hstat (s.updFn a fun f => { f with mcqFull := false }) (leBytes 8 (s.dev.boot.berr.toNat * 2 ^ 8 +
       b2n s.dev.boot.sigl * 2 ^ 5 + b2n s.dev.boot.sige * 2 ^ 4 + b2n f.mcqFull * 4 + b2n s.dev.boot.recovery * 2 +
       b2n s.dev.boot.bootok))) ∧
     (s.ctl.ev.b = 1 → out .hstat s (List.replicate s.ctl.ev.c 0)) ∧ (s.ctl.ev.b = 2 → exec .hstat s = .next s)) ∧
    (∀ off wr n, s.ctl.ev.arg = .bar2 off wr n → s.barAhead a s.ctl.ev.b = true → exec .bar2Access s = .next s.barWait) ∧
    (∀ off wr n, s.ctl.ev.arg = .bar2 off wr n → s.barAhead a s.ctl.ev.b = false →
      (f.win = none → wr = none → ∃ t, exec .bar2Access s = .next t ∧ t.dev.hostOut = List.replicate n 0xFF ∧ t.mem = s.mem) ∧
      ∀ asid base size, f.win = some (asid, base, size) →
        let va := base + off
        let ten := field (s.dev.asids.get 0 asid).toNat 52 8
        (size < off + n → ∃ t, exec .bar2Access s = .next t ∧ t.mem = s.mem) ∧
        (∀ e, off + n ≤ size → wr = none → s.walkBy (hostAsker (256 + a)) asid ten va .hostRead = .ok e →
          s.isLocal (e.phys va) = true → s.stackShut (e.phys va) = false →
          s.lineHeld (s.key (e.phys va)) e.key → s.mem.scan (s.key (e.phys va)) n = (s.mem, 0, 0) →
          ∃ t, exec .bar2Access s = .next t ∧ t.dev.hostOut = s.mem.readHome (s.key (e.phys va)) n ∧ t.mem = s.mem) ∧
        (∀ e bs, off + n ≤ size → wr = some bs → s.walkBy (hostAsker (256 + a)) asid ten va .hostWrite = .ok e → s.isLocal (e.phys va) = true →
          s.homeShut (e.phys va) = false → s.seals = [] →
          let k := s.key (e.phys va)
          s.lineHeld k e.key → s.mem.scan k bs.length = (s.mem, 0, 0) →
          (∀ i < bs.length, (s.mem.tag (k + i)).ty = 0 ∧ (s.mem.tag (k + i)).mark = false) →
          ∃ t, exec .bar2Access s = .next t ∧ s.storesTo t k bs)) ∧
    exec .ideEnable s = .next (s.updFn a fun f => { f with ide := s.ctl.ev.b == 1 }) ∧
    (s.ctl.ev.b = 1 → exec .functionLevelReset s = .next s.restart) ∧
    (s.ctl.ev.b ≠ 1 → ∃ t, exec .functionLevelReset s = .next t ∧ (t.fn a).mcq = [] ∧ (t.fn a).mrq = [] ∧
      ((∀ p ∈ s.dev.ponds, p.2.tenant = a → p.2.isEnded = true) → t.mem = s.mem ∧
        ∀ q k, s.dev.queues.find q = some k → (t.queue q).cfg.en = (k.cfg.en && k.cfg.owner != a))) ∧
    (let b := s.dev.boot
     let boots (i : BootImage) := ∃ t, exec .boot s = .next t ∧ t.mem = s.mem ∧ t.threads = s.threads ∧
       (b.check i ≠ 0 → t.dev.boot.recovery = true ∧ t.dev.boot.bootok = false ∧ t.dev.boot.berr = BitVec.ofNat 8 (b.check i) ∧
         t.dev.boot.svnf = b.svnf ∧ t.dev.boot.meas = b.meas) ∧
       (b.check i = 0 → t.dev.boot.recovery = false ∧ t.dev.boot.berr = 0 ∧ t.dev.boot.svn = i.svn ∧
         t.dev.boot.svnf = (if i.raiseSvn then BitVec.ofNat 64 i.svn else b.svnf) ∧
         (t.dev.boot.bootok = true ↔ ∀ k < 5, k ∈ i.components.map (·.1)) ∧
         (t.dev.boot.bootok = true → ∀ d < 8, t.scheduled .accessCounterHalving d = true))
     (∀ i, s.ctl.ev.arg = .boot i → (b.recovery = true → boots i) ∧ (b.recovery = false → exec .boot s = .next s)) ∧
     (s.ctl.ev.arg = .none → (b.bootok = true → exec .boot s = .next s) ∧ (∀ i, b.bootok = false → s.flash = some i → boots i))) ∧
    exec .thermalTrip s = .next s.restart ∧
    (let t := s.restart
     t.flash = s.flash ∧ t.mem = State.reset.mem ∧ t.threads = State.reset.threads ∧
      t.ctl = State.reset.ctl ∧ t.dev.boot.svnf = s.dev.boot.svnf ∧ t.dev.boot.lmsCount = s.dev.boot.lmsCount ∧
      t.dev.boot.bootok = false ∧ t.dev.boot.serial = s.dev.boot.serial) ∧
    (let x := s.dev.chorus
     (bit x.cfg.toNat 63 = false → exec .chorusTick s = .next s) ∧
     (bit x.cfg.toNat 63 = true → ∃ t, exec .chorusTick s = .next t ∧ t.scheduled .chorusTick 0 = true ∧
       t.dev.chorus.cfg = putField x.cfg 0 16 (wf x.cfg 0 16 + 1) ∧
       (x.ringSize = 0 → t.dev.chorus.lost = sat32 x.lost ∧ t.mem = s.mem) ∧
       ∀ k, k < hostKey x.ring ∨ hostKey x.ring + 64 + x.ringSize ≤ k → t.mem.readByte k = s.mem.readByte k)) ∧
    (let r := (s.cluster a).trace
     let q : HostRing := ⟨r.ring, r.ringSize⟩
     (r.recs = [] → r.gating = none → ∃ t, exec .traceDrain s = .next t ∧ (t.cluster a).trace.draining = false ∧ t.mem = s.mem) ∧
     (∀ x rest, r.recs = x :: rest →
       (r.ringSize = 0 → exec .traceDrain s = .next s) ∧
       (s.ringUsed q < r.ringSize → ∃ t, exec .traceDrain s = .next t ∧ (t.cluster a).trace.recs = rest ∧
         t.scheduled .traceDrain a = true ∧
         t.mem.read (hostKey (r.ring + 64 + 64 * (leNat (s.mem.read (hostKey r.ring) 8) / 2 ^ 32 % r.ringSize))) 64 =
           bytesOf x.toList)) ∧
     (∀ fn tag n, r.gating = some n → s.ctl.ev.b ≠ 1 → (s.cluster a).gatingCmd = some (fn, tag) →
       (∀ l ∈ (s.cluster a).l1, l.dirty = 0) → s.wbInFlight a = false → ∃ t, exec .traceDrainTimeout s = .next t ∧
         (t.cluster a).trace.recs = [] ∧ (t.cluster a).trace.dropped = r.dropped + r.recs.length ∧
         (t.cluster a).l1 = [] ∧ (t.cluster a).tlb = [] ∧ (t.cluster a).gatingCmd = none ∧ t.mem = s.mem ∧
         ((s.fn fn).mrq.length < 64 → (t.fn fn).mrq = (s.fn fn).mrq ++ [⟨0x11, 0, fn, tag, []⟩])))

/-! ## The step, the encoding, reset, the memory -/

/-- R17, R37, R38, R80: what is due runs first, as its row, but nothing beside the ROM, BAR0 and resets runs before the part has booted
(R434); else a core whose turn it is fetches the word of the thread in
its slot, and the step is the decoded instruction on that thread, or on each member of its gang in turn, but for the forms
by which the leader acts for all; a word that does not decode and a fetch that fails run their own rows. That what is due runs
before the cores issue, and one core after another, is the model's own order: log 2, log 13. -/
def Obligations.StepRunsDecodedWord : Prop :=
  (∀ (d : Nat) (e : Event) rest (s : State), s.ctl.agenda = (d, .ev e) :: rest → d ≤ s.ctl.cycle →
    (∀ x ∈ s.dies, x.2.paused = false) →
    let u := s.updCtl fun c => { c with agenda := rest }
    (s.dev.boot.bootok = true ∨ beforeBoot e.kind = true → step s = exec e.kind.toInstr (u.latch e)) ∧
    (s.dev.boot.bootok = false → beforeBoot e.kind = false → step s = .next u)) ∧
  (∀ (tid core : Nat) (w : BitVec 32) rest (s v : State),
    (∀ x, s.ctl.agenda.head? = some x → s.ctl.cycle < x.1) → s.ctl.turns = core :: rest →
    (s.core core).slots.toList.getD (s.coreCycle core % 8) .empty = .held tid → (s.gangOf tid).head? = some tid →
    (∀ u ∈ s.gangOf tid, s.seated u = true) → (s.thread tid).run = .active → (s.cluster (core / 8)).isOn = true →
    tid < 32768 ∨ (∀ u ∈ s.gangOf tid, (s.core (s.thread u).core).noBind = false) → s.quantumDue tid = false →
    let u := s.updCtl fun c => { c with turns := rest }
    (∀ c, u.fetch tid = .trap c → step s = exec .fetchTrap ((u.acting tid 0 false).latch ⟨.fetchTrap, c, 0, 0, .none⟩)) ∧
    (u.fetch tid = .word w v →
      let p := v.acting tid w false
      (∀ e, decodeWord w = .error e → step s = exec .illegalWord (p.latch ⟨.illegalWord, e.cause, 0, 0, .word w⟩)) ∧
      ∀ i, decodeWord w = .ok i → tid < 32768 ∧ tid % 2 = 0 ∨ Reg.gq ∉ i.regs →
        (i.leads = true → step s = exec i (p.actAs tid)) ∧
        (i.leads = false → step s = (s.gangOf tid).foldl (fun o m => match o with | .next x => exec i (x.actAs m) | o => o)
          (.next p))))

/-- R76, R83 to R105: words written out from the spec's tables decode to what they stand for. -/
def Obligations.DecodedWords : Prop :=
  decodeWord 0x0668C400 = .ok (.add 0b10011 (.g 4) (.g 6) (.g 2)) ∧
  decodeWord 0x0E78C402 = .ok (.cmpLt 0b10011 12 (.g 6) (.g 2)) ∧
  decodeWord 0x1668C553 = .ok (.bfx 0b10011 (.g 4) (.g 6) 0x2A 0x13) ∧
  decodeWord 0x2A70CAAA = .ok (.loop 0b10011 (.g 6) 0xAAA) ∧
  decodeWord 0x3268D69D = .ok (.ld 0b10011 (.g 4) (.g 6) 5 0xA7 .h) ∧
  decodeWord 0x4268CD45 = .ok (.ldAcqD 0b10011 (.g 4) (.g 6) .die 5) ∧
  decodeWord 0x5268CC8A = .ok (.cntCas 0b10011 (.g 4) (.g 6) .die (.g 2)) ∧
  decodeWord 0x6668C401 = .ok (.vfadd 0b10011 (.g 4) (.g 6) (.g 2) .bh) ∧
  decodeWord 0x6E68C01D = .ok (.vcvt 0b10011 (.g 4) (.g 6) .hf .s) ∧
  decodeWord 0x8268C000 = .ok (.issueMx 0b10011 (.g 4) (.g 6)) ∧
  decodeWord 0xA268C004 = .ok (.nRead 0b10011 (.g 4) (.g 6)) ∧
  decodeWord 0xC2608020 = .ok (.srd 0b10011 (.g 4) .migthr)

/-- R79, R80, R82 to R105: a word that is of no form is refused with the cause of the first step that it fails: 0x01 when no form has its
major, 0x02 when none of that major has its minor, or for a bit field beyond bit 63, 0x03 when a reserved field is not zero, 0x04 when a
register, pair, segment or scope code is not allowed; and every other word decodes. -/
def Obligations.IllegalWords : Prop :=
  ∀ w : BitVec 32,
    let n := w.toNat
    ((∀ r ∈ formRows, r.major ≠ bits n 26 6) → decodeWord w = .error .major) ∧
    ((∃ r ∈ formRows, r.major = bits n 26 6) → (∀ r ∈ formRows, ¬ r.holds n) ∨ overlong n → decodeWord w = .error .minor) ∧
    ∀ r ∈ formRows, r.holds n → ¬ overlong n →
      (¬ r.clear n → decodeWord w = .error .reserved) ∧
      (r.clear n → ¬ r.coded n → decodeWord w = .error .code) ∧
      (r.clear n → r.coded n → ∃ i, decodeWord w = .ok i)

/-- R76, R80, R83 to R105: of every instruction that a word can carry, with every operand at every value, the decoder reads
back what the encoder writes. -/
def Obligations.EncodingRoundTrip : Prop := ∀ i, Laws.Roundtrip.Statement i

/-- R280, R368, R417, R432, R434: what reset leaves: MIGTHR 16, AGELIM 512, device ID 0, the time base at 0, no snapshot, and nothing due but
the boot, since X-die 1 and the C-dies are held in reset. That the ROM is about to run, that no thread exists and that every byte of
memory reads as zero are the model's choices: log 12, log 5, log 1. -/
def Obligations.ResetValues : Prop :=
  (∀ cl, (State.reset.cluster cl).regs.migthr = 16 ∧ (State.reset.router cl).agelim = 512) ∧ State.reset.dev.id = 0 ∧
    State.reset.ctl.cycle = 0 ∧ bit State.reset.dev.chorus.cfg.toNat 63 = false ∧
    State.reset.ctl.agenda = [(0, Happen.ev ⟨.boot, 0, 0, 0, .none⟩)] ∧
    State.reset.dev.boot.bootok = false ∧ State.reset.threads = [] ∧ (∀ x, State.reset.mem.readByte x = 0) ∧
    State.reset.mem.wf = true ∧ ∀ r g, wf (State.reset.groupEntry r g)[0] 40 8 = 0xFF

/-- The memory keeps its canonical form, addresses rising and no zero listed, in every step: the model's own form of the
bytes that the spec gives the machine (log 1). -/
def Obligations.MemoryStaysCanonical : Prop :=
  ∀ s t : State, s.mem.wf = true → step s = .next t → t.mem.wf = true
end

