-- ==== Sys2Proof/Laws/Memory.lean ====
section
/-! SUPPORT. The laws of memory: every operation keeps its one form, a byte reads as it was last written, and a write
leaves every other byte as it was. -/

-- One theorem at a time: a theorem that waits for the kernel holds a thread, and each thread takes stack.
set_option Elab.async false

namespace Sys2Proof.Machine

/-! ## The one form -/

theorem cellsWf_weaken {c : List Host.Cell} {lo : Option Nat} (h : cellsWf lo c = true) {l : Nat}
    (hl : ∀ k v t, c = (k, v) :: t → l < k) : cellsWf (some l) c = true := by
  cases c with
  | nil => rfl
  | cons x t =>
    obtain ⟨k, v⟩ := x
    have := hl k v t rfl
    cases lo <;> simp_all [cellsWf]

theorem cellsWf_none {c : List Host.Cell} {l : Option Nat} (h : cellsWf l c = true) : cellsWf none c = true := by
  cases c with
  | nil => rfl
  | cons x t => cases l <;> simp_all [cellsWf]

theorem cellsWf_cons {lo : Option Nat} {k : Nat} {v : Byte} {t : List Host.Cell} :
    cellsWf lo ((k, v) :: t) = true ↔ (∀ l, lo = some l → l < k) ∧ v ≠ unlisted ∧ cellsWf (some k) t = true := by
  cases lo <;> simp [cellsWf, and_assoc]

theorem cellsWf_filter (p : Host.Cell → Bool) : ∀ {c : List Host.Cell} {lo : Option Nat},
    cellsWf lo c = true → cellsWf lo (c.filter p) = true
  | [], _, _ => by simp [cellsWf]
  | (k, v) :: t, lo, h => by
    rw [cellsWf_cons] at h
    obtain ⟨hl, hv, ht⟩ := h
    have ht' := cellsWf_filter p ht
    rw [List.filter_cons]
    split
    · exact cellsWf_cons.2 ⟨hl, hv, ht'⟩
    · cases lo with
      | none => exact cellsWf_none ht'
      | some l =>
        refine cellsWf_weaken ht' fun k' v' t' e => ?_
        rw [e, cellsWf_cons] at ht'
        exact Nat.lt_trans (hl l rfl) (ht'.1 k rfl)

theorem cellsWf_put {a : Nat} {b : Byte} (hb : b ≠ unlisted) : ∀ {c : List Host.Cell} {lo : Option Nat},
    cellsWf lo c = true → (∀ l, lo = some l → l < a) → cellsWf lo (cellPut c a b) = true
  | [], lo, _, hl => cellsWf_cons.2 ⟨hl, hb, rfl⟩
  | (k, v) :: t, lo, h, hl => by
    rw [cellsWf_cons] at h
    obtain ⟨hk, hv, ht⟩ := h
    rw [cellPut]
    split
    · next e => exact cellsWf_cons.2 ⟨hl, hb, e ▸ ht⟩
    · split
      · next hlt => exact cellsWf_cons.2 ⟨hl, hb, cellsWf_cons.2 ⟨fun l e => by cases e; exact hlt, hv, ht⟩⟩
      · next hne hlt =>
        exact cellsWf_cons.2 ⟨hk, hv, cellsWf_put hb ht fun l e => by cases e; omega⟩

theorem writeByte_wf {m : Memory} (h : m.wf = true) (a : Nat) (b : Byte) : (m.writeByte a b).wf = true := by
  show cellsWf none (cellWrite m.cells a b) = true
  rw [cellWrite]
  split
  · exact cellsWf_filter _ h
  · next hb => exact cellsWf_put hb h fun _ e => by cases e

theorem write_wf : ∀ (bs : List Byte) {m : Memory} (a : Nat), m.wf = true → (m.write a bs).wf = true
  | [], _, _, h => h
  | b :: t, _, a, h => write_wf t (a + 1) (writeByte_wf h a b)

theorem writeMasked_wf : ∀ (bs : List Byte) {m : Memory} (a mask : Nat), m.wf = true → (m.writeMasked a mask bs).wf = true
  | [], _, _, _, h => h
  | b :: t, m, a, mask, h => by
    rw [Memory.writeMasked]
    refine writeMasked_wf t _ _ ?_
    split
    · exact writeByte_wf h a b
    · exact h

theorem zero_wf {m : Memory} (h : m.wf = true) (a n : Nat) : (m.zero a n).wf = true := cellsWf_filter _ h

@[simp] theorem setTag_wf (m : Memory) (a : Nat) (t : GranTag) : (m.setTag a t).wf = m.wf := rfl
@[simp] theorem setPoison_wf (m : Memory) (a : Nat) (p : Bool) : (m.setPoison a p).wf = m.wf := rfl
@[simp] theorem clearPoison_wf (m : Memory) (a n : Nat) : (m.clearPoison a n).wf = m.wf := rfl

theorem clear_wf {m : Memory} (h : m.wf = true) (a n : Nat) : (m.clear a n).wf = true := zero_wf h a n

/-- A fold keeps what each of its steps keeps. -/
theorem foldl_keeps {α β : Type} {P : α → Prop} {f : α → β → α} (hf : ∀ x y, P x → P (f x y)) :
    ∀ (l : List β) {x : α}, P x → P (l.foldl f x)
  | [], _, h => h
  | y :: t, x, h => foldl_keeps hf t (hf x y h)

theorem copyRange_wf {m : Memory} (h : m.wf = true) (src dst n : Nat) : (m.copyRange src dst n).wf = true := by
  refine foldl_keeps (P := fun x : Memory => x.wf = true) (fun x p hx => ?_) _ ?_
  · simpa using hx
  · exact foldl_keeps (P := fun x : Memory => x.wf = true) (fun x c hx => writeByte_wf hx _ _) _ (clear_wf h dst n)

/-- A read that meets errors in the codes changes no byte (R324). -/
theorem scan_wf {m : Memory} (h : m.wf = true) (a n : Nat) : (m.scan a n).1.wf = true := by
  rw [Memory.scan]
  split
  · exact h
  · exact h

theorem homeScan_wf {s : State} (h : s.mem.wf = true) (a n : Nat) : (s.homeScan a n).mem.wf = true := by
  have hw := scan_wf h a n
  simp only [State.homeScan]
  split
  · exact h
  · exact hw

theorem settleWords_wf {s : State} (h : s.mem.wf = true) (a mask : Nat) (psn : BitVec 16) :
    ∀ n, (s.settleWords a mask psn n).mem.wf = true
  | 0 => h
  | n + 1 => by
    have ih := settleWords_wf h a mask psn n
    simp only [State.settleWords]
    split
    · simpa using ih
    · split
      · exact ih
      · split
        · simpa using homeScan_wf ih _ _
        · exact homeScan_wf ih _ _

theorem reset_mem_wf : State.reset.mem.wf = true := rfl

/-! ## Reads after writes -/

theorem cellRead_filter (p : Host.Cell → Bool) {x : Nat} (hp : ∀ v, p (x, v) = true) :
    ∀ c : List Host.Cell, cellRead (c.filter p) x = cellRead c x
  | [] => rfl
  | (k, v) :: t => by
    rw [List.filter_cons]
    by_cases hk : x = k
    · subst hk; simp [hp, cellRead]
    · split <;> simp [cellRead, hk, cellRead_filter p hp t]

theorem cellRead_filter_out (p : Host.Cell → Bool) {x : Nat} (hp : ∀ v, p (x, v) = false) :
    ∀ c : List Host.Cell, cellRead (c.filter p) x = unlisted
  | [] => rfl
  | (k, v) :: t => by
    rw [List.filter_cons]
    by_cases hk : x = k
    · subst hk; simp [hp, cellRead_filter_out p hp t]
    · split <;> simp [cellRead, hk, cellRead_filter_out p hp t]

theorem cellRead_put_self (a : Nat) (b : Byte) : ∀ c : List Host.Cell, cellRead (cellPut c a b) a = b
  | [] => by simp [cellPut, cellRead]
  | (k, v) :: t => by
    rw [cellPut]
    split
    · simp [cellRead]
    · split
      · simp [cellRead]
      · next h _ => simp [cellRead, h, cellRead_put_self a b t]

theorem cellRead_put_ne {a x : Nat} (b : Byte) (h : x ≠ a) : ∀ c : List Host.Cell, cellRead (cellPut c a b) x = cellRead c x
  | [] => by simp [cellPut, cellRead, h]
  | (k, v) :: t => by
    rw [cellPut]
    split
    · next e => subst e; simp [cellRead, h]
    · split
      · simp [cellRead, h]
      · simp [cellRead, cellRead_put_ne b h t]

@[simp] theorem readByte_writeByte_self (m : Memory) (a : Nat) (b : Byte) : (m.writeByte a b).readByte a = b := by
  show cellRead (cellWrite m.cells a b) a = b
  rw [cellWrite]
  split
  · next h => rw [cellRead_filter_out _ (by simp), h]
  · exact cellRead_put_self a b _

theorem readByte_writeByte_ne (m : Memory) {a x : Nat} (b : Byte) (h : x ≠ a) :
    (m.writeByte a b).readByte x = m.readByte x := by
  show cellRead (cellWrite m.cells a b) x = _
  rw [cellWrite]
  split
  · exact cellRead_filter _ (by simpa using h) _
  · exact cellRead_put_ne b h _

theorem readByte_write_outside : ∀ (bs : List Byte) (m : Memory) {a x : Nat}, x < a ∨ a + bs.length ≤ x →
    (m.write a bs).readByte x = m.readByte x
  | [], _, _, _, _ => rfl
  | b :: t, m, a, x, h => by
    have h' : x < a ∨ a + (t.length + 1) ≤ x := h
    rw [Memory.write, readByte_write_outside t _ (by omega), readByte_writeByte_ne _ _ (by omega)]

theorem read_write_self : ∀ (bs : List Byte) (m : Memory) (a : Nat), (m.write a bs).read a bs.length = bs
  | [], _, _ => rfl
  | b :: t, m, a => by
    show (m.write a (b :: t)).readByte a :: Memory.read _ (a + 1) t.length = _
    rw [Memory.write, read_write_self t, readByte_write_outside t _ (by omega), readByte_writeByte_self]

/-- A read sees only the bytes of its own range. -/
theorem read_congr {m m' : Memory} : ∀ (n a : Nat), (∀ x, a ≤ x → x < a + n → m'.readByte x = m.readByte x) →
    m'.read a n = m.read a n
  | 0, _, _ => rfl
  | n + 1, a, h => by
    rw [Memory.read, Memory.read, h a (Nat.le_refl a) (by omega), read_congr n (a + 1) fun x h1 h2 => h x (by omega) (by omega)]

theorem readByte_zero (m : Memory) (a n x : Nat) :
    (m.zero a n).readByte x = if a ≤ x ∧ x < a + n then unlisted else m.readByte x := by
  show cellRead (m.cells.filter _) x = _
  split
  · next h => exact cellRead_filter_out _ (fun v => by simp; omega) _
  · next h => exact cellRead_filter _ (fun v => by simp; omega) _

@[simp] theorem readByte_setTag (m : Memory) (a x : Nat) (t : GranTag) : (m.setTag a t).readByte x = m.readByte x := rfl
@[simp] theorem readByte_setPoison (m : Memory) (a x : Nat) (p : Bool) : (m.setPoison a p).readByte x = m.readByte x := rfl
@[simp] theorem readByte_clearPoison (m : Memory) (a n x : Nat) : (m.clearPoison a n).readByte x = m.readByte x := rfl

theorem firstBelow_none {p : Nat → Bool} (h : ∀ i, p i = false) : ∀ n i, firstBelow p n i = none
  | 0, _ => rfl
  | n + 1, i => by rw [firstBelow, h i]; exact firstBelow_none h n (i + 1)

/-- Where no word is poisoned a range holds no poison. -/
theorem firstPoison_nil {m : Memory} (h : m.poison = []) (a n : Nat) : m.firstPoison a n = none := by
  rw [Memory.firstPoison, firstBelow_none (fun i => by rw [Memory.poisoned, h]; rfl)]
  rfl

@[simp] theorem readByte_scan (m : Memory) (a n x : Nat) : (m.scan a n).1.readByte x = m.readByte x := by
  rw [Memory.scan]
  split <;> rfl

/-- A read of a range whose codes show no error shows none in any word of it. -/
theorem scan_within {m : Memory} {a n b : Nat} (h : m.scan a n = (m, 0, 0)) (hb : a / 8 ≤ b / 8) (hn : b < a + n) :
    m.scan b 1 = (m, 0, 0) := by
  rw [Memory.scan] at h ⊢
  split
  · rfl
  · next hc =>
    rw [if_neg hc] at h
    simp only [Prod.mk.injEq, List.length_eq_zero_iff] at h
    obtain ⟨-, h1, h2⟩ := h
    have sub : ∀ w, (decide (b / 8 ≤ w) && decide (8 * w < b + 1)) = true → (decide (a / 8 ≤ w) && decide (8 * w < a + n)) = true := by
      intro w; simp only [Bool.and_eq_true, decide_eq_true_eq]; omega
    have none_of : ∀ l : List Nat, l.filter (fun w => decide (a / 8 ≤ w) && decide (8 * w < a + n)) = [] →
        l.filter (fun w => decide (b / 8 ≤ w) && decide (8 * w < b + 1)) = [] ∧
        l.filter (fun w => !(decide (b / 8 ≤ w) && decide (8 * w < b + 1))) = l := by
      intro l hl
      rw [List.filter_eq_nil_iff] at hl
      refine ⟨List.filter_eq_nil_iff.2 fun w hw hx => hl w hw (sub w hx), List.filter_eq_self.2 fun w hw => ?_⟩
      cases hx : (decide (b / 8 ≤ w) && decide (8 * w < b + 1)) with
      | false => rfl
      | true => exact absurd (sub w hx) (hl w hw)
    obtain ⟨o1, o2⟩ := none_of _ h1
    obtain ⟨l1, l2⟩ := none_of _ h2
    simp only [o1, o2, l1, l2, List.length_nil, List.nil_append, List.contains_nil, Bool.not_false, List.filter_true]

/-- A store of bytes, with the poison of the words it covers cleared, is what `storesTo` says. -/
theorem storesTo_write (s : State) {t : State} (k : Nat) (bs : List Byte)
    (h : ∀ x, t.mem.readByte x = (s.mem.write k bs).readByte x) :
    t.mem.read k bs.length = bs ∧ ∀ x, x < k ∨ k + bs.length ≤ x → t.mem.readByte x = s.mem.readByte x :=
  ⟨(read_congr _ _ fun x _ _ => h x).trans (read_write_self bs s.mem k), fun x hx => (h x).trans (readByte_write_outside bs _ hx)⟩

end Sys2Proof.Machine
end

