-- ==== Sys2Proof/Laws/Access.lean ====
section
/-! SUPPORT. What the shared operations of memory forms, requests, the agenda and the host agent do: one law for each
outcome. -/

-- One theorem at a time: a theorem that waits for the kernel holds a thread, and each thread takes stack.
set_option Elab.async false

namespace Sys2Proof.Machine

/-! ## Checks (R21, R179, R385, R472) -/

theorem segReg_run (i : Nat) (s : State) : (segReg i).run s = .ok (s.me.segs.toList.getD i {}, s) := rfl

theorem segReg_fin (i : Fin 8) (s : State) : (segReg i.val).run s = .ok (s.seg i, s) := by
  rw [segReg_run]
  simp [State.seg, List.getD_eq_getElem?_getD]

/-- chk() answers the sum when it passes. -/
theorem chk_ok {g : Seg} {o n nat : Nat} {rt : Right} {s : State} (h : s.segCheck g o n rt nat = none) :
    (chk g o n rt nat).run s = .ok (g.base.toNat + o, s) := by
  simp only [chk, M_bind, M_get]
  have h' : g.check (s.spadSize s.myCluster) o n rt nat = none := h
  simp only [h']
  rfl

/-- chk() traps with the cause of the first check that fails. -/
theorem chk_trap {g : Seg} {o n nat c : Nat} {rt : Right} {s : State} (h : s.segCheck g o n rt nat = some c) :
    (chk g o n rt nat).run s = .error (.trap c ((g.base.toNat + o) % 2 ^ 57)) := by
  simp only [chk, M_bind, M_get]
  have h' : g.check (s.spadSize s.myCluster) o n rt nat = some c := h
  simp only [h']
  rfl

theorem chkRange_ok {e : Nat} {s : State} (h : e < 2 ^ 57) : (chkRange e).run s = .ok ((), s) := by
  rw [chkRange, if_neg (by omega)]
  rfl

theorem chkRange_trap {e : Nat} {s : State} (h : 2 ^ 57 ≤ e) : (chkRange e).run s = .error (.trap 0x2C (e % 2 ^ 57)) := by
  rw [chkRange, if_pos h]
  rfl

/-! ## Translation (R392) -/

/-- A translation that the TLB holds: its use is noted. -/
theorem translate_hit {va : Nat} {k : AccKind} {e : TlbEntry} {s : State} (h : s.tlbHit va k e) :
    (translate va k).run s = .ok (e, s.tlbUsed va k) := by
  obtain ⟨-, h⟩ := h
  simp only [translate, M_bind, M_get]
  rw [State.tlbUsed]
  generalize hx : (s.cluster s.myCluster).lookup (s.asidOf s.myCluster) va k = x at h ⊢
  obtain ⟨a, c⟩ := x
  have ha : a = some e := h
  subst ha
  rfl

/-! ## The local memories (R143, R144, R157, R158) -/

theorem scanCodes_clear {cl key n : Nat} {s : State} (h : s.mem.scan key n = (s.mem, 0, 0)) :
    (scanCodes cl key n).run s = .ok ((), s) := by
  simp only [scanCodes, M_modify, checkCodes_sound h]

/-- A store reads the words that it covers in part: in a sound range nothing comes of it. -/
theorem scanPartial_clear {cl key n : Nat} {s : State} (h : s.mem.scan key n = (s.mem, 0, 0)) (hn : 0 < n) :
    (scanPartial cl key n).run s = .ok ((), s) := by
  have h1 := scanCodes_clear (cl := cl) (scan_within (b := key) h (Nat.le_refl _) (by omega))
  have h2 := scanCodes_clear (cl := cl) (scan_within (b := key + n - 1) h (by omega) (by omega))
  simp only [scanPartial, M_bind, M_ite, h1, h2, M_pure]
  split <;> split <;> rfl

theorem tcmLoad_clear {off n ea : Nat} {s : State} (h : s.tcmClear off n) :
    (tcmLoad off n ea).run s = .ok (s.mem.read (tcmKey s.me.core off) n, s) := by
  obtain ⟨hw, hp, hs⟩ := h
  simp only [tcmLoad, M_bind, M_get, hw]
  rw [if_neg Bool.false_ne_true]
  rw [M_bind_ok (scanCodes_clear hs), M_bind_ok (M_get s), hp]
  rfl

theorem tcmStore_clear {off : Nat} {bs : List Byte} {s : State} (hw : (s.core s.me.core).storeWaits off bs.length = false)
    (hs : s.mem.scan (tcmKey s.me.core off) bs.length = (s.mem, 0, 0)) (hn : 0 < bs.length) :
    (tcmStore off bs).run s = .ok ((), { s with
      mem := (s.mem.write (tcmKey s.me.core off) bs).clearPoison (tcmKey s.me.core off) bs.length }) := by
  simp only [tcmStore, M_bind, M_get, hw]
  rw [if_neg Bool.false_ne_true]
  rw [M_bind_ok (scanPartial_clear hs hn)]
  rfl

theorem spadLoad_clear {off n ea : Nat} {s : State} (hw : (s.cluster s.myCluster).lineWaits off n = false)
    (h : s.mem.sound (spadKey s.myCluster off) n) :
    (spadLoad off n ea).run s = .ok (s.mem.read (spadKey s.myCluster off) n, s) := by
  simp only [spadLoad, M_bind, M_get, hw]
  rw [if_neg Bool.false_ne_true]
  rw [M_bind_ok (scanCodes_clear h.2), M_bind_ok (M_get s), h.1]
  rfl

theorem spadStore_clear {off : Nat} {bs : List Byte} {s : State} (hw : (s.cluster s.myCluster).lineWaits off bs.length = false)
    (hs : s.mem.scan (spadKey s.myCluster off) bs.length = (s.mem, 0, 0)) (hn : 0 < bs.length) :
    (spadStore off bs).run s = .ok ((), { s with
      mem := (s.mem.write (spadKey s.myCluster off) bs).clearPoison (spadKey s.myCluster off) bs.length }) := by
  simp only [spadStore, M_bind, M_get, hw]
  rw [if_neg Bool.false_ne_true]
  rw [M_bind_ok (scanPartial_clear hs hn)]
  rfl

/-- A TCM operand through s3 that passes its checks (R472). -/
theorem tcmOperand_ok {off n nat : Nat} {rt : Right} {s : State} (h : s.tcmOk off n rt nat) :
    (tcmOperand off n rt nat).run s = .ok ((s.seg 3).base.toNat + off, s) := by
  obtain ⟨hs, hc⟩ := h
  simp only [tcmOperand, M_bind, segReg_fin (3 : Fin 8) s |> (fun h => (h : (segReg 3).run s = _)), chk_ok hc, hs]
  rfl

/-- The checks of an object form that pass (R179). -/
theorem chkObj_ok {a n va : Nat} {e : TlbEntry} {s : State} (h : s.objOk a n va e) : (chkObj a n).run s = .ok (va, s) := by
  obtain ⟨hs, hc, rfl, ht⟩ := h
  simp only [chkObj, M_bind, segReg_fin (4 : Fin 8) s |> (fun h => (h : (segReg 4).run s = _)), chk_ok hc, hs]
  simp only [ne_eq, not_true_eq_false, if_false, M_pure, M_bind, chkRange_ok ht.1]

/-! ## The agenda and the messages in flight -/

theorem insertDue_mem (d : Nat) (h : Happen) : ∀ l : List (Nat × Happen), (d, h) ∈ insertDue d h l
  | [] => by simp [insertDue]
  | (e, k) :: t => by
    rw [insertDue]
    split
    · exact List.mem_cons_of_mem _ (insertDue_mem d h t)
    · exact List.mem_cons_self ..

theorem insertDue_keeps {d : Nat} {h : Happen} {x : Nat × Happen} : ∀ {l : List (Nat × Happen)}, x ∈ l → x ∈ insertDue d h l
  | (e, k) :: t, hx => by
    rw [insertDue]
    split
    · rcases List.mem_cons.1 hx with rfl | hx
      · exact List.mem_cons_self ..
      · exact List.mem_cons_of_mem _ (insertDue_keeps hx)
    · exact List.mem_cons_of_mem _ hx

theorem insertDue_of_mem {d : Nat} {h : Happen} {x : Nat × Happen} : ∀ {l : List (Nat × Happen)},
    x ∈ insertDue d h l → x = (d, h) ∨ x ∈ l
  | [], hx => .inl (by simpa [insertDue] using hx)
  | (e, k) :: t, hx => by
    rw [insertDue] at hx
    split at hx
    · rcases List.mem_cons.1 hx with rfl | hx
      · exact .inr (List.mem_cons_self ..)
      · exact (insertDue_of_mem hx).imp_right (List.mem_cons_of_mem _)
    · exact List.mem_cons.1 hx

/-- What is scheduled is on the agenda. -/
theorem scheduled_of_mem {s : State} {k : EvKind} {a d : Nat} {e : Event} (h : (d, Happen.ev e) ∈ s.ctl.agenda) (hk : e.kind = k)
    (ha : e.a = a) : s.scheduled k a = true := by
  rw [State.scheduled, List.any_eq_true]
  exact ⟨_, h, by simp [hk, ha]⟩

theorem later_scheduled (s : State) (n : Nat) (k : EvKind) (a b c : Nat) : (s.later n k a b c).scheduled k a = true :=
  scheduled_of_mem (insertDue_mem _ _ _) rfl rfl

/-- Another happening put on the agenda takes none away. -/
theorem at_keeps {s : State} {k : EvKind} {a d : Nat} {h : Happen} (hs : s.scheduled k a = true) :
    (s.at d h).scheduled k a = true := by
  rw [State.scheduled, List.any_eq_true] at hs ⊢
  obtain ⟨x, hx, hp⟩ := hs
  exact ⟨x, insertDue_keeps hx, hp⟩

theorem later_keeps {s : State} {k j : EvKind} {a n b c d : Nat} (hs : s.scheduled k a = true) :
    (s.later n j b c d).scheduled k a = true := at_keeps hs

/-- A message put in flight stands at the number that was next. -/
theorem post_find (s : State) (n : Nat) (k : EvKind) (m : Msg) : (s.post n k m).msgs.find s.ctl.nextMsg = some m :=
  Tbl_find_set_self _ _ _

@[simp] theorem post_mem (s : State) (n : Nat) (k : EvKind) (m : Msg) : (s.post n k m).mem = s.mem := rfl
@[simp] theorem at_mem (s : State) (d : Nat) (h : Happen) : (s.at d h).mem = s.mem := rfl
@[simp] theorem later_mem (s : State) (n : Nat) (k : EvKind) (a b c : Nat) : (s.later n k a b c).mem = s.mem := rfl

/-! ## Completion records (R427 to R429) -/

@[simp] theorem raiseMsix_mem (s : State) (f v : Nat) : (s.raiseMsix f v).mem = s.mem := rfl

theorem updFn_fn (s : State) (i : Nat) (f : HostFn → HostFn) : (s.updFn i f).fn i = f (s.fn i) := by
  show Tbl.get _ _ _ = _
  rw [Tbl_get_eq]
  exact congrArg (fun o => Option.getD o ({} : HostFn)) (Tbl_find_set_self _ _ _)

/-- A record enters the queue while a place is free (R429). -/
theorem putCompletion_mrq {s : State} {c : Completion} (h : (s.fn c.fn).mrq.length < 64) :
    ((s.putCompletion c).fn c.fn).mrq = (s.fn c.fn).mrq ++ [c] := by
  rw [State.putCompletion, if_neg (by omega), updFn_fn]
  split
  · rw [State.raiseMsix, updFn_fn]
  · rfl

@[simp] theorem putCompletion_mem (s : State) (c : Completion) : (s.putCompletion c).mem = s.mem := by
  rw [State.putCompletion]
  split
  · rfl
  · show (if _ then _ else _ : State).mem = _
    split <;> rfl

end Sys2Proof.Machine
end

