-- ==== Sys2Proof/Laws/Exec.lean ====
section
/-! SUPPORT. What `exec` does with each constructor, one equation each, and the rows of `Extra` beside it. -/

-- One theorem at a time: a theorem that waits for the kernel holds a thread, and each thread takes stack.
set_option Elab.async false

namespace Sys2Proof.Machine

theorem exec_add (gd : Guard) (rd : Reg) (ra : Reg) (rb : Reg) (s : State) : exec (.add gd rd ra rb) s = execAdd gd rd ra rb s := rfl
theorem exec_sub (gd : Guard) (rd : Reg) (ra : Reg) (rb : Reg) (s : State) : exec (.sub gd rd ra rb) s = execSub gd rd ra rb s := rfl
theorem exec_and (gd : Guard) (rd : Reg) (ra : Reg) (rb : Reg) (s : State) : exec (.and gd rd ra rb) s = execAnd gd rd ra rb s := rfl
theorem exec_or (gd : Guard) (rd : Reg) (ra : Reg) (rb : Reg) (s : State) : exec (.or gd rd ra rb) s = execOr gd rd ra rb s := rfl
theorem exec_xor (gd : Guard) (rd : Reg) (ra : Reg) (rb : Reg) (s : State) : exec (.xor gd rd ra rb) s = execXor gd rd ra rb s := rfl
theorem exec_andn (gd : Guard) (rd : Reg) (ra : Reg) (rb : Reg) (s : State) : exec (.andn gd rd ra rb) s = execAndn gd rd ra rb s := rfl
theorem exec_orn (gd : Guard) (rd : Reg) (ra : Reg) (rb : Reg) (s : State) : exec (.orn gd rd ra rb) s = execOrn gd rd ra rb s := rfl
theorem exec_min (gd : Guard) (rd : Reg) (ra : Reg) (rb : Reg) (s : State) : exec (.min gd rd ra rb) s = execMin gd rd ra rb s := rfl
theorem exec_max (gd : Guard) (rd : Reg) (ra : Reg) (rb : Reg) (s : State) : exec (.max gd rd ra rb) s = execMax gd rd ra rb s := rfl
theorem exec_mins (gd : Guard) (rd : Reg) (ra : Reg) (rb : Reg) (s : State) : exec (.mins gd rd ra rb) s = execMins gd rd ra rb s := rfl
theorem exec_maxs (gd : Guard) (rd : Reg) (ra : Reg) (rb : Reg) (s : State) : exec (.maxs gd rd ra rb) s = execMaxs gd rd ra rb s := rfl
theorem exec_shl (gd : Guard) (rd : Reg) (ra : Reg) (rb : Reg) (s : State) : exec (.shl gd rd ra rb) s = execShl gd rd ra rb s := rfl
theorem exec_shr (gd : Guard) (rd : Reg) (ra : Reg) (rb : Reg) (s : State) : exec (.shr gd rd ra rb) s = execShr gd rd ra rb s := rfl
theorem exec_sra (gd : Guard) (rd : Reg) (ra : Reg) (rb : Reg) (s : State) : exec (.sra gd rd ra rb) s = execSra gd rd ra rb s := rfl
theorem exec_rol (gd : Guard) (rd : Reg) (ra : Reg) (rb : Reg) (s : State) : exec (.rol gd rd ra rb) s = execRol gd rd ra rb s := rfl
theorem exec_ror (gd : Guard) (rd : Reg) (ra : Reg) (rb : Reg) (s : State) : exec (.ror gd rd ra rb) s = execRor gd rd ra rb s := rfl
theorem exec_clz (gd : Guard) (rd : Reg) (ra : Reg) (s : State) : exec (.clz gd rd ra) s = execClz gd rd ra s := rfl
theorem exec_ctz (gd : Guard) (rd : Reg) (ra : Reg) (s : State) : exec (.ctz gd rd ra) s = execCtz gd rd ra s := rfl
theorem exec_popc (gd : Guard) (rd : Reg) (ra : Reg) (s : State) : exec (.popc gd rd ra) s = execPopc gd rd ra s := rfl
theorem exec_sextB (gd : Guard) (rd : Reg) (ra : Reg) (s : State) : exec (.sextB gd rd ra) s = execSextB gd rd ra s := rfl
theorem exec_sextH (gd : Guard) (rd : Reg) (ra : Reg) (s : State) : exec (.sextH gd rd ra) s = execSextH gd rd ra s := rfl
theorem exec_sextW (gd : Guard) (rd : Reg) (ra : Reg) (s : State) : exec (.sextW gd rd ra) s = execSextW gd rd ra s := rfl
theorem exec_zextB (gd : Guard) (rd : Reg) (ra : Reg) (s : State) : exec (.zextB gd rd ra) s = execZextB gd rd ra s := rfl
theorem exec_zextH (gd : Guard) (rd : Reg) (ra : Reg) (s : State) : exec (.zextH gd rd ra) s = execZextH gd rd ra s := rfl
theorem exec_zextW (gd : Guard) (rd : Reg) (ra : Reg) (s : State) : exec (.zextW gd rd ra) s = execZextW gd rd ra s := rfl
theorem exec_mov (gd : Guard) (rd : Reg) (ra : Reg) (s : State) : exec (.mov gd rd ra) s = execMov gd rd ra s := rfl
theorem exec_ldk (gd : Guard) (rd : Reg) (ra : Reg) (s : State) : exec (.ldk gd rd ra) s = execLdk gd rd ra s := rfl
theorem exec_stk (gd : Guard) (ra : Reg) (rb : Reg) (s : State) : exec (.stk gd ra rb) s = execStk gd ra rb s := rfl
theorem exec_sel (gd : Guard) (rd : Reg) (ra : Reg) (rb : Reg) (p : Pred) (s : State) : exec (.sel gd rd ra rb p) s = execSel gd rd ra rb p s := rfl
theorem exec_nop (gd : Guard) (s : State) : exec (.nop gd) s = execNop gd s := rfl
theorem exec_addK (gd : Guard) (rd : Reg) (ra : Reg) (k : BitVec 8) (s : State) : exec (.addK gd rd ra k) s = execAddK gd rd ra k s := rfl
theorem exec_subK (gd : Guard) (rd : Reg) (ra : Reg) (k : BitVec 8) (s : State) : exec (.subK gd rd ra k) s = execSubK gd rd ra k s := rfl
theorem exec_andK (gd : Guard) (rd : Reg) (ra : Reg) (k : BitVec 8) (s : State) : exec (.andK gd rd ra k) s = execAndK gd rd ra k s := rfl
theorem exec_orK (gd : Guard) (rd : Reg) (ra : Reg) (k : BitVec 8) (s : State) : exec (.orK gd rd ra k) s = execOrK gd rd ra k s := rfl
theorem exec_xorK (gd : Guard) (rd : Reg) (ra : Reg) (k : BitVec 8) (s : State) : exec (.xorK gd rd ra k) s = execXorK gd rd ra k s := rfl
theorem exec_andnK (gd : Guard) (rd : Reg) (ra : Reg) (k : BitVec 8) (s : State) : exec (.andnK gd rd ra k) s = execAndnK gd rd ra k s := rfl
theorem exec_ornK (gd : Guard) (rd : Reg) (ra : Reg) (k : BitVec 8) (s : State) : exec (.ornK gd rd ra k) s = execOrnK gd rd ra k s := rfl
theorem exec_minK (gd : Guard) (rd : Reg) (ra : Reg) (k : BitVec 8) (s : State) : exec (.minK gd rd ra k) s = execMinK gd rd ra k s := rfl
theorem exec_maxK (gd : Guard) (rd : Reg) (ra : Reg) (k : BitVec 8) (s : State) : exec (.maxK gd rd ra k) s = execMaxK gd rd ra k s := rfl
theorem exec_minsK (gd : Guard) (rd : Reg) (ra : Reg) (k : BitVec 8) (s : State) : exec (.minsK gd rd ra k) s = execMinsK gd rd ra k s := rfl
theorem exec_maxsK (gd : Guard) (rd : Reg) (ra : Reg) (k : BitVec 8) (s : State) : exec (.maxsK gd rd ra k) s = execMaxsK gd rd ra k s := rfl
theorem exec_movK (gd : Guard) (rd : Reg) (k : BitVec 8) (s : State) : exec (.movK gd rd k) s = execMovK gd rd k s := rfl
theorem exec_stkK (gd : Guard) (ra : Reg) (k : BitVec 8) (s : State) : exec (.stkK gd ra k) s = execStkK gd ra k s := rfl
theorem exec_cmpEq (gd : Guard) (p : Pred) (ra : Reg) (rb : Reg) (s : State) : exec (.cmpEq gd p ra rb) s = execCmpEq gd p ra rb s := rfl
theorem exec_cmpNe (gd : Guard) (p : Pred) (ra : Reg) (rb : Reg) (s : State) : exec (.cmpNe gd p ra rb) s = execCmpNe gd p ra rb s := rfl
theorem exec_cmpLt (gd : Guard) (p : Pred) (ra : Reg) (rb : Reg) (s : State) : exec (.cmpLt gd p ra rb) s = execCmpLt gd p ra rb s := rfl
theorem exec_cmpGe (gd : Guard) (p : Pred) (ra : Reg) (rb : Reg) (s : State) : exec (.cmpGe gd p ra rb) s = execCmpGe gd p ra rb s := rfl
theorem exec_cmpLe (gd : Guard) (p : Pred) (ra : Reg) (rb : Reg) (s : State) : exec (.cmpLe gd p ra rb) s = execCmpLe gd p ra rb s := rfl
theorem exec_cmpGt (gd : Guard) (p : Pred) (ra : Reg) (rb : Reg) (s : State) : exec (.cmpGt gd p ra rb) s = execCmpGt gd p ra rb s := rfl
theorem exec_cmpLtu (gd : Guard) (p : Pred) (ra : Reg) (rb : Reg) (s : State) : exec (.cmpLtu gd p ra rb) s = execCmpLtu gd p ra rb s := rfl
theorem exec_cmpGeu (gd : Guard) (p : Pred) (ra : Reg) (rb : Reg) (s : State) : exec (.cmpGeu gd p ra rb) s = execCmpGeu gd p ra rb s := rfl
theorem exec_cmpLeu (gd : Guard) (p : Pred) (ra : Reg) (rb : Reg) (s : State) : exec (.cmpLeu gd p ra rb) s = execCmpLeu gd p ra rb s := rfl
theorem exec_cmpGtu (gd : Guard) (p : Pred) (ra : Reg) (rb : Reg) (s : State) : exec (.cmpGtu gd p ra rb) s = execCmpGtu gd p ra rb s := rfl
theorem exec_tst (gd : Guard) (p : Pred) (ra : Reg) (rb : Reg) (s : State) : exec (.tst gd p ra rb) s = execTst gd p ra rb s := rfl
theorem exec_cmpEqK (gd : Guard) (p : Pred) (ra : Reg) (k : BitVec 8) (s : State) : exec (.cmpEqK gd p ra k) s = execCmpEqK gd p ra k s := rfl
theorem exec_cmpNeK (gd : Guard) (p : Pred) (ra : Reg) (k : BitVec 8) (s : State) : exec (.cmpNeK gd p ra k) s = execCmpNeK gd p ra k s := rfl
theorem exec_cmpLtK (gd : Guard) (p : Pred) (ra : Reg) (k : BitVec 8) (s : State) : exec (.cmpLtK gd p ra k) s = execCmpLtK gd p ra k s := rfl
theorem exec_cmpGeK (gd : Guard) (p : Pred) (ra : Reg) (k : BitVec 8) (s : State) : exec (.cmpGeK gd p ra k) s = execCmpGeK gd p ra k s := rfl
theorem exec_cmpLeK (gd : Guard) (p : Pred) (ra : Reg) (k : BitVec 8) (s : State) : exec (.cmpLeK gd p ra k) s = execCmpLeK gd p ra k s := rfl
theorem exec_cmpGtK (gd : Guard) (p : Pred) (ra : Reg) (k : BitVec 8) (s : State) : exec (.cmpGtK gd p ra k) s = execCmpGtK gd p ra k s := rfl
theorem exec_cmpLtuK (gd : Guard) (p : Pred) (ra : Reg) (k : BitVec 8) (s : State) : exec (.cmpLtuK gd p ra k) s = execCmpLtuK gd p ra k s := rfl
theorem exec_cmpGeuK (gd : Guard) (p : Pred) (ra : Reg) (k : BitVec 8) (s : State) : exec (.cmpGeuK gd p ra k) s = execCmpGeuK gd p ra k s := rfl
theorem exec_cmpLeuK (gd : Guard) (p : Pred) (ra : Reg) (k : BitVec 8) (s : State) : exec (.cmpLeuK gd p ra k) s = execCmpLeuK gd p ra k s := rfl
theorem exec_cmpGtuK (gd : Guard) (p : Pred) (ra : Reg) (k : BitVec 8) (s : State) : exec (.cmpGtuK gd p ra k) s = execCmpGtuK gd p ra k s := rfl
theorem exec_tstK (gd : Guard) (p : Pred) (ra : Reg) (k : BitVec 8) (s : State) : exec (.tstK gd p ra k) s = execTstK gd p ra k s := rfl
theorem exec_pand (gd : Guard) (rd : Pred) (ra : Pred) (rb : Pred) (s : State) : exec (.pand gd rd ra rb) s = execPand gd rd ra rb s := rfl
theorem exec_por (gd : Guard) (rd : Pred) (ra : Pred) (rb : Pred) (s : State) : exec (.por gd rd ra rb) s = execPor gd rd ra rb s := rfl
theorem exec_pxor (gd : Guard) (rd : Pred) (ra : Pred) (rb : Pred) (s : State) : exec (.pxor gd rd ra rb) s = execPxor gd rd ra rb s := rfl
theorem exec_pnot (gd : Guard) (rd : Pred) (ra : Pred) (s : State) : exec (.pnot gd rd ra) s = execPnot gd rd ra s := rfl
theorem exec_pmov (gd : Guard) (rd : Pred) (ra : Pred) (s : State) : exec (.pmov gd rd ra) s = execPmov gd rd ra s := rfl
theorem exec_bfx (gd : Guard) (rd : Reg) (ra : Reg) (p : BitVec 6) (l : BitVec 5) (s : State) : exec (.bfx gd rd ra p l) s = execBfx gd rd ra p l s := rfl
theorem exec_bfxs (gd : Guard) (rd : Reg) (ra : Reg) (p : BitVec 6) (l : BitVec 5) (s : State) : exec (.bfxs gd rd ra p l) s = execBfxs gd rd ra p l s := rfl
theorem exec_bfi (gd : Guard) (rd : Reg) (ra : Reg) (p : BitVec 6) (l : BitVec 5) (s : State) : exec (.bfi gd rd ra p l) s = execBfi gd rd ra p l s := rfl
theorem exec_shlImm (gd : Guard) (rd : Reg) (ra : Reg) (n : BitVec 6) (s : State) : exec (.shlImm gd rd ra n) s = execShlImm gd rd ra n s := rfl
theorem exec_shrImm (gd : Guard) (rd : Reg) (ra : Reg) (n : BitVec 6) (s : State) : exec (.shrImm gd rd ra n) s = execShrImm gd rd ra n s := rfl
theorem exec_sraImm (gd : Guard) (rd : Reg) (ra : Reg) (n : BitVec 6) (s : State) : exec (.sraImm gd rd ra n) s = execSraImm gd rd ra n s := rfl
theorem exec_rolImm (gd : Guard) (rd : Reg) (ra : Reg) (n : BitVec 6) (s : State) : exec (.rolImm gd rd ra n) s = execRolImm gd rd ra n s := rfl
theorem exec_rorImm (gd : Guard) (rd : Reg) (ra : Reg) (n : BitVec 6) (s : State) : exec (.rorImm gd rd ra n) s = execRorImm gd rd ra n s := rfl
theorem exec_mul (gd : Guard) (rd : Reg) (ra : Reg) (rb : Reg) (s : State) : exec (.mul gd rd ra rb) s = execMul gd rd ra rb s := rfl
theorem exec_mulh (gd : Guard) (rd : Reg) (ra : Reg) (rb : Reg) (s : State) : exec (.mulh gd rd ra rb) s = execMulh gd rd ra rb s := rfl
theorem exec_mulhs (gd : Guard) (rd : Reg) (ra : Reg) (rb : Reg) (s : State) : exec (.mulhs gd rd ra rb) s = execMulhs gd rd ra rb s := rfl
theorem exec_div (gd : Guard) (rd : Reg) (ra : Reg) (rb : Reg) (s : State) : exec (.div gd rd ra rb) s = execDiv gd rd ra rb s := rfl
theorem exec_divs (gd : Guard) (rd : Reg) (ra : Reg) (rb : Reg) (s : State) : exec (.divs gd rd ra rb) s = execDivs gd rd ra rb s := rfl
theorem exec_rem (gd : Guard) (rd : Reg) (ra : Reg) (rb : Reg) (s : State) : exec (.rem gd rd ra rb) s = execRem gd rd ra rb s := rfl
theorem exec_rems (gd : Guard) (rd : Reg) (ra : Reg) (rb : Reg) (s : State) : exec (.rems gd rd ra rb) s = execRems gd rd ra rb s := rfl
theorem exec_br (gd : Guard) (rd : BitVec 21) (s : State) : exec (.br gd rd) s = execBr gd rd s := rfl
theorem exec_call (gd : Guard) (rd : BitVec 21) (s : State) : exec (.call gd rd) s = execCall gd rd s := rfl
theorem exec_jmp (gd : Guard) (ra : Reg) (s : State) : exec (.jmp gd ra) s = execJmp gd ra s := rfl
theorem exec_ret (gd : Guard) (s : State) : exec (.ret gd) s = execRet gd s := rfl
theorem exec_loop (gd : Guard) (ra : Reg) (rd : BitVec 13) (s : State) : exec (.loop gd ra rd) s = execLoop gd ra rd s := rfl
theorem exec_ld (gd : Guard) (rd : Reg) (ra : Reg) (sg : Fin 8) (k : BitVec 8) (sz : Size) (s : State) : exec (.ld gd rd ra sg k sz) s = execLd gd rd ra sg k sz s := rfl
theorem exec_st (gd : Guard) (rd : Reg) (ra : Reg) (sg : Fin 8) (k : BitVec 8) (sz : Size) (s : State) : exec (.st gd rd ra sg k sz) s = execSt gd rd ra sg k sz s := rfl
theorem exec_lds (gd : Guard) (rd : Reg) (ra : Reg) (sg : Fin 8) (rb : Reg) (sz : Size) (s : State) : exec (.lds gd rd ra sg rb sz) s = execLds gd rd ra sg rb sz s := rfl
theorem exec_ldRr (gd : Guard) (rd : Reg) (ra : Reg) (sg : Fin 8) (rb : Reg) (sz : Size) (s : State) : exec (.ldRr gd rd ra sg rb sz) s = execLdRr gd rd ra sg rb sz s := rfl
theorem exec_stRr (gd : Guard) (rd : Reg) (ra : Reg) (sg : Fin 8) (rb : Reg) (sz : Size) (s : State) : exec (.stRr gd rd ra sg rb sz) s = execStRr gd rd ra sg rb sz s := rfl
theorem exec_ldp (gd : Guard) (rd : Reg) (ra : Reg) (sg : Fin 8) (rb : Reg) (s : State) : exec (.ldp gd rd ra sg rb) s = execLdp gd rd ra sg rb s := rfl
theorem exec_stp (gd : Guard) (rd : Reg) (ra : Reg) (sg : Fin 8) (rb : Reg) (s : State) : exec (.stp gd rd ra sg rb) s = execStp gd rd ra sg rb s := rfl
theorem exec_rsv (gd : Guard) (rd : Reg) (ra : Reg) (sg : Fin 8) (rb : Reg) (sz : Size) (s : State) : exec (.rsv gd rd ra sg rb sz) s = execRsv gd rd ra sg rb sz s := rfl
theorem exec_rls (gd : Guard) (rd : Reg) (ra : Reg) (sg : Fin 8) (rb : Reg) (sz : Size) (s : State) : exec (.rls gd rd ra sg rb sz) s = execRls gd rd ra sg rb sz s := rfl
theorem exec_rlsx (gd : Guard) (ra : Reg) (sg : Fin 8) (rb : Reg) (sz : Size) (s : State) : exec (.rlsx gd ra sg rb sz) s = execRlsx gd ra sg rb sz s := rfl
theorem exec_logAdd (gd : Guard) (rd : Reg) (ra : Reg) (sg : Fin 8) (rb : Reg) (sz : Size) (s : State) : exec (.logAdd gd rd ra sg rb sz) s = execLogAdd gd rd ra sg rb sz s := rfl
theorem exec_logFadd (gd : Guard) (rd : Reg) (ra : Reg) (sg : Fin 8) (rb : Reg) (s : State) : exec (.logFadd gd rd ra sg rb) s = execLogFadd gd rd ra sg rb s := rfl
theorem exec_logMin (gd : Guard) (rd : Reg) (ra : Reg) (sg : Fin 8) (rb : Reg) (sz : Size) (s : State) : exec (.logMin gd rd ra sg rb sz) s = execLogMin gd rd ra sg rb sz s := rfl
theorem exec_logMax (gd : Guard) (rd : Reg) (ra : Reg) (sg : Fin 8) (rb : Reg) (sz : Size) (s : State) : exec (.logMax gd rd ra sg rb sz) s = execLogMax gd rd ra sg rb sz s := rfl
theorem exec_logOr (gd : Guard) (rd : Reg) (ra : Reg) (sg : Fin 8) (rb : Reg) (sz : Size) (s : State) : exec (.logOr gd rd ra sg rb sz) s = execLogOr gd rd ra sg rb sz s := rfl
theorem exec_fenceAcq (gd : Guard) (sc : Scope) (s : State) : exec (.fenceAcq gd sc) s = execFenceAcq gd sc s := rfl
theorem exec_fenceRel (gd : Guard) (sc : Scope) (s : State) : exec (.fenceRel gd sc) s = execFenceRel gd sc s := rfl
theorem exec_fenceFull (gd : Guard) (sc : Scope) (s : State) : exec (.fenceFull gd sc) s = execFenceFull gd sc s := rfl
theorem exec_ldAcqW (gd : Guard) (rd : Reg) (ra : Reg) (sc : Scope) (sg : Fin 8) (s : State) : exec (.ldAcqW gd rd ra sc sg) s = execLdAcqW gd rd ra sc sg s := rfl
theorem exec_ldAcqD (gd : Guard) (rd : Reg) (ra : Reg) (sc : Scope) (sg : Fin 8) (s : State) : exec (.ldAcqD gd rd ra sc sg) s = execLdAcqD gd rd ra sc sg s := rfl
theorem exec_stRelW (gd : Guard) (rd : Reg) (ra : Reg) (sc : Scope) (sg : Fin 8) (s : State) : exec (.stRelW gd rd ra sc sg) s = execStRelW gd rd ra sc sg s := rfl
theorem exec_stRelD (gd : Guard) (rd : Reg) (ra : Reg) (sc : Scope) (sg : Fin 8) (s : State) : exec (.stRelD gd rd ra sc sg) s = execStRelD gd rd ra sc sg s := rfl
theorem exec_seal (gd : Guard) (ra : Reg) (sc : Scope) (rb : Reg) (s : State) : exec (.seal gd ra sc rb) s = execSeal gd ra sc rb s := rfl
theorem exec_unseal (gd : Guard) (rd : Reg) (ra : Reg) (sc : Scope) (s : State) : exec (.unseal gd rd ra sc) s = execUnseal gd rd ra sc s := rfl
theorem exec_pref (gd : Guard) (ra : Reg) (sg : Fin 8) (s : State) : exec (.pref gd ra sg) s = execPref gd ra sg s := rfl
theorem exec_cwb (gd : Guard) (ra : Reg) (sg : Fin 8) (s : State) : exec (.cwb gd ra sg) s = execCwb gd ra sg s := rfl
theorem exec_cdrop (gd : Guard) (ra : Reg) (sg : Fin 8) (s : State) : exec (.cdrop gd ra sg) s = execCdrop gd ra sg s := rfl
theorem exec_scbWait (gd : Guard) (ra : Reg) (rb : Reg) (s : State) : exec (.scbWait gd ra rb) s = execScbWait gd ra rb s := rfl
theorem exec_segLd (gd : Guard) (rd : Fin 8) (ra : Reg) (s : State) : exec (.segLd gd rd ra) s = execSegLd gd rd ra s := rfl
theorem exec_segNarrow (gd : Guard) (rd : Fin 8) (ra : Reg) (rb : Reg) (s : State) : exec (.segNarrow gd rd ra rb) s = execSegNarrow gd rd ra rb s := rfl
theorem exec_segGive (gd : Guard) (rd : Fin 8) (ra : Reg) (sc : Scope) (s : State) : exec (.segGive gd rd ra sc) s = execSegGive gd rd ra sc s := rfl
theorem exec_segTake (gd : Guard) (rd : Fin 8) (ra : Reg) (s : State) : exec (.segTake gd rd ra) s = execSegTake gd rd ra s := rfl
theorem exec_ldx (gd : Guard) (rd : Reg) (ra : Reg) (rb : Reg) (sp : RSpace) (sz : Size) (s : State) : exec (.ldx gd rd ra rb sp sz) s = execLdx gd rd ra rb sp sz s := rfl
theorem exec_stx (gd : Guard) (rd : Reg) (ra : Reg) (rb : Reg) (sp : RSpace) (sz : Size) (s : State) : exec (.stx gd rd ra rb sp sz) s = execStx gd rd ra rb sp sz s := rfl
theorem exec_stxN4 (gd : Guard) (rd : Reg) (ra : Reg) (rb : Reg) (sp : RSpace) (s : State) : exec (.stxN4 gd rd ra rb sp) s = execStxN4 gd rd ra rb sp s := rfl
theorem exec_objInit (gd : Guard) (ra : Reg) (sc : Scope) (rb : Reg) (s : State) : exec (.objInit gd ra sc rb) s = execObjInit gd ra sc rb s := rfl
theorem exec_objFree (gd : Guard) (ra : Reg) (sc : Scope) (s : State) : exec (.objFree gd ra sc) s = execObjFree gd ra sc s := rfl
theorem exec_objRead (gd : Guard) (rd : Reg) (ra : Reg) (sc : Scope) (s : State) : exec (.objRead gd rd ra sc) s = execObjRead gd rd ra sc s := rfl
theorem exec_cntAdd (gd : Guard) (rd : Reg) (ra : Reg) (sc : Scope) (rb : Reg) (s : State) : exec (.cntAdd gd rd ra sc rb) s = execCntAdd gd rd ra sc rb s := rfl
theorem exec_cntSwap (gd : Guard) (rd : Reg) (ra : Reg) (sc : Scope) (rb : Reg) (s : State) : exec (.cntSwap gd rd ra sc rb) s = execCntSwap gd rd ra sc rb s := rfl
theorem exec_cntCas (gd : Guard) (rd : Reg) (ra : Reg) (sc : Scope) (rb : Reg) (s : State) : exec (.cntCas gd rd ra sc rb) s = execCntCas gd rd ra sc rb s := rfl
theorem exec_cntWaitge (gd : Guard) (rd : Reg) (ra : Reg) (sc : Scope) (rb : Reg) (s : State) : exec (.cntWaitge gd rd ra sc rb) s = execCntWaitge gd rd ra sc rb s := rfl
theorem exec_cntWaiteq (gd : Guard) (rd : Reg) (ra : Reg) (sc : Scope) (rb : Reg) (s : State) : exec (.cntWaiteq gd rd ra sc rb) s = execCntWaiteq gd rd ra sc rb s := rfl
theorem exec_barArrive (gd : Guard) (rd : Reg) (ra : Reg) (sc : Scope) (s : State) : exec (.barArrive gd rd ra sc) s = execBarArrive gd rd ra sc s := rfl
theorem exec_barWait (gd : Guard) (ra : Reg) (sc : Scope) (rb : Reg) (s : State) : exec (.barWait gd ra sc rb) s = execBarWait gd ra sc rb s := rfl
theorem exec_barSync (gd : Guard) (rd : Reg) (ra : Reg) (sc : Scope) (s : State) : exec (.barSync gd rd ra sc) s = execBarSync gd rd ra sc s := rfl
theorem exec_tktAcq (gd : Guard) (rd : Reg) (ra : Reg) (sc : Scope) (s : State) : exec (.tktAcq gd rd ra sc) s = execTktAcq gd rd ra sc s := rfl
theorem exec_tktTry (gd : Guard) (rd : Pred) (ra : Reg) (sc : Scope) (s : State) : exec (.tktTry gd rd ra sc) s = execTktTry gd rd ra sc s := rfl
theorem exec_tktRel (gd : Guard) (ra : Reg) (sc : Scope) (s : State) : exec (.tktRel gd ra sc) s = execTktRel gd ra sc s := rfl
theorem exec_cndWait (gd : Guard) (ra : Reg) (sc : Scope) (rb : Reg) (s : State) : exec (.cndWait gd ra sc rb) s = execCndWait gd ra sc rb s := rfl
theorem exec_cndSig (gd : Guard) (ra : Reg) (sc : Scope) (s : State) : exec (.cndSig gd ra sc) s = execCndSig gd ra sc s := rfl
theorem exec_cndBcast (gd : Guard) (ra : Reg) (sc : Scope) (s : State) : exec (.cndBcast gd ra sc) s = execCndBcast gd ra sc s := rfl
theorem exec_qPut (gd : Guard) (ra : Reg) (sc : Scope) (rb : Reg) (s : State) : exec (.qPut gd ra sc rb) s = execQPut gd ra sc rb s := rfl
theorem exec_qGet (gd : Guard) (rd : Reg) (ra : Reg) (sc : Scope) (rb : Reg) (s : State) : exec (.qGet gd rd ra sc rb) s = execQGet gd rd ra sc rb s := rfl
theorem exec_qTryput (gd : Guard) (rd : Pred) (ra : Reg) (sc : Scope) (rb : Reg) (s : State) : exec (.qTryput gd rd ra sc rb) s = execQTryput gd rd ra sc rb s := rfl
theorem exec_qTryget (gd : Guard) (rd : Pred) (ra : Reg) (sc : Scope) (rb : Reg) (s : State) : exec (.qTryget gd rd ra sc rb) s = execQTryget gd rd ra sc rb s := rfl
theorem exec_vadd (gd : Guard) (rd : Reg) (ra : Reg) (rb : Reg) (l : LaneI) (s : State) : exec (.vadd gd rd ra rb l) s = execVadd gd rd ra rb l s := rfl
theorem exec_vsub (gd : Guard) (rd : Reg) (ra : Reg) (rb : Reg) (l : LaneI) (s : State) : exec (.vsub gd rd ra rb l) s = execVsub gd rd ra rb l s := rfl
theorem exec_vadds (gd : Guard) (rd : Reg) (ra : Reg) (rb : Reg) (l : LaneI) (s : State) : exec (.vadds gd rd ra rb l) s = execVadds gd rd ra rb l s := rfl
theorem exec_vsubs (gd : Guard) (rd : Reg) (ra : Reg) (rb : Reg) (l : LaneI) (s : State) : exec (.vsubs gd rd ra rb l) s = execVsubs gd rd ra rb l s := rfl
theorem exec_vmul (gd : Guard) (rd : Reg) (ra : Reg) (rb : Reg) (l : LaneI) (s : State) : exec (.vmul gd rd ra rb l) s = execVmul gd rd ra rb l s := rfl
theorem exec_vmulh (gd : Guard) (rd : Reg) (ra : Reg) (rb : Reg) (l : LaneI) (s : State) : exec (.vmulh gd rd ra rb l) s = execVmulh gd rd ra rb l s := rfl
theorem exec_vmac (gd : Guard) (rd : Reg) (ra : Reg) (rb : Reg) (l : LaneI) (s : State) : exec (.vmac gd rd ra rb l) s = execVmac gd rd ra rb l s := rfl
theorem exec_vdot4 (gd : Guard) (rd : Reg) (ra : Reg) (rb : Reg) (s : State) : exec (.vdot4 gd rd ra rb) s = execVdot4 gd rd ra rb s := rfl
theorem exec_vmin (gd : Guard) (rd : Reg) (ra : Reg) (rb : Reg) (l : LaneI) (s : State) : exec (.vmin gd rd ra rb l) s = execVmin gd rd ra rb l s := rfl
theorem exec_vmax (gd : Guard) (rd : Reg) (ra : Reg) (rb : Reg) (l : LaneI) (s : State) : exec (.vmax gd rd ra rb l) s = execVmax gd rd ra rb l s := rfl
theorem exec_vabs (gd : Guard) (rd : Reg) (ra : Reg) (l : LaneI) (s : State) : exec (.vabs gd rd ra l) s = execVabs gd rd ra l s := rfl
theorem exec_vavg (gd : Guard) (rd : Reg) (ra : Reg) (rb : Reg) (l : LaneI) (s : State) : exec (.vavg gd rd ra rb l) s = execVavg gd rd ra rb l s := rfl
theorem exec_vshl (gd : Guard) (rd : Reg) (ra : Reg) (rb : Reg) (l : LaneI) (s : State) : exec (.vshl gd rd ra rb l) s = execVshl gd rd ra rb l s := rfl
theorem exec_vshr (gd : Guard) (rd : Reg) (ra : Reg) (rb : Reg) (l : LaneI) (s : State) : exec (.vshr gd rd ra rb l) s = execVshr gd rd ra rb l s := rfl
theorem exec_vsra (gd : Guard) (rd : Reg) (ra : Reg) (rb : Reg) (l : LaneI) (s : State) : exec (.vsra gd rd ra rb l) s = execVsra gd rd ra rb l s := rfl
theorem exec_vcmpEq (gd : Guard) (rd : Reg) (ra : Reg) (rb : Reg) (l : LaneI) (s : State) : exec (.vcmpEq gd rd ra rb l) s = execVcmpEq gd rd ra rb l s := rfl
theorem exec_vcmpNe (gd : Guard) (rd : Reg) (ra : Reg) (rb : Reg) (l : LaneI) (s : State) : exec (.vcmpNe gd rd ra rb l) s = execVcmpNe gd rd ra rb l s := rfl
theorem exec_vcmpLt (gd : Guard) (rd : Reg) (ra : Reg) (rb : Reg) (l : LaneI) (s : State) : exec (.vcmpLt gd rd ra rb l) s = execVcmpLt gd rd ra rb l s := rfl
theorem exec_vcmpGe (gd : Guard) (rd : Reg) (ra : Reg) (rb : Reg) (l : LaneI) (s : State) : exec (.vcmpGe gd rd ra rb l) s = execVcmpGe gd rd ra rb l s := rfl
theorem exec_vcmpLtu (gd : Guard) (rd : Reg) (ra : Reg) (rb : Reg) (l : LaneI) (s : State) : exec (.vcmpLtu gd rd ra rb l) s = execVcmpLtu gd rd ra rb l s := rfl
theorem exec_vcmpGeu (gd : Guard) (rd : Reg) (ra : Reg) (rb : Reg) (l : LaneI) (s : State) : exec (.vcmpGeu gd rd ra rb l) s = execVcmpGeu gd rd ra rb l s := rfl
theorem exec_vsel (gd : Guard) (rd : Reg) (ra : Reg) (rb : Reg) (l : LaneI) (s : State) : exec (.vsel gd rd ra rb l) s = execVsel gd rd ra rb l s := rfl
theorem exec_vfadd (gd : Guard) (rd : Reg) (ra : Reg) (rb : Reg) (l : LaneF) (s : State) : exec (.vfadd gd rd ra rb l) s = execVfadd gd rd ra rb l s := rfl
theorem exec_vfmul (gd : Guard) (rd : Reg) (ra : Reg) (rb : Reg) (l : LaneF) (s : State) : exec (.vfmul gd rd ra rb l) s = execVfmul gd rd ra rb l s := rfl
theorem exec_vfma (gd : Guard) (rd : Reg) (ra : Reg) (rb : Reg) (l : LaneF) (s : State) : exec (.vfma gd rd ra rb l) s = execVfma gd rd ra rb l s := rfl
theorem exec_vfmin (gd : Guard) (rd : Reg) (ra : Reg) (rb : Reg) (l : LaneF) (s : State) : exec (.vfmin gd rd ra rb l) s = execVfmin gd rd ra rb l s := rfl
theorem exec_vfmax (gd : Guard) (rd : Reg) (ra : Reg) (rb : Reg) (l : LaneF) (s : State) : exec (.vfmax gd rd ra rb l) s = execVfmax gd rd ra rb l s := rfl
theorem exec_vfcmpEq (gd : Guard) (rd : Reg) (ra : Reg) (rb : Reg) (l : LaneF) (s : State) : exec (.vfcmpEq gd rd ra rb l) s = execVfcmpEq gd rd ra rb l s := rfl
theorem exec_vfcmpLt (gd : Guard) (rd : Reg) (ra : Reg) (rb : Reg) (l : LaneF) (s : State) : exec (.vfcmpLt gd rd ra rb l) s = execVfcmpLt gd rd ra rb l s := rfl
theorem exec_vfcmpLe (gd : Guard) (rd : Reg) (ra : Reg) (rb : Reg) (l : LaneF) (s : State) : exec (.vfcmpLe gd rd ra rb l) s = execVfcmpLe gd rd ra rb l s := rfl
theorem exec_vfcmpUn (gd : Guard) (rd : Reg) (ra : Reg) (rb : Reg) (l : LaneF) (s : State) : exec (.vfcmpUn gd rd ra rb l) s = execVfcmpUn gd rd ra rb l s := rfl
theorem exec_vshuf (gd : Guard) (rd : Reg) (ra : Reg) (rb : Reg) (l : LaneI) (s : State) : exec (.vshuf gd rd ra rb l) s = execVshuf gd rd ra rb l s := rfl
theorem exec_vbcast (gd : Guard) (rd : Reg) (ra : Reg) (rb : Reg) (l : LaneI) (s : State) : exec (.vbcast gd rd ra rb l) s = execVbcast gd rd ra rb l s := rfl
theorem exec_vrev (gd : Guard) (rd : Reg) (ra : Reg) (l : LaneI) (s : State) : exec (.vrev gd rd ra l) s = execVrev gd rd ra l s := rfl
theorem exec_vpack (gd : Guard) (rd : Reg) (ra : Reg) (rb : Reg) (l : LaneI) (s : State) : exec (.vpack gd rd ra rb l) s = execVpack gd rd ra rb l s := rfl
theorem exec_vunpk (gd : Guard) (rd : Reg) (ra : Reg) (l : LaneI) (s : State) : exec (.vunpk gd rd ra l) s = execVunpk gd rd ra l s := rfl
theorem exec_vcvt (gd : Guard) (rd : Reg) (ra : Reg) (x : Fmt) (y : Fmt) (s : State) : exec (.vcvt gd rd ra x y) s = execVcvt gd rd ra x y s := rfl
theorem exec_vf4blk (gd : Guard) (rd : Reg) (ra : Reg) (rb : Reg) (y : Fmt) (s : State) : exec (.vf4blk gd rd ra rb y) s = execVf4blk gd rd ra rb y s := rfl
theorem exec_vsum (gd : Guard) (rd : Reg) (ra : Reg) (y : Fmt) (s : State) : exec (.vsum gd rd ra y) s = execVsum gd rd ra y s := rfl
theorem exec_fdiv (gd : Guard) (rd : Reg) (ra : Reg) (rb : Reg) (s : State) : exec (.fdiv gd rd ra rb) s = execFdiv gd rd ra rb s := rfl
theorem exec_fsqrt (gd : Guard) (rd : Reg) (ra : Reg) (s : State) : exec (.fsqrt gd rd ra) s = execFsqrt gd rd ra s := rfl
theorem exec_frcp (gd : Guard) (rd : Reg) (ra : Reg) (s : State) : exec (.frcp gd rd ra) s = execFrcp gd rd ra s := rfl
theorem exec_frsq (gd : Guard) (rd : Reg) (ra : Reg) (s : State) : exec (.frsq gd rd ra) s = execFrsq gd rd ra s := rfl
theorem exec_fexp2 (gd : Guard) (rd : Reg) (ra : Reg) (s : State) : exec (.fexp2 gd rd ra) s = execFexp2 gd rd ra s := rfl
theorem exec_flog2 (gd : Guard) (rd : Reg) (ra : Reg) (s : State) : exec (.flog2 gd rd ra) s = execFlog2 gd rd ra s := rfl
theorem exec_fsin (gd : Guard) (rd : Reg) (ra : Reg) (s : State) : exec (.fsin gd rd ra) s = execFsin gd rd ra s := rfl
theorem exec_fcos (gd : Guard) (rd : Reg) (ra : Reg) (s : State) : exec (.fcos gd rd ra) s = execFcos gd rd ra s := rfl
theorem exec_ftanh (gd : Guard) (rd : Reg) (ra : Reg) (s : State) : exec (.ftanh gd rd ra) s = execFtanh gd rd ra s := rfl
theorem exec_fadd (gd : Guard) (rd : Reg) (ra : Reg) (rb : Reg) (s : State) : exec (.fadd gd rd ra rb) s = execFadd gd rd ra rb s := rfl
theorem exec_fsub (gd : Guard) (rd : Reg) (ra : Reg) (rb : Reg) (s : State) : exec (.fsub gd rd ra rb) s = execFsub gd rd ra rb s := rfl
theorem exec_fmul (gd : Guard) (rd : Reg) (ra : Reg) (rb : Reg) (s : State) : exec (.fmul gd rd ra rb) s = execFmul gd rd ra rb s := rfl
theorem exec_fma (gd : Guard) (rd : Reg) (ra : Reg) (rb : Reg) (s : State) : exec (.fma gd rd ra rb) s = execFma gd rd ra rb s := rfl
theorem exec_fmin (gd : Guard) (rd : Reg) (ra : Reg) (rb : Reg) (s : State) : exec (.fmin gd rd ra rb) s = execFmin gd rd ra rb s := rfl
theorem exec_fmax (gd : Guard) (rd : Reg) (ra : Reg) (rb : Reg) (s : State) : exec (.fmax gd rd ra rb) s = execFmax gd rd ra rb s := rfl
theorem exec_fneg (gd : Guard) (rd : Reg) (ra : Reg) (s : State) : exec (.fneg gd rd ra) s = execFneg gd rd ra s := rfl
theorem exec_fabs (gd : Guard) (rd : Reg) (ra : Reg) (s : State) : exec (.fabs gd rd ra) s = execFabs gd rd ra s := rfl
theorem exec_fcmpEq (gd : Guard) (rd : Pred) (ra : Reg) (rb : Reg) (s : State) : exec (.fcmpEq gd rd ra rb) s = execFcmpEq gd rd ra rb s := rfl
theorem exec_fcmpLt (gd : Guard) (rd : Pred) (ra : Reg) (rb : Reg) (s : State) : exec (.fcmpLt gd rd ra rb) s = execFcmpLt gd rd ra rb s := rfl
theorem exec_fcmpLe (gd : Guard) (rd : Pred) (ra : Reg) (rb : Reg) (s : State) : exec (.fcmpLe gd rd ra rb) s = execFcmpLe gd rd ra rb s := rfl
theorem exec_fcmpUn (gd : Guard) (rd : Pred) (ra : Reg) (rb : Reg) (s : State) : exec (.fcmpUn gd rd ra rb) s = execFcmpUn gd rd ra rb s := rfl
theorem exec_fcvtSL (gd : Guard) (rd : Reg) (ra : Reg) (s : State) : exec (.fcvtSL gd rd ra) s = execFcvtSL gd rd ra s := rfl
theorem exec_fcvtLS (gd : Guard) (rd : Reg) (ra : Reg) (s : State) : exec (.fcvtLS gd rd ra) s = execFcvtLS gd rd ra s := rfl
theorem exec_fcvtSLu (gd : Guard) (rd : Reg) (ra : Reg) (s : State) : exec (.fcvtSLu gd rd ra) s = execFcvtSLu gd rd ra s := rfl
theorem exec_fcvtLuS (gd : Guard) (rd : Reg) (ra : Reg) (s : State) : exec (.fcvtLuS gd rd ra) s = execFcvtLuS gd rd ra s := rfl
theorem exec_fcvtSHf (gd : Guard) (rd : Reg) (ra : Reg) (s : State) : exec (.fcvtSHf gd rd ra) s = execFcvtSHf gd rd ra s := rfl
theorem exec_fcvtHfS (gd : Guard) (rd : Reg) (ra : Reg) (s : State) : exec (.fcvtHfS gd rd ra) s = execFcvtHfS gd rd ra s := rfl
theorem exec_fcvtSBh (gd : Guard) (rd : Reg) (ra : Reg) (s : State) : exec (.fcvtSBh gd rd ra) s = execFcvtSBh gd rd ra s := rfl
theorem exec_fcvtBhS (gd : Guard) (rd : Reg) (ra : Reg) (s : State) : exec (.fcvtBhS gd rd ra) s = execFcvtBhS gd rd ra s := rfl
theorem exec_qmake (gd : Guard) (rd : Reg) (ra : Reg) (rb : Reg) (s : State) : exec (.qmake gd rd ra rb) s = execQmake gd rd ra rb s := rfl
theorem exec_qnum (gd : Guard) (rd : Reg) (ra : Reg) (s : State) : exec (.qnum gd rd ra) s = execQnum gd rd ra s := rfl
theorem exec_qden (gd : Guard) (rd : Reg) (ra : Reg) (s : State) : exec (.qden gd rd ra) s = execQden gd rd ra s := rfl
theorem exec_qmed (gd : Guard) (rd : Reg) (ra : Reg) (rb : Reg) (s : State) : exec (.qmed gd rd ra rb) s = execQmed gd rd ra rb s := rfl
theorem exec_qcf (gd : Guard) (rd : Reg) (ra : Reg) (rb : Reg) (s : State) : exec (.qcf gd rd ra rb) s = execQcf gd rd ra rb s := rfl
theorem exec_qlim (gd : Guard) (rd : Reg) (ra : Reg) (rb : Reg) (s : State) : exec (.qlim gd rd ra rb) s = execQlim gd rd ra rb s := rfl
theorem exec_qcanon (gd : Guard) (rd : Reg) (ra : Reg) (s : State) : exec (.qcanon gd rd ra) s = execQcanon gd rd ra s := rfl
theorem exec_qcvtF (gd : Guard) (rd : Reg) (ra : Reg) (s : State) : exec (.qcvtF gd rd ra) s = execQcvtF gd rd ra s := rfl
theorem exec_qcvtI (gd : Guard) (rd : Reg) (ra : Reg) (s : State) : exec (.qcvtI gd rd ra) s = execQcvtI gd rd ra s := rfl
theorem exec_qclass (gd : Guard) (rd : Reg) (ra : Reg) (s : State) : exec (.qclass gd rd ra) s = execQclass gd rd ra s := rfl
theorem exec_gcd (gd : Guard) (rd : Reg) (ra : Reg) (rb : Reg) (s : State) : exec (.gcd gd rd ra rb) s = execGcd gd rd ra rb s := rfl
theorem exec_qsetm (gd : Guard) (ra : Reg) (s : State) : exec (.qsetm gd ra) s = execQsetm gd ra s := rfl
theorem exec_issueMx (gd : Guard) (rd : Reg) (ra : Reg) (s : State) : exec (.issueMx gd rd ra) s = execIssueMx gd rd ra s := rfl
theorem exec_issueMxSync (gd : Guard) (rd : Reg) (ra : Reg) (s : State) : exec (.issueMxSync gd rd ra) s = execIssueMxSync gd rd ra s := rfl
theorem exec_issueQd (gd : Guard) (rd : Reg) (ra : Reg) (s : State) : exec (.issueQd gd rd ra) s = execIssueQd gd rd ra s := rfl
theorem exec_issueQdSync (gd : Guard) (rd : Reg) (ra : Reg) (s : State) : exec (.issueQdSync gd rd ra) s = execIssueQdSync gd rd ra s := rfl
theorem exec_issueCp (gd : Guard) (rd : Reg) (ra : Reg) (s : State) : exec (.issueCp gd rd ra) s = execIssueCp gd rd ra s := rfl
theorem exec_issueCpSync (gd : Guard) (rd : Reg) (ra : Reg) (s : State) : exec (.issueCpSync gd rd ra) s = execIssueCpSync gd rd ra s := rfl
theorem exec_issueCl (gd : Guard) (rd : Reg) (ra : Reg) (s : State) : exec (.issueCl gd rd ra) s = execIssueCl gd rd ra s := rfl
theorem exec_issueClSync (gd : Guard) (rd : Reg) (ra : Reg) (s : State) : exec (.issueClSync gd rd ra) s = execIssueClSync gd rd ra s := rfl
theorem exec_waitj (gd : Guard) (ra : Reg) (s : State) : exec (.waitj gd ra) s = execWaitj gd ra s := rfl
theorem exec_pollj (gd : Guard) (rd : Pred) (ra : Reg) (s : State) : exec (.pollj gd rd ra) s = execPollj gd rd ra s := rfl
theorem exec_jdrop (gd : Guard) (ra : Reg) (s : State) : exec (.jdrop gd ra) s = execJdrop gd ra s := rfl
theorem exec_fmtLd (gd : Guard) (ra : Reg) (s : State) : exec (.fmtLd gd ra) s = execFmtLd gd ra s := rfl
theorem exec_spawn (gd : Guard) (rd : Reg) (ra : Reg) (rb : Reg) (s : State) : exec (.spawn gd rd ra rb) s = execSpawn gd rd ra rb s := rfl
theorem exec_migr (gd : Guard) (ra : Reg) (s : State) : exec (.migr gd ra) s = execMigr gd ra s := rfl
theorem exec_exit (gd : Guard) (s : State) : exec (.exit gd) s = execExit gd s := rfl
theorem exec_yield (gd : Guard) (s : State) : exec (.yield gd) s = execYield gd s := rfl
theorem exec_lnch (gd : Guard) (rd : Reg) (ra : Reg) (rb : Reg) (s : State) : exec (.lnch gd rd ra rb) s = execLnch gd rd ra rb s := rfl
theorem exec_gang2 (gd : Guard) (s : State) : exec (.gang2 gd) s = execGang2 gd s := rfl
theorem exec_gang4 (gd : Guard) (s : State) : exec (.gang4 gd) s = execGang4 gd s := rfl
theorem exec_gang8 (gd : Guard) (s : State) : exec (.gang8 gd) s = execGang8 gd s := rfl
theorem exec_ungang (gd : Guard) (s : State) : exec (.ungang gd) s = execUngang gd s := rfl
theorem exec_amSend (gd : Guard) (ra : Reg) (rb : Reg) (s : State) : exec (.amSend gd ra rb) s = execAmSend gd ra rb s := rfl
theorem exec_gstore (gd : Guard) (ra : Reg) (rb : Reg) (s : State) : exec (.gstore gd ra rb) s = execGstore gd ra rb s := rfl
theorem exec_probeStart (gd : Guard) (ra : Reg) (s : State) : exec (.probeStart gd ra) s = execProbeStart gd ra s := rfl
theorem exec_nAlloc (gd : Guard) (rd : Reg) (ra : Reg) (s : State) : exec (.nAlloc gd rd ra) s = execNAlloc gd rd ra s := rfl
theorem exec_nFree (gd : Guard) (ra : Reg) (s : State) : exec (.nFree gd ra) s = execNFree gd ra s := rfl
theorem exec_nLink (gd : Guard) (ra : Reg) (rb : Reg) (s : State) : exec (.nLink gd ra rb) s = execNLink gd ra rb s := rfl
theorem exec_nRelink (gd : Guard) (rd : Reg) (ra : Reg) (rb : Reg) (s : State) : exec (.nRelink gd rd ra rb) s = execNRelink gd rd ra rb s := rfl
theorem exec_nRead (gd : Guard) (rd : Reg) (ra : Reg) (s : State) : exec (.nRead gd rd ra) s = execNRead gd rd ra s := rfl
theorem exec_pairPop (gd : Guard) (rd : Reg) (s : State) : exec (.pairPop gd rd) s = execPairPop gd rd s := rfl
theorem exec_pairPush (gd : Guard) (ra : Reg) (rb : Reg) (s : State) : exec (.pairPush gd ra rb) s = execPairPush gd ra rb s := rfl
theorem exec_ruleLd (gd : Guard) (ra : Reg) (s : State) : exec (.ruleLd gd ra) s = execRuleLd gd ra s := rfl
theorem exec_ruleGo (gd : Guard) (ra : Reg) (s : State) : exec (.ruleGo gd ra) s = execRuleGo gd ra s := rfl
theorem exec_srd (gd : Guard) (x : Reg) (n : SysReg) (s : State) : exec (.srd gd x n) s = execSrd gd x n s := rfl
theorem exec_swr (gd : Guard) (x : Reg) (n : SysReg) (s : State) : exec (.swr gd x n) s = execSwr gd x n s := rfl
theorem exec_trap (gd : Guard) (n : BitVec 8) (s : State) : exec (.trap gd n) s = execTrap gd n s := rfl
theorem exec_eret (gd : Guard) (s : State) : exec (.eret gd) s = execEret gd s := rfl
theorem exec_brk (gd : Guard) (s : State) : exec (.brk gd) s = execBrk gd s := rfl
theorem exec_watch (gd : Guard) (ra : Reg) (rb : Reg) (s : State) : exec (.watch gd ra rb) s = execWatch gd ra rb s := rfl
theorem exec_chorusMark (gd : Guard) (ra : Reg) (s : State) : exec (.chorusMark gd ra) s = execChorusMark gd ra s := rfl
theorem exec_traceMark (gd : Guard) (ra : Reg) (s : State) : exec (.traceMark gd ra) s = execTraceMark gd ra s := rfl
theorem exec_tadpoleBinding (s : State) : exec .tadpoleBinding s = execTadpoleBinding s := rfl
theorem exec_quantumExpiry (s : State) : exec .quantumExpiry s = execQuantumExpiry s := rfl
theorem exec_replyArrival (s : State) : exec .replyArrival s = execReplyArrival s := rfl
theorem exec_icacheLineArrival (s : State) : exec .icacheLineArrival s = execIcacheLineArrival s := rfl
theorem exec_sfuOperationFinish (s : State) : exec .sfuOperationFinish s = execSfuOperationFinish s := rfl
theorem exec_hardwareMigration (s : State) : exec .hardwareMigration s = execHardwareMigration s := rfl
theorem exec_migrationDeparture (s : State) : exec .migrationDeparture s = execMigrationDeparture s := rfl
theorem exec_migrRetry (s : State) : exec .migrRetry s = execMigrRetry s := rfl
theorem exec_tadpoleArrival (s : State) : exec .tadpoleArrival s = execTadpoleArrival s := rfl
theorem exec_wake (s : State) : exec .wake s = execWake s := rfl
theorem exec_gangFormationTimeout (s : State) : exec .gangFormationTimeout s = execGangFormationTimeout s := rfl
theorem exec_tlbWalkCompletion (s : State) : exec .tlbWalkCompletion s = execTlbWalkCompletion s := rfl
theorem exec_l1Fill (s : State) : exec .l1Fill s = execL1Fill s := rfl
theorem exec_writeBackAtHome (s : State) : exec .writeBackAtHome s = execWriteBackAtHome s := rfl
theorem exec_sliceRequest (s : State) : exec .sliceRequest s = execSliceRequest s := rfl
theorem exec_hbmAccessCompletion (s : State) : exec .hbmAccessCompletion s = execHbmAccessCompletion s := rfl
theorem exec_eftOperation (s : State) : exec .eftOperation s = execEftOperation s := rfl
theorem exec_reservationRevocation (s : State) : exec .reservationRevocation s = execReservationRevocation s := rfl
theorem exec_overflowChainRead (s : State) : exec .overflowChainRead s = execOverflowChainRead s := rfl
theorem exec_omegaCombine (s : State) : exec .omegaCombine s = execOmegaCombine s := rfl
theorem exec_logAppendArrival (s : State) : exec .logAppendArrival s = execLogAppendArrival s := rfl
theorem exec_logAreaFullTimeout (s : State) : exec .logAreaFullTimeout s = execLogAreaFullTimeout s := rfl
theorem exec_pairCheck (s : State) : exec .pairCheck s = execPairCheck s := rfl
theorem exec_accessCounterHalving (s : State) : exec .accessCounterHalving s = execAccessCounterHalving s := rfl
theorem exec_faultRecordDeferred (s : State) : exec .faultRecordDeferred s = execFaultRecordDeferred s := rfl
theorem exec_engineSelection (s : State) : exec .engineSelection s = execEngineSelection s := rfl
theorem exec_quadSignal (s : State) : exec .quadSignal s = execQuadSignal s := rfl
theorem exec_mmaF4 (s : State) : exec .mmaF4 s = execMmaF4 s := rfl
theorem exec_mmaBf (s : State) : exec .mmaBf s = execMmaBf s := rfl
theorem exec_mmaH (s : State) : exec .mmaH s = execMmaH s := rfl
theorem exec_accZero (s : State) : exec .accZero s = execAccZero s := rfl
theorem exec_accDrain (s : State) : exec .accDrain s = execAccDrain s := rfl
theorem exec_fmtSet (s : State) : exec .fmtSet s = execFmtSet s := rfl
theorem exec_qmma (s : State) : exec .qmma s = execQmma s := rfl
theorem exec_cp1d (s : State) : exec .cp1d s = execCp1d s := rfl
theorem exec_cp2d (s : State) : exec .cp2d s = execCp2d s := rfl
theorem exec_cpGather (s : State) : exec .cpGather s = execCpGather s := rfl
theorem exec_cpScatter (s : State) : exec .cpScatter s = execCpScatter s := rfl
theorem exec_cpFill (s : State) : exec .cpFill s = execCpFill s := rfl
theorem exec_cpSignal (s : State) : exec .cpSignal s = execCpSignal s := rfl
theorem exec_copyUnit (s : State) : exec .copyUnit s = execCopyUnit s := rfl
theorem exec_jobCompletion (s : State) : exec .jobCompletion s = execJobCompletion s := rfl
theorem exec_clReduce (s : State) : exec .clReduce s = execClReduce s := rfl
theorem exec_clBcast (s : State) : exec .clBcast s = execClBcast s := rfl
theorem exec_clAllreduce (s : State) : exec .clAllreduce s = execClAllreduce s := rfl
theorem exec_clChunk (s : State) : exec .clChunk s = execClChunk s := rfl
theorem exec_groupContribution (s : State) : exec .groupContribution s = execGroupContribution s := rfl
theorem exec_groupDelivery (s : State) : exec .groupDelivery s = execGroupDelivery s := rfl
theorem exec_packetArrival (s : State) : exec .packetArrival s = execPacketArrival s := rfl
theorem exec_packetGrant (s : State) : exec .packetGrant s = execPacketGrant s := rfl
theorem exec_packetPromotion (s : State) : exec .packetPromotion s = execPacketPromotion s := rfl
theorem exec_messageArrival (s : State) : exec .messageArrival s = execMessageArrival s := rfl
theorem exec_messageRetry (s : State) : exec .messageRetry s = execMessageRetry s := rfl
theorem exec_streamMessageMove (s : State) : exec .streamMessageMove s = execStreamMessageMove s := rfl
theorem exec_handlerStart (s : State) : exec .handlerStart s = execHandlerStart s := rfl
theorem exec_remoteAccessService (s : State) : exec .remoteAccessService s = execRemoteAccessService s := rfl
theorem exec_probeToken (s : State) : exec .probeToken s = execProbeToken s := rfl
theorem exec_phaseEnd (s : State) : exec .phaseEnd s = execPhaseEnd s := rfl
theorem exec_fabricPacketArrival (s : State) : exec .fabricPacketArrival s = execFabricPacketArrival s := rfl
theorem exec_endToEndAcknowledgement (s : State) : exec .endToEndAcknowledgement s = execEndToEndAcknowledgement s := rfl
theorem exec_linkResend (s : State) : exec .linkResend s = execLinkResend s := rfl
theorem exec_portDown (s : State) : exec .portDown s = execPortDown s := rfl
theorem exec_linkTraining (s : State) : exec .linkTraining s = execLinkTraining s := rfl
theorem exec_dependenceMet (s : State) : exec .dependenceMet s = execDependenceMet s := rfl
theorem exec_headBlocking (s : State) : exec .headBlocking s = execHeadBlocking s := rfl
theorem exec_pondPlacement (s : State) : exec .pondPlacement s = execPondPlacement s := rfl
theorem exec_pondEnd (s : State) : exec .pondEnd s = execPondEnd s := rfl
theorem exec_queueSet (s : State) : exec .queueSet s = execQueueSet s := rfl
theorem exec_sliceSet (s : State) : exec .sliceSet s = execSliceSet s := rfl
theorem exec_asidSet (s : State) : exec .asidSet s = execAsidSet s := rfl
theorem exec_taskSet (s : State) : exec .taskSet s = execTaskSet s := rfl
theorem exec_keyLoadData (s : State) : exec .keyLoadData s = execKeyLoadData s := rfl
theorem exec_keyLoadTweak (s : State) : exec .keyLoadTweak s = execKeyLoadTweak s := rfl
theorem exec_routeSet (s : State) : exec .routeSet s = execRouteSet s := rfl
theorem exec_groupSetWrite (s : State) : exec .groupSetWrite s = execGroupSetWrite s := rfl
theorem exec_groupSetRetire (s : State) : exec .groupSetRetire s = execGroupSetRetire s := rfl
theorem exec_fqSet (s : State) : exec .fqSet s = execFqSet s := rfl
theorem exec_faultAnswerReissue (s : State) : exec .faultAnswerReissue s = execFaultAnswerReissue s := rfl
theorem exec_faultAnswerDeliver (s : State) : exec .faultAnswerDeliver s = execFaultAnswerDeliver s := rfl
theorem exec_shootdown (s : State) : exec .shootdown s = execShootdown s := rfl
theorem exec_shootdownCluster (s : State) : exec .shootdownCluster s = execShootdownCluster s := rfl
theorem exec_moveStart (s : State) : exec .moveStart s = execMoveStart s := rfl
theorem exec_movePass (s : State) : exec .movePass s = execMovePass s := rfl
theorem exec_moveEnd (s : State) : exec .moveEnd s = execMoveEnd s := rfl
theorem exec_preempt (s : State) : exec .preempt s = execPreempt s := rfl
theorem exec_resume (s : State) : exec .resume s = execResume s := rfl
theorem exec_debugSet (s : State) : exec .debugSet s = execDebugSet s := rfl
theorem exec_dump (s : State) : exec .dump s = execDump s := rfl
theorem exec_powerOperatingPoint (s : State) : exec .powerOperatingPoint s = execPowerOperatingPoint s := rfl
theorem exec_powerCluster (s : State) : exec .powerCluster s = execPowerCluster s := rfl
theorem exec_powerHbmRefresh (s : State) : exec .powerHbmRefresh s = execPowerHbmRefresh s := rfl
theorem exec_powerLinkWidth (s : State) : exec .powerLinkWidth s = execPowerLinkWidth s := rfl
theorem exec_withdraw (s : State) : exec .withdraw s = execWithdraw s := rfl
theorem exec_cntRead (s : State) : exec .cntRead s = execCntRead s := rfl
theorem exec_launch (s : State) : exec .launch s = execLaunch s := rfl
theorem exec_attest (s : State) : exec .attest s = execAttest s := rfl
theorem exec_objSet (s : State) : exec .objSet s = execObjSet s := rfl
theorem exec_pageZero (s : State) : exec .pageZero s = execPageZero s := rfl
theorem exec_funcSet (s : State) : exec .funcSet s = execFuncSet s := rfl
theorem exec_devSet (s : State) : exec .devSet s = execDevSet s := rfl
theorem exec_mrq (s : State) : exec .mrq s = execMrq s := rfl
theorem exec_meq (s : State) : exec .meq s = execMeq s := rfl
theorem exec_hstat (s : State) : exec .hstat s = execHstat s := rfl
theorem exec_bar2Access (s : State) : exec .bar2Access s = execBar2Access s := rfl
theorem exec_functionLevelReset (s : State) : exec .functionLevelReset s = execFunctionLevelReset s := rfl
theorem exec_boot (s : State) : exec .boot s = execBoot s := rfl
theorem exec_thermalTrip (s : State) : exec .thermalTrip s = execThermalTrip s := rfl
theorem exec_chorusTick (s : State) : exec .chorusTick s = execChorusTick s := rfl
theorem exec_traceDrain (s : State) : exec .traceDrain s = execTraceDrain s := rfl
theorem exec_traceDrainTimeout (s : State) : exec .traceDrainTimeout s = execTraceDrainTimeout s := rfl
theorem exec_mcq (s : State) : exec .mcq s = execMcq s := rfl
theorem exec_illegalWord (s : State) : exec .illegalWord s = execIllegalWord s := rfl
theorem exec_fetchTrap (s : State) : exec .fetchTrap s = execFetchTrap s := rfl
theorem exec_operatingPointPauseEnd (s : State) : exec .operatingPointPauseEnd s = execOperatingPointPauseEnd s := rfl
theorem exec_clusterPowerUp (s : State) : exec .clusterPowerUp s = execClusterPowerUp s := rfl
theorem exec_finalPassTimeout (s : State) : exec .finalPassTimeout s = execFinalPassTimeout s := rfl
theorem exec_linkAcknowledgement (s : State) : exec .linkAcknowledgement s = execLinkAcknowledgement s := rfl
theorem exec_ideEnable (s : State) : exec .ideEnable s = execIdeEnable s := rfl

/-- The meaning reached through `Extra` is that of the instruction (the compiler's limit changes nothing). -/
theorem execExtra_eq (x : Extra) (s : State) : execExtra x s = exec (Form.extra x).toInstr s := by
  cases x <;> rfl

end Sys2Proof.Machine
end

