-- ==== Sys2Proof/Tests/Slice0.lean ====
section
/-! SUPPORT. Tests: ill-formed terms that WellFormed refuses, words that the spec's tables give, small steps whose results
the spec gives, and for each obligation with hypotheses a state that meets them (theorems `met_`). -/

-- One theorem at a time: a theorem that waits for the kernel holds a thread, and each thread takes stack.
set_option Elab.async false

namespace Sys2Proof.Tests

open Sys2Proof Sys2Proof.Machine

/-! ## Ill-formed terms (R10, R11, R80, R91, R127, R134, R142, R203, R204) -/

theorem test_refuses_k_code : WellFormed (.add 0 .k (.g 1) (.g 2)) = false ∧ WellFormed (.add 0 (.g 1) .k (.g 2)) = false ∧
    WellFormed (.add 0 (.g 1) (.g 2) .k) = false ∧ WellFormed (.addK 0 (.g 1) .k 5) = true := ⟨rfl, rfl, rfl, rfl⟩

theorem test_refuses_odd_pair : WellFormed (.ldp 0 (.g 1) (.g 2) 0 (.g 3)) = false ∧ WellFormed (.stp 0 .gz (.g 2) 0 (.g 3)) = false ∧
    WellFormed (.ldp 0 (.g 8) (.g 2) 0 (.g 3)) = true := ⟨rfl, rfl, rfl⟩

theorem test_refuses_loop_gz : WellFormed (.loop 0 .gz 0) = false ∧ WellFormed (.loop 0 (.g 0) 0) = true := ⟨rfl, rfl⟩

theorem test_refuses_field : WellFormed (.bfx 0 (.g 0) (.g 1) 63 1) = false ∧ WellFormed (.bfxs 0 (.g 0) (.g 1) 40 24) = false ∧
    WellFormed (.bfi 0 (.g 0) (.g 1) 63 0) = true := ⟨rfl, rfl, rfl⟩

theorem test_refuses_sizes : WellFormed (.lds 0 (.g 0) (.g 1) 0 (.g 2) .d) = false ∧
    WellFormed (.rsv 0 (.g 0) (.g 1) 0 (.g 2) .h) = false ∧ WellFormed (.rls 0 (.g 0) (.g 1) 0 (.g 2) .b) = false ∧
    WellFormed (.rlsx 0 (.g 1) 0 (.g 2) .h) = false ∧ WellFormed (.rsv 0 (.g 0) (.g 1) 0 (.g 2) .w) = true :=
  ⟨rfl, rfl, rfl, rfl, rfl⟩

theorem test_refuses_formats : WellFormed (.vcvt 0 (.g 0) (.g 1) .w .hf) = false ∧ WellFormed (.vcvt 0 (.g 0) (.g 1) .s .s) = false ∧
    WellFormed (.vf4blk 0 (.g 0) (.g 1) (.g 2) .s) = false ∧ WellFormed (.vcvt 0 (.g 0) (.g 1) .s .n4) = true :=
  ⟨rfl, rfl, rfl, rfl⟩

/-! ## Words that are refused (R80) -/

theorem test_refused_words : decodeWord 0x00000000 = .error .major ∧ decodeWord 0x040001FF = .error .minor ∧
    decodeWord 0x04001E00 = .error .code ∧ decodeWord 0x0401A000 = .error .code := ⟨rfl, rfl, rfl, rfl⟩

/-! ## Words written out from the tables of R83 to R105, one for each instruction: guard !p3, rd g4 or p5, ra g6, rb g2 -/

theorem test_decode_major_01_1 :
    decodeWord 0x0668C400 = .ok (.add 0b10011 (.g 4) (.g 6) (.g 2)) ∧
    decodeWord 0x0668C401 = .ok (.sub 0b10011 (.g 4) (.g 6) (.g 2)) ∧
    decodeWord 0x0668C402 = .ok (.and 0b10011 (.g 4) (.g 6) (.g 2)) ∧
    decodeWord 0x0668C403 = .ok (.or 0b10011 (.g 4) (.g 6) (.g 2)) ∧
    decodeWord 0x0668C404 = .ok (.xor 0b10011 (.g 4) (.g 6) (.g 2)) ∧
    decodeWord 0x0668C405 = .ok (.andn 0b10011 (.g 4) (.g 6) (.g 2)) ∧
    decodeWord 0x0668C406 = .ok (.orn 0b10011 (.g 4) (.g 6) (.g 2)) ∧
    decodeWord 0x0668C408 = .ok (.min 0b10011 (.g 4) (.g 6) (.g 2)) ∧
    decodeWord 0x0668C409 = .ok (.max 0b10011 (.g 4) (.g 6) (.g 2)) ∧
    decodeWord 0x0668C40A = .ok (.mins 0b10011 (.g 4) (.g 6) (.g 2)) ∧
    decodeWord 0x0668C40B = .ok (.maxs 0b10011 (.g 4) (.g 6) (.g 2)) ∧
    decodeWord 0x0668C410 = .ok (.shl 0b10011 (.g 4) (.g 6) (.g 2)) ∧
    decodeWord 0x0668C411 = .ok (.shr 0b10011 (.g 4) (.g 6) (.g 2)) ∧
    decodeWord 0x0668C412 = .ok (.sra 0b10011 (.g 4) (.g 6) (.g 2)) ∧
    decodeWord 0x0668C413 = .ok (.rol 0b10011 (.g 4) (.g 6) (.g 2)) ∧
    decodeWord 0x0668C414 = .ok (.ror 0b10011 (.g 4) (.g 6) (.g 2)) ∧
    decodeWord 0x0668C018 = .ok (.clz 0b10011 (.g 4) (.g 6)) ∧
    decodeWord 0x0668C019 = .ok (.ctz 0b10011 (.g 4) (.g 6)) ∧
    decodeWord 0x0668C01A = .ok (.popc 0b10011 (.g 4) (.g 6)) ∧
    decodeWord 0x0668C020 = .ok (.sextB 0b10011 (.g 4) (.g 6)) ∧
    decodeWord 0x0668C021 = .ok (.sextH 0b10011 (.g 4) (.g 6)) ∧
    decodeWord 0x0668C022 = .ok (.sextW 0b10011 (.g 4) (.g 6)) ∧
    decodeWord 0x0668C024 = .ok (.zextB 0b10011 (.g 4) (.g 6)) ∧
    decodeWord 0x0668C025 = .ok (.zextH 0b10011 (.g 4) (.g 6)) :=
  ⟨rfl, rfl, rfl, rfl, rfl, rfl, rfl, rfl, rfl, rfl, rfl, rfl, rfl, rfl, rfl, rfl, rfl, rfl, rfl, rfl, rfl, rfl, rfl, rfl⟩

theorem test_decode_major_01_2 :
    decodeWord 0x0668C026 = .ok (.zextW 0b10011 (.g 4) (.g 6)) ∧
    decodeWord 0x0668C030 = .ok (.mov 0b10011 (.g 4) (.g 6)) ∧
    decodeWord 0x0668C038 = .ok (.ldk 0b10011 (.g 4) (.g 6)) ∧
    decodeWord 0x0660C439 = .ok (.stk 0b10011 (.g 6) (.g 2)) ∧
    decodeWord 0x0668C50C = .ok (.sel 0b10011 (.g 4) (.g 6) (.g 2) 12) ∧
    decodeWord 0x066001F0 = .ok (.nop 0b10011) :=
  ⟨rfl, rfl, rfl, rfl, rfl, rfl⟩

theorem test_decode_major_02 :
    decodeWord 0x0A68D4E0 = .ok (.addK 0b10011 (.g 4) (.g 6) 0xA7) ∧
    decodeWord 0x0A68D4E1 = .ok (.subK 0b10011 (.g 4) (.g 6) 0xA7) ∧
    decodeWord 0x0A68D4E2 = .ok (.andK 0b10011 (.g 4) (.g 6) 0xA7) ∧
    decodeWord 0x0A68D4E3 = .ok (.orK 0b10011 (.g 4) (.g 6) 0xA7) ∧
    decodeWord 0x0A68D4E4 = .ok (.xorK 0b10011 (.g 4) (.g 6) 0xA7) ∧
    decodeWord 0x0A68D4E5 = .ok (.andnK 0b10011 (.g 4) (.g 6) 0xA7) ∧
    decodeWord 0x0A68D4E6 = .ok (.ornK 0b10011 (.g 4) (.g 6) 0xA7) ∧
    decodeWord 0x0A68D4E8 = .ok (.minK 0b10011 (.g 4) (.g 6) 0xA7) ∧
    decodeWord 0x0A68D4E9 = .ok (.maxK 0b10011 (.g 4) (.g 6) 0xA7) ∧
    decodeWord 0x0A68D4EA = .ok (.minsK 0b10011 (.g 4) (.g 6) 0xA7) ∧
    decodeWord 0x0A68D4EB = .ok (.maxsK 0b10011 (.g 4) (.g 6) 0xA7) ∧
    decodeWord 0x0A6814F0 = .ok (.movK 0b10011 (.g 4) 0xA7) ∧
    decodeWord 0x0A60D4F1 = .ok (.stkK 0b10011 (.g 6) 0xA7) :=
  ⟨rfl, rfl, rfl, rfl, rfl, rfl, rfl, rfl, rfl, rfl, rfl, rfl, rfl⟩

theorem test_decode_major_03 :
    decodeWord 0x0E78C400 = .ok (.cmpEq 0b10011 12 (.g 6) (.g 2)) ∧
    decodeWord 0x0E78C401 = .ok (.cmpNe 0b10011 12 (.g 6) (.g 2)) ∧
    decodeWord 0x0E78C402 = .ok (.cmpLt 0b10011 12 (.g 6) (.g 2)) ∧
    decodeWord 0x0E78C403 = .ok (.cmpGe 0b10011 12 (.g 6) (.g 2)) ∧
    decodeWord 0x0E78C404 = .ok (.cmpLe 0b10011 12 (.g 6) (.g 2)) ∧
    decodeWord 0x0E78C405 = .ok (.cmpGt 0b10011 12 (.g 6) (.g 2)) ∧
    decodeWord 0x0E78C406 = .ok (.cmpLtu 0b10011 12 (.g 6) (.g 2)) ∧
    decodeWord 0x0E78C407 = .ok (.cmpGeu 0b10011 12 (.g 6) (.g 2)) ∧
    decodeWord 0x0E78C408 = .ok (.cmpLeu 0b10011 12 (.g 6) (.g 2)) ∧
    decodeWord 0x0E78C409 = .ok (.cmpGtu 0b10011 12 (.g 6) (.g 2)) ∧
    decodeWord 0x0E78C40A = .ok (.tst 0b10011 12 (.g 6) (.g 2)) ∧
    decodeWord 0x0E78D4F0 = .ok (.cmpEqK 0b10011 12 (.g 6) 0xA7) ∧
    decodeWord 0x0E78D4F1 = .ok (.cmpNeK 0b10011 12 (.g 6) 0xA7) ∧
    decodeWord 0x0E78D4F2 = .ok (.cmpLtK 0b10011 12 (.g 6) 0xA7) ∧
    decodeWord 0x0E78D4F3 = .ok (.cmpGeK 0b10011 12 (.g 6) 0xA7) ∧
    decodeWord 0x0E78D4F4 = .ok (.cmpLeK 0b10011 12 (.g 6) 0xA7) ∧
    decodeWord 0x0E78D4F5 = .ok (.cmpGtK 0b10011 12 (.g 6) 0xA7) ∧
    decodeWord 0x0E78D4F6 = .ok (.cmpLtuK 0b10011 12 (.g 6) 0xA7) ∧
    decodeWord 0x0E78D4F7 = .ok (.cmpGeuK 0b10011 12 (.g 6) 0xA7) ∧
    decodeWord 0x0E78D4F8 = .ok (.cmpLeuK 0b10011 12 (.g 6) 0xA7) ∧
    decodeWord 0x0E78D4F9 = .ok (.cmpGtuK 0b10011 12 (.g 6) 0xA7) ∧
    decodeWord 0x0E78D4FA = .ok (.tstK 0b10011 12 (.g 6) 0xA7) :=
  ⟨rfl, rfl, rfl, rfl, rfl, rfl, rfl, rfl, rfl, rfl, rfl, rfl, rfl, rfl, rfl, rfl, rfl, rfl, rfl, rfl, rfl, rfl⟩

theorem test_decode_major_04 :
    decodeWord 0x126AD200 = .ok (.pand 0b10011 5 6 9) ∧
    decodeWord 0x126AD201 = .ok (.por 0b10011 5 6 9) ∧
    decodeWord 0x126AD202 = .ok (.pxor 0b10011 5 6 9) ∧
    decodeWord 0x126AC003 = .ok (.pnot 0b10011 5 6) ∧
    decodeWord 0x126AC004 = .ok (.pmov 0b10011 5 6) :=
  ⟨rfl, rfl, rfl, rfl, rfl⟩

theorem test_decode_major_05 :
    decodeWord 0x1668C553 = .ok (.bfx 0b10011 (.g 4) (.g 6) 0x2A 0x13) ∧
    decodeWord 0x1668CD53 = .ok (.bfxs 0b10011 (.g 4) (.g 6) 0x2A 0x13) ∧
    decodeWord 0x1668D553 = .ok (.bfi 0b10011 (.g 4) (.g 6) 0x2A 0x13) ∧
    decodeWord 0x1668D82A = .ok (.shlImm 0b10011 (.g 4) (.g 6) 0x2A) ∧
    decodeWord 0x1668D92A = .ok (.shrImm 0b10011 (.g 4) (.g 6) 0x2A) ∧
    decodeWord 0x1668DA2A = .ok (.sraImm 0b10011 (.g 4) (.g 6) 0x2A) ∧
    decodeWord 0x1668DB2A = .ok (.rolImm 0b10011 (.g 4) (.g 6) 0x2A) ∧
    decodeWord 0x1668DC2A = .ok (.rorImm 0b10011 (.g 4) (.g 6) 0x2A) :=
  ⟨rfl, rfl, rfl, rfl, rfl, rfl, rfl, rfl⟩

theorem test_decode_major_06 :
    decodeWord 0x1A68C400 = .ok (.mul 0b10011 (.g 4) (.g 6) (.g 2)) ∧
    decodeWord 0x1A68C401 = .ok (.mulh 0b10011 (.g 4) (.g 6) (.g 2)) ∧
    decodeWord 0x1A68C402 = .ok (.mulhs 0b10011 (.g 4) (.g 6) (.g 2)) ∧
    decodeWord 0x1A68C403 = .ok (.div 0b10011 (.g 4) (.g 6) (.g 2)) ∧
    decodeWord 0x1A68C404 = .ok (.divs 0b10011 (.g 4) (.g 6) (.g 2)) ∧
    decodeWord 0x1A68C405 = .ok (.rem 0b10011 (.g 4) (.g 6) (.g 2)) ∧
    decodeWord 0x1A68C406 = .ok (.rems 0b10011 (.g 4) (.g 6) (.g 2)) :=
  ⟨rfl, rfl, rfl, rfl, rfl, rfl, rfl⟩

theorem test_decode_major_08 :
    decodeWord 0x22755555 = .ok (.br 0b10011 0x155555) :=
  rfl

theorem test_decode_major_09 :
    decodeWord 0x26755555 = .ok (.call 0b10011 0x155555) :=
  rfl

theorem test_decode_major_0a :
    decodeWord 0x2A60C000 = .ok (.jmp 0b10011 (.g 6)) ∧
    decodeWord 0x2A680000 = .ok (.ret 0b10011) ∧
    decodeWord 0x2A70CAAA = .ok (.loop 0b10011 (.g 6) 0xAAA) :=
  ⟨rfl, rfl, rfl⟩

theorem test_decode_major_0c :
    decodeWord 0x3268D69D = .ok (.ld 0b10011 (.g 4) (.g 6) 5 0xA7 .h) :=
  rfl

theorem test_decode_major_0d :
    decodeWord 0x3668D69D = .ok (.st 0b10011 (.g 4) (.g 6) 5 0xA7 .h) :=
  rfl

theorem test_decode_major_0e :
    decodeWord 0x3A68D481 = .ok (.lds 0b10011 (.g 4) (.g 6) 5 (.g 2) .h) ∧
    decodeWord 0x3A68D485 = .ok (.ldRr 0b10011 (.g 4) (.g 6) 5 (.g 2) .h) ∧
    decodeWord 0x3A68D489 = .ok (.stRr 0b10011 (.g 4) (.g 6) 5 (.g 2) .h) ∧
    decodeWord 0x3A68D48F = .ok (.ldp 0b10011 (.g 4) (.g 6) 5 (.g 2)) ∧
    decodeWord 0x3A68D493 = .ok (.stp 0b10011 (.g 4) (.g 6) 5 (.g 2)) ∧
    decodeWord 0x3A68D497 = .ok (.rsv 0b10011 (.g 4) (.g 6) 5 (.g 2) .d) ∧
    decodeWord 0x3A68D49B = .ok (.rls 0b10011 (.g 4) (.g 6) 5 (.g 2) .d) ∧
    decodeWord 0x3A60D49F = .ok (.rlsx 0b10011 (.g 6) 5 (.g 2) .d) :=
  ⟨rfl, rfl, rfl, rfl, rfl, rfl, rfl, rfl⟩

theorem test_decode_major_0f :
    decodeWord 0x3E68D481 = .ok (.logAdd 0b10011 (.g 4) (.g 6) 5 (.g 2) .h) ∧
    decodeWord 0x3E68D486 = .ok (.logFadd 0b10011 (.g 4) (.g 6) 5 (.g 2)) ∧
    decodeWord 0x3E68D489 = .ok (.logMin 0b10011 (.g 4) (.g 6) 5 (.g 2) .h) ∧
    decodeWord 0x3E68D48D = .ok (.logMax 0b10011 (.g 4) (.g 6) 5 (.g 2) .h) ∧
    decodeWord 0x3E68D491 = .ok (.logOr 0b10011 (.g 4) (.g 6) 5 (.g 2) .h) :=
  ⟨rfl, rfl, rfl, rfl, rfl⟩

theorem test_decode_major_10 :
    decodeWord 0x42600C00 = .ok (.fenceAcq 0b10011 .die) ∧
    decodeWord 0x42600C01 = .ok (.fenceRel 0b10011 .die) ∧
    decodeWord 0x42600C02 = .ok (.fenceFull 0b10011 .die) ∧
    decodeWord 0x4268CD44 = .ok (.ldAcqW 0b10011 (.g 4) (.g 6) .die 5) ∧
    decodeWord 0x4268CD45 = .ok (.ldAcqD 0b10011 (.g 4) (.g 6) .die 5) ∧
    decodeWord 0x4268CD46 = .ok (.stRelW 0b10011 (.g 4) (.g 6) .die 5) ∧
    decodeWord 0x4268CD47 = .ok (.stRelD 0b10011 (.g 4) (.g 6) .die 5) ∧
    decodeWord 0x4260CC88 = .ok (.seal 0b10011 (.g 6) .die (.g 2)) ∧
    decodeWord 0x4268CC09 = .ok (.unseal 0b10011 (.g 4) (.g 6) .die) ∧
    decodeWord 0x4260C14C = .ok (.pref 0b10011 (.g 6) 5) ∧
    decodeWord 0x4260C14D = .ok (.cwb 0b10011 (.g 6) 5) ∧
    decodeWord 0x4260C14E = .ok (.cdrop 0b10011 (.g 6) 5) ∧
    decodeWord 0x4260C08F = .ok (.scbWait 0b10011 (.g 6) (.g 2)) :=
  ⟨rfl, rfl, rfl, rfl, rfl, rfl, rfl, rfl, rfl, rfl, rfl, rfl, rfl⟩

theorem test_decode_major_11 :
    decodeWord 0x466CC000 = .ok (.segLd 0b10011 6 (.g 6)) ∧
    decodeWord 0x466CC081 = .ok (.segNarrow 0b10011 6 (.g 6) (.g 2)) ∧
    decodeWord 0x466CCC02 = .ok (.segGive 0b10011 6 (.g 6) .die) ∧
    decodeWord 0x466CC003 = .ok (.segTake 0b10011 6 (.g 6)) :=
  ⟨rfl, rfl, rfl, rfl⟩

theorem test_decode_major_12 :
    decodeWord 0x4A68C405 = .ok (.ldx 0b10011 (.g 4) (.g 6) (.g 2) .scratch .h) ∧
    decodeWord 0x4A68C415 = .ok (.stx 0b10011 (.g 4) (.g 6) (.g 2) .scratch .h) ∧
    decodeWord 0x4A68C424 = .ok (.stxN4 0b10011 (.g 4) (.g 6) (.g 2) .scratch) :=
  ⟨rfl, rfl, rfl⟩

theorem test_decode_major_14 :
    decodeWord 0x5260CC80 = .ok (.objInit 0b10011 (.g 6) .die (.g 2)) ∧
    decodeWord 0x5260CC01 = .ok (.objFree 0b10011 (.g 6) .die) ∧
    decodeWord 0x5268CC02 = .ok (.objRead 0b10011 (.g 4) (.g 6) .die) ∧
    decodeWord 0x5268CC88 = .ok (.cntAdd 0b10011 (.g 4) (.g 6) .die (.g 2)) ∧
    decodeWord 0x5268CC89 = .ok (.cntSwap 0b10011 (.g 4) (.g 6) .die (.g 2)) ∧
    decodeWord 0x5268CC8A = .ok (.cntCas 0b10011 (.g 4) (.g 6) .die (.g 2)) ∧
    decodeWord 0x5268CC8B = .ok (.cntWaitge 0b10011 (.g 4) (.g 6) .die (.g 2)) ∧
    decodeWord 0x5268CC8C = .ok (.cntWaiteq 0b10011 (.g 4) (.g 6) .die (.g 2)) ∧
    decodeWord 0x5268CC10 = .ok (.barArrive 0b10011 (.g 4) (.g 6) .die) ∧
    decodeWord 0x5260CC91 = .ok (.barWait 0b10011 (.g 6) .die (.g 2)) ∧
    decodeWord 0x5268CC12 = .ok (.barSync 0b10011 (.g 4) (.g 6) .die) ∧
    decodeWord 0x5268CC18 = .ok (.tktAcq 0b10011 (.g 4) (.g 6) .die) ∧
    decodeWord 0x526ACC19 = .ok (.tktTry 0b10011 5 (.g 6) .die) ∧
    decodeWord 0x5260CC1A = .ok (.tktRel 0b10011 (.g 6) .die) ∧
    decodeWord 0x5260CCA0 = .ok (.cndWait 0b10011 (.g 6) .die (.g 2)) ∧
    decodeWord 0x5260CC21 = .ok (.cndSig 0b10011 (.g 6) .die) ∧
    decodeWord 0x5260CC22 = .ok (.cndBcast 0b10011 (.g 6) .die) :=
  ⟨rfl, rfl, rfl, rfl, rfl, rfl, rfl, rfl, rfl, rfl, rfl, rfl, rfl, rfl, rfl, rfl, rfl⟩

theorem test_decode_major_15 :
    decodeWord 0x5660CC80 = .ok (.qPut 0b10011 (.g 6) .die (.g 2)) ∧
    decodeWord 0x5668CC81 = .ok (.qGet 0b10011 (.g 4) (.g 6) .die (.g 2)) ∧
    decodeWord 0x566ACC82 = .ok (.qTryput 0b10011 5 (.g 6) .die (.g 2)) ∧
    decodeWord 0x566ACC83 = .ok (.qTryget 0b10011 5 (.g 6) .die (.g 2)) :=
  ⟨rfl, rfl, rfl, rfl⟩

theorem test_decode_major_18 :
    decodeWord 0x6268C401 = .ok (.vadd 0b10011 (.g 4) (.g 6) (.g 2) .h) ∧
    decodeWord 0x6268C405 = .ok (.vsub 0b10011 (.g 4) (.g 6) (.g 2) .h) ∧
    decodeWord 0x6268C409 = .ok (.vadds 0b10011 (.g 4) (.g 6) (.g 2) .h) ∧
    decodeWord 0x6268C40D = .ok (.vsubs 0b10011 (.g 4) (.g 6) (.g 2) .h) ∧
    decodeWord 0x6268C411 = .ok (.vmul 0b10011 (.g 4) (.g 6) (.g 2) .h) ∧
    decodeWord 0x6268C415 = .ok (.vmulh 0b10011 (.g 4) (.g 6) (.g 2) .h) ∧
    decodeWord 0x6268C419 = .ok (.vmac 0b10011 (.g 4) (.g 6) (.g 2) .h) ∧
    decodeWord 0x6268C41C = .ok (.vdot4 0b10011 (.g 4) (.g 6) (.g 2)) ∧
    decodeWord 0x6268C421 = .ok (.vmin 0b10011 (.g 4) (.g 6) (.g 2) .h) ∧
    decodeWord 0x6268C425 = .ok (.vmax 0b10011 (.g 4) (.g 6) (.g 2) .h) ∧
    decodeWord 0x6268C029 = .ok (.vabs 0b10011 (.g 4) (.g 6) .h) ∧
    decodeWord 0x6268C42D = .ok (.vavg 0b10011 (.g 4) (.g 6) (.g 2) .h) ∧
    decodeWord 0x6268C431 = .ok (.vshl 0b10011 (.g 4) (.g 6) (.g 2) .h) ∧
    decodeWord 0x6268C435 = .ok (.vshr 0b10011 (.g 4) (.g 6) (.g 2) .h) ∧
    decodeWord 0x6268C439 = .ok (.vsra 0b10011 (.g 4) (.g 6) (.g 2) .h) ∧
    decodeWord 0x6268C441 = .ok (.vcmpEq 0b10011 (.g 4) (.g 6) (.g 2) .h) ∧
    decodeWord 0x6268C445 = .ok (.vcmpNe 0b10011 (.g 4) (.g 6) (.g 2) .h) ∧
    decodeWord 0x6268C449 = .ok (.vcmpLt 0b10011 (.g 4) (.g 6) (.g 2) .h) ∧
    decodeWord 0x6268C44D = .ok (.vcmpGe 0b10011 (.g 4) (.g 6) (.g 2) .h) ∧
    decodeWord 0x6268C451 = .ok (.vcmpLtu 0b10011 (.g 4) (.g 6) (.g 2) .h) ∧
    decodeWord 0x6268C455 = .ok (.vcmpGeu 0b10011 (.g 4) (.g 6) (.g 2) .h) ∧
    decodeWord 0x6268C461 = .ok (.vsel 0b10011 (.g 4) (.g 6) (.g 2) .h) :=
  ⟨rfl, rfl, rfl, rfl, rfl, rfl, rfl, rfl, rfl, rfl, rfl, rfl, rfl, rfl, rfl, rfl, rfl, rfl, rfl, rfl, rfl, rfl⟩

theorem test_decode_major_19 :
    decodeWord 0x6668C401 = .ok (.vfadd 0b10011 (.g 4) (.g 6) (.g 2) .bh) ∧
    decodeWord 0x6668C405 = .ok (.vfmul 0b10011 (.g 4) (.g 6) (.g 2) .bh) ∧
    decodeWord 0x6668C409 = .ok (.vfma 0b10011 (.g 4) (.g 6) (.g 2) .bh) ∧
    decodeWord 0x6668C40D = .ok (.vfmin 0b10011 (.g 4) (.g 6) (.g 2) .bh) ∧
    decodeWord 0x6668C411 = .ok (.vfmax 0b10011 (.g 4) (.g 6) (.g 2) .bh) ∧
    decodeWord 0x6668C421 = .ok (.vfcmpEq 0b10011 (.g 4) (.g 6) (.g 2) .bh) ∧
    decodeWord 0x6668C425 = .ok (.vfcmpLt 0b10011 (.g 4) (.g 6) (.g 2) .bh) ∧
    decodeWord 0x6668C429 = .ok (.vfcmpLe 0b10011 (.g 4) (.g 6) (.g 2) .bh) ∧
    decodeWord 0x6668C42D = .ok (.vfcmpUn 0b10011 (.g 4) (.g 6) (.g 2) .bh) :=
  ⟨rfl, rfl, rfl, rfl, rfl, rfl, rfl, rfl, rfl⟩

theorem test_decode_major_1a :
    decodeWord 0x6A68C401 = .ok (.vshuf 0b10011 (.g 4) (.g 6) (.g 2) .h) ∧
    decodeWord 0x6A68C405 = .ok (.vbcast 0b10011 (.g 4) (.g 6) (.g 2) .h) ∧
    decodeWord 0x6A68C009 = .ok (.vrev 0b10011 (.g 4) (.g 6) .h) ∧
    decodeWord 0x6A68C40D = .ok (.vpack 0b10011 (.g 4) (.g 6) (.g 2) .h) ∧
    decodeWord 0x6A68C011 = .ok (.vunpk 0b10011 (.g 4) (.g 6) .h) :=
  ⟨rfl, rfl, rfl, rfl, rfl⟩

theorem test_decode_major_1b :
    decodeWord 0x6E68C01D = .ok (.vcvt 0b10011 (.g 4) (.g 6) .hf .s) ∧
    decodeWord 0x6E68C474 = .ok (.vf4blk 0b10011 (.g 4) (.g 6) (.g 2) .bh) ∧
    decodeWord 0x6E68C082 = .ok (.vsum 0b10011 (.g 4) (.g 6) .w) :=
  ⟨rfl, rfl, rfl⟩

theorem test_decode_major_1c :
    decodeWord 0x7268C400 = .ok (.fdiv 0b10011 (.g 4) (.g 6) (.g 2)) ∧
    decodeWord 0x7268C001 = .ok (.fsqrt 0b10011 (.g 4) (.g 6)) ∧
    decodeWord 0x7268C002 = .ok (.frcp 0b10011 (.g 4) (.g 6)) ∧
    decodeWord 0x7268C003 = .ok (.frsq 0b10011 (.g 4) (.g 6)) ∧
    decodeWord 0x7268C004 = .ok (.fexp2 0b10011 (.g 4) (.g 6)) ∧
    decodeWord 0x7268C005 = .ok (.flog2 0b10011 (.g 4) (.g 6)) ∧
    decodeWord 0x7268C006 = .ok (.fsin 0b10011 (.g 4) (.g 6)) ∧
    decodeWord 0x7268C007 = .ok (.fcos 0b10011 (.g 4) (.g 6)) ∧
    decodeWord 0x7268C008 = .ok (.ftanh 0b10011 (.g 4) (.g 6)) :=
  ⟨rfl, rfl, rfl, rfl, rfl, rfl, rfl, rfl, rfl⟩

theorem test_decode_major_1d :
    decodeWord 0x7668C400 = .ok (.fadd 0b10011 (.g 4) (.g 6) (.g 2)) ∧
    decodeWord 0x7668C401 = .ok (.fsub 0b10011 (.g 4) (.g 6) (.g 2)) ∧
    decodeWord 0x7668C402 = .ok (.fmul 0b10011 (.g 4) (.g 6) (.g 2)) ∧
    decodeWord 0x7668C403 = .ok (.fma 0b10011 (.g 4) (.g 6) (.g 2)) ∧
    decodeWord 0x7668C404 = .ok (.fmin 0b10011 (.g 4) (.g 6) (.g 2)) ∧
    decodeWord 0x7668C405 = .ok (.fmax 0b10011 (.g 4) (.g 6) (.g 2)) ∧
    decodeWord 0x7668C006 = .ok (.fneg 0b10011 (.g 4) (.g 6)) ∧
    decodeWord 0x7668C007 = .ok (.fabs 0b10011 (.g 4) (.g 6)) ∧
    decodeWord 0x766AC410 = .ok (.fcmpEq 0b10011 5 (.g 6) (.g 2)) ∧
    decodeWord 0x766AC411 = .ok (.fcmpLt 0b10011 5 (.g 6) (.g 2)) ∧
    decodeWord 0x766AC412 = .ok (.fcmpLe 0b10011 5 (.g 6) (.g 2)) ∧
    decodeWord 0x766AC413 = .ok (.fcmpUn 0b10011 5 (.g 6) (.g 2)) ∧
    decodeWord 0x7668C020 = .ok (.fcvtSL 0b10011 (.g 4) (.g 6)) ∧
    decodeWord 0x7668C021 = .ok (.fcvtLS 0b10011 (.g 4) (.g 6)) ∧
    decodeWord 0x7668C022 = .ok (.fcvtSLu 0b10011 (.g 4) (.g 6)) ∧
    decodeWord 0x7668C023 = .ok (.fcvtLuS 0b10011 (.g 4) (.g 6)) ∧
    decodeWord 0x7668C024 = .ok (.fcvtSHf 0b10011 (.g 4) (.g 6)) ∧
    decodeWord 0x7668C025 = .ok (.fcvtHfS 0b10011 (.g 4) (.g 6)) ∧
    decodeWord 0x7668C026 = .ok (.fcvtSBh 0b10011 (.g 4) (.g 6)) ∧
    decodeWord 0x7668C027 = .ok (.fcvtBhS 0b10011 (.g 4) (.g 6)) :=
  ⟨rfl, rfl, rfl, rfl, rfl, rfl, rfl, rfl, rfl, rfl, rfl, rfl, rfl, rfl, rfl, rfl, rfl, rfl, rfl, rfl⟩

theorem test_decode_major_1e :
    decodeWord 0x7A68C400 = .ok (.qmake 0b10011 (.g 4) (.g 6) (.g 2)) ∧
    decodeWord 0x7A68C001 = .ok (.qnum 0b10011 (.g 4) (.g 6)) ∧
    decodeWord 0x7A68C002 = .ok (.qden 0b10011 (.g 4) (.g 6)) ∧
    decodeWord 0x7A68C403 = .ok (.qmed 0b10011 (.g 4) (.g 6) (.g 2)) ∧
    decodeWord 0x7A68C404 = .ok (.qcf 0b10011 (.g 4) (.g 6) (.g 2)) ∧
    decodeWord 0x7A68C405 = .ok (.qlim 0b10011 (.g 4) (.g 6) (.g 2)) ∧
    decodeWord 0x7A68C006 = .ok (.qcanon 0b10011 (.g 4) (.g 6)) ∧
    decodeWord 0x7A68C007 = .ok (.qcvtF 0b10011 (.g 4) (.g 6)) ∧
    decodeWord 0x7A68C008 = .ok (.qcvtI 0b10011 (.g 4) (.g 6)) ∧
    decodeWord 0x7A68C009 = .ok (.qclass 0b10011 (.g 4) (.g 6)) ∧
    decodeWord 0x7A68C40A = .ok (.gcd 0b10011 (.g 4) (.g 6) (.g 2)) ∧
    decodeWord 0x7A60C00B = .ok (.qsetm 0b10011 (.g 6)) :=
  ⟨rfl, rfl, rfl, rfl, rfl, rfl, rfl, rfl, rfl, rfl, rfl, rfl⟩

theorem test_decode_major_20 :
    decodeWord 0x8268C000 = .ok (.issueMx 0b10011 (.g 4) (.g 6)) ∧
    decodeWord 0x8268C100 = .ok (.issueMxSync 0b10011 (.g 4) (.g 6)) ∧
    decodeWord 0x8268C001 = .ok (.issueQd 0b10011 (.g 4) (.g 6)) ∧
    decodeWord 0x8268C101 = .ok (.issueQdSync 0b10011 (.g 4) (.g 6)) ∧
    decodeWord 0x8268C002 = .ok (.issueCp 0b10011 (.g 4) (.g 6)) ∧
    decodeWord 0x8268C102 = .ok (.issueCpSync 0b10011 (.g 4) (.g 6)) ∧
    decodeWord 0x8268C003 = .ok (.issueCl 0b10011 (.g 4) (.g 6)) ∧
    decodeWord 0x8268C103 = .ok (.issueClSync 0b10011 (.g 4) (.g 6)) ∧
    decodeWord 0x8260C010 = .ok (.waitj 0b10011 (.g 6)) ∧
    decodeWord 0x826AC011 = .ok (.pollj 0b10011 5 (.g 6)) ∧
    decodeWord 0x8260C012 = .ok (.jdrop 0b10011 (.g 6)) :=
  ⟨rfl, rfl, rfl, rfl, rfl, rfl, rfl, rfl, rfl, rfl, rfl⟩

theorem test_decode_major_21 :
    decodeWord 0x8660C000 = .ok (.fmtLd 0b10011 (.g 6)) :=
  rfl

theorem test_decode_major_24 :
    decodeWord 0x9268C400 = .ok (.spawn 0b10011 (.g 4) (.g 6) (.g 2)) ∧
    decodeWord 0x9260C001 = .ok (.migr 0b10011 (.g 6)) ∧
    decodeWord 0x92600002 = .ok (.exit 0b10011) ∧
    decodeWord 0x92600003 = .ok (.yield 0b10011) ∧
    decodeWord 0x9268C404 = .ok (.lnch 0b10011 (.g 4) (.g 6) (.g 2)) :=
  ⟨rfl, rfl, rfl, rfl, rfl⟩

theorem test_decode_major_25 :
    decodeWord 0x96600000 = .ok (.gang2 0b10011) ∧
    decodeWord 0x96600001 = .ok (.gang4 0b10011) ∧
    decodeWord 0x96600002 = .ok (.gang8 0b10011) ∧
    decodeWord 0x96600003 = .ok (.ungang 0b10011) :=
  ⟨rfl, rfl, rfl, rfl⟩

theorem test_decode_major_26 :
    decodeWord 0x9A60C400 = .ok (.amSend 0b10011 (.g 6) (.g 2)) ∧
    decodeWord 0x9A60C401 = .ok (.gstore 0b10011 (.g 6) (.g 2)) ∧
    decodeWord 0x9A60C002 = .ok (.probeStart 0b10011 (.g 6)) :=
  ⟨rfl, rfl, rfl⟩

theorem test_decode_major_28 :
    decodeWord 0xA268C000 = .ok (.nAlloc 0b10011 (.g 4) (.g 6)) ∧
    decodeWord 0xA260C001 = .ok (.nFree 0b10011 (.g 6)) ∧
    decodeWord 0xA260C402 = .ok (.nLink 0b10011 (.g 6) (.g 2)) ∧
    decodeWord 0xA268C403 = .ok (.nRelink 0b10011 (.g 4) (.g 6) (.g 2)) ∧
    decodeWord 0xA268C004 = .ok (.nRead 0b10011 (.g 4) (.g 6)) ∧
    decodeWord 0xA2680005 = .ok (.pairPop 0b10011 (.g 4)) ∧
    decodeWord 0xA260C406 = .ok (.pairPush 0b10011 (.g 6) (.g 2)) ∧
    decodeWord 0xA260C007 = .ok (.ruleLd 0b10011 (.g 6)) ∧
    decodeWord 0xA260C008 = .ok (.ruleGo 0b10011 (.g 6)) :=
  ⟨rfl, rfl, rfl, rfl, rfl, rfl, rfl, rfl, rfl⟩

theorem test_decode_major_30 :
    decodeWord 0xC2608020 = .ok (.srd 0b10011 (.g 4) .migthr) ∧
    decodeWord 0xC2688020 = .ok (.swr 0b10011 (.g 4) .migthr) ∧
    decodeWord 0xC270014E = .ok (.trap 0b10011 0xA7) ∧
    decodeWord 0xC2780000 = .ok (.eret 0b10011) :=
  ⟨rfl, rfl, rfl, rfl⟩

theorem test_decode_major_31 :
    decodeWord 0xC6600000 = .ok (.brk 0b10011) ∧
    decodeWord 0xC660C401 = .ok (.watch 0b10011 (.g 6) (.g 2)) ∧
    decodeWord 0xC660C002 = .ok (.chorusMark 0b10011 (.g 6)) ∧
    decodeWord 0xC660C003 = .ok (.traceMark 0b10011 (.g 6)) :=
  ⟨rfl, rfl, rfl, rfl⟩

/-! ## States for the tests -/

/-- A worker thread in slot 2 of core 0 that is about to issue a word, its registers zero: the state of `placeWord`. -/
def w0 : State := (State.reset.placeWord 0).acting 32768 0 false

/-- The same with some registers set. -/
def wg (l : List (Fin 10 × Word)) : State := l.foldl (fun s x => s.put (.g x.1) x.2) w0

/-- Every router and port admits every tenant after reset. -/
theorem w0_admits {s : State} (hd : s.dies = []) (hx : s.xdies = []) (hp : s.ports = []) {n : Nat} (hn : n = 0) : s.admits n := by
  subst hn
  constructor
  · intro r
    simp only [State.routerMap, State.die, State.xdie, hd, hx]
    split
    all_goals
      show member (BitVec.allOnes 256) 0 = true
      decide +kernel
  · intro p
    simp only [State.port, hp]
    show member (BitVec.allOnes 256) 0 = true
    decide +kernel

/-- A line of the cluster's L1 at an address of ASID 1, all of it valid and zero. -/
def lineAt (va : Nat) : L1Line := { freshLine 1 (va / 128) with valid := BitVec.allOnes 128 }

/-- The state with lines in the cluster's L1. -/
def withL1 (s : State) (ls : List L1Line) : State := s.updCluster 0 fun c => { c with l1 := ls }

/-- Two threads in a gang of 2 in slot 2 of cores 0 and 1; the first leads and acts. -/
def gang : State :=
  let psw (l : Nat) : Word := putField (putField (BitVec.ofNat 64 (1 + 2 * 2 ^ 41)) 38 2 1) 40 1 l
  let t := w0.thread 32768
  let s := (w0.setThread 32768 { t with ctx := { t.ctx with psw := psw 1 } }).setThread 32769
    { t with core := 1, ctx := { t.ctx with psw := psw 0 } }
  (s.updCore 1 fun c => { c with slots := c.slots.set 2 (.held 32769), entries := [32769] }).acting 32768 0 false

/-! ## What the hypotheses of the obligations are met by -/

theorem w0_issues : w0.Issues 0 := by
  unfold State.Issues State.Ready
  decide +kernel

theorem met_GuardedOffWordOnlyAdvances :
    (Instr.add 0b10000 (.g 1) (.g 2) (.g 3)).guard = some 0b10000 ∧ guardHolds w0 0b10000 = false ∧ w0.Ready ∧
    (Instr.add 0b10000 (.g 1) (.g 2) (.g 3)).leads = false ∧
    (Instr.br 0b10000 4).guard = some 0b10000 ∧ (Instr.br 0b10000 4).leads = true ∧ guardHolds gang 0b10000 = false ∧
    gang.Ready ∧ gang.followers = [32769] ∧ gang.followers.Nodup ∧
    (Instr.fma 0b10000 (.g 1) (.g 2) (.g 3)).guard = some 0b10000 ∧ pswRq w0.me.ctx.psw = false := by
  unfold State.Ready
  refine ⟨rfl, ?_, ?_, rfl, rfl, rfl, ?_⟩ <;> decide

theorem met_IntegerResults : w0.Issues 0 ∧ w0.plain (.g 1) = true ∧ w0.plain .gz = true ∧ w0.plainDst (.g 9) = true ∧
    w0.plainDst .gz = true := ⟨w0_issues, by decide⟩

theorem met_CountAndExtendResults : w0.Issues 0 ∧ w0.plain (.g 1) = true ∧ w0.plainDst (.g 1) = true := ⟨w0_issues, by decide⟩

theorem w0_kSound (k : BitVec 8) : w0.kSound k := ⟨firstPoison_nil rfl _ _, rfl⟩

theorem met_ConstantWindowResults : w0.Issues 0 ∧ w0.plainK .k 7 ∧ w0.kSound 7 ∧ w0.plainDst (.g 1) = true ∧
    w0.plain (.g 1) = true ∧ (∀ n : Nat, n < 256 → (w0.core w0.me.core).storeWaits (8 * n) 8 = false) ∧
    (∀ n : Nat, n < 256 → w0.mem.sound (tcmKey w0.me.core (8 * n)) 8) :=
  ⟨w0_issues, w0_kSound 7, w0_kSound 7, by decide, by decide, fun _ _ => rfl, fun _ _ => ⟨firstPoison_nil rfl _ _, rfl⟩⟩

theorem met_BitFieldResults : w0.Issues 0 ∧ w0.plain (.g 1) = true ∧ w0.plainDst .gq = true ∧ (63 : BitVec 6).toNat + (0 : BitVec 5).toNat + 1 ≤ 64 :=
  ⟨w0_issues, by decide⟩

theorem met_MultiplyDivideResults : (wg [(1, 0x8000000000000000), (2, 0xFFFFFFFFFFFFFFFF)]).Issues 0 ∧
    (let s := wg [(1, 0x8000000000000000), (2, 0xFFFFFFFFFFFFFFFF)]
     s.val (.g 1) = 0x8000000000000000 ∧ s.val (.g 2) = 0xFFFFFFFFFFFFFFFF ∧ s.val (.g 3) = 0 ∧ s.val (.g 2) ≠ 0 ∧
      ¬(s.val (.g 2) = 0x8000000000000000 ∧ s.val (.g 2) = 0xFFFFFFFFFFFFFFFF)) := by
  unfold State.Issues State.Ready
  decide +kernel

theorem met_CompareResults : w0.Issues 0 ∧ w0.plain (.g 1) = true ∧ w0.plainK .k 255 ∧ w0.kSound 255 :=
  ⟨w0_issues, by decide, w0_kSound 255, w0_kSound 255⟩

theorem met_PredicateResults : w0.Issues 0 := w0_issues

theorem met_ControlFlowResults :
    let s := wg [(1, 4), (2, 6), (3, 1)]
    let r := wg [(7, 2)]
    s.Issues 0 ∧ r.Issues 0 ∧ s.me.inGang = false ∧ r.me.inGang = false ∧ s.val (.g 1) % 4 = 0 ∧ s.val (.g 2) % 4 ≠ 0 ∧
      s.val (.g 7) % 4 = 0 ∧ r.val (.g 7) % 4 ≠ 0 ∧ s.val (.g 3) = 1 ∧ s.val (.g 1) ≠ 1 := by
  unfold State.Issues State.Ready
  decide +kernel

theorem met_GangFollowsLeader : gang.Issues 0 ∧ gang.followers = [32769] ∧ gang.followers.Nodup ∧
    gang.breakpoint (gang.servedTask gang.ctl.acting) gang.me.ctx.pc.toNat = false ∧
    gang.plain (.g 1) = true ∧ gang.val (.g 1) % 4 = 0 ∧ gang.val (.g 7) % 4 = 0 ∧ gang.val (.g 1) ≠ 1 ∧
    (gang.put (.g 1) 1).val (.g 1) = 1 := by
  refine ⟨?_, by decide, by decide, rfl, by decide, by decide, by decide, by decide, by decide⟩
  unfold State.Issues State.Ready
  decide +kernel

theorem met_LocalLoadResults :
    let s := wg [(1, 0x6FF8), (2, 0x3FF0)]
    s.Issues 0 ∧ s.kSound 7 ∧ (s.valK (.g 1) 7 + s.kEntry s.me.core 7).toNat = 0x6FF8 ∧
      s.segCheck (s.seg 3) 0x6FF8 8 .r 8 = none ∧ s.localClear (s.seg 3) 0x6FF8 8 ∧ (s.val (.g 2) + s.val (.g 0)).toNat = 0x3FF0 ∧
      s.segCheck (s.seg 2) 0x3FF0 16 .r 16 = none ∧ s.localClear (s.seg 2) 0x3FF0 16 := by
  unfold State.Issues State.Ready State.localClear State.kSound Memory.sound
  decide +kernel

theorem met_LocalStoreResults :
    let s := wg [(1, 0x6FF8), (2, 0x3FF0)]
    s.Issues 0 ∧ s.kSound 7 ∧ (s.valK (.g 1) 7 + s.kEntry s.me.core 7).toNat = 0x6FF8 ∧
      s.segCheck (s.seg 3) 0x6FF8 8 .w 8 = none ∧ s.localClear (s.seg 3) 0x6FF8 8 ∧ s.segCheck (s.seg 2) 0x3FF0 16 .w 16 = none ∧ s.localClear (s.seg 2) 0x3FF0 16 := by
  unfold State.Issues State.Ready State.localClear State.kSound Memory.sound
  decide +kernel

theorem met_CheckTraps :
    let s := wg [(1, 0x6FF9), (2, 0x3FFFFFF1)]
    s.Issues 0 ∧ s.kSound 0 ∧ s.segCheck (s.seg 3) 0x6FF9 8 .r 8 = some 0x20 ∧ s.segCheck (s.seg 3) 0x6FF1 8 .w 8 = some 0x22 ∧
      s.segCheck (s.seg 1) 0 8 .w 8 = some 0x21 ∧ (s.seg 0).space = .global ∧
      s.segCheck (s.seg 4) (s.val (.g 2)).toNat 16 .o 16 = some 0x20 ∧ s.segCheck (s.seg 4) 0 16 .o 16 = none ∧
      s.plain (.g 3) = true ∧ granules ((s.val (.g 3)).toNat % 8) = 1 ∧ s.segCheck (s.seg 3) 0x6FF9 16 .r 16 = some 0x20 ∧
      (s.seg 4).space = .object ∧ (let t := s.updMe fun t => { t with segs := t.segs.set 4 { t.segs[4] with space := .global } }
       t.Issues 0 ∧ t.segCheck (t.seg 4) 0 16 .o 16 = none ∧ (t.seg 4).space ≠ .object) := by
  unfold State.Issues State.Ready State.kSound Memory.sound
  decide +kernel

theorem met_GlobalLoadHits :
    let s := withL1 (wg [(1, 120), (2, 112)]) [lineAt (2 ^ 30)]
    s.Issues 0 ∧ (s.seg 0).space = .global ∧ s.segCheck (s.seg 0) 120 8 .r 8 = none ∧
      s.tlbHit (2 ^ 30 + 120) .load ⟨1, 2 ^ 30, 30, 2 ^ 30, true, true, false, false, 0⟩ ∧ (2 ^ 30 + 120) % 128 + 8 ≤ 128 ∧
      (s.cluster s.myCluster).l1Find (s.asidOf s.myCluster) ((2 ^ 30 + 120) / 128) = some (lineAt (2 ^ 30)) ∧
      (lineAt (2 ^ 30)).holds 120 8 ∧ s.unwatched (2 ^ 30 + 120) 8 2 ∧ (s.valK (.g 1) 0 + s.kEntry s.me.core 0).toNat = 120 ∧
      s.segCheck (s.seg 0) 112 16 .r 16 = none ∧ (lineAt (2 ^ 30)).holds 112 16 ∧ (s.val (.g 2) + s.val (.g 0)).toNat = 112 ∧
      s.kSound 0 ∧ s.me.aux.counted = false := by
  unfold State.Issues State.Ready State.tlbHit State.unwatched L1Line.holds State.kSound Memory.sound
  decide +kernel

theorem met_GlobalStoreEntersL1 :
    let s := wg [(1, 120), (2, 112)]
    let h := withL1 s [lineAt (2 ^ 30)]
    s.Issues 0 ∧ h.Issues 0 ∧ (s.seg 0).space = .global ∧ s.segCheck (s.seg 0) 120 8 .w 8 = none ∧
      s.tlbHit (2 ^ 30 + 120) .store ⟨1, 2 ^ 30, 30, 2 ^ 30, true, true, false, false, 0⟩ ∧
      h.tlbHit (2 ^ 30 + 120) .store ⟨1, 2 ^ 30, 30, 2 ^ 30, true, true, false, false, 0⟩ ∧ s.unwatched (2 ^ 30 + 120) 8 1 ∧
      (s.cluster s.myCluster).l1Find (s.asidOf s.myCluster) ((2 ^ 30 + 120) / 128) = none ∧ (s.cluster s.myCluster).l1 = [] ∧
      (h.cluster h.myCluster).l1Find (h.asidOf h.myCluster) ((2 ^ 30 + 120) / 128) = some (lineAt (2 ^ 30)) ∧
      (lineAt (2 ^ 30)).sealedLine = false ∧ leBytes (Size.bytes .d) (s.valK (.g 3) 0).toNat = List.replicate 8 0 ∧
      s.segCheck (s.seg 0) 112 16 .w 16 = none ∧ s.kSound 0 ∧ h.kSound 0 := by
  unfold State.Issues State.Ready State.tlbHit State.unwatched State.kSound Memory.sound
  decide +kernel

theorem met_GlobalStoreEntersL1_line : (120 : Nat) + [(1 : Byte), 2, 3, 4, 5, 6, 7, 8].length ≤ 128 ∧ (lineAt 0).psn = 0 := by decide

theorem met_HomeAccessesAreSent :
    let s := wg [(1, 0x3FFFFFF8)]
    s.Issues 0 ∧ s.admits (s.tenantOf s.myCluster) ∧ (s.seg 4).space = .object ∧
      (s.valK (.g 1) 0 + s.kEntry s.me.core 0).toNat = 0x3FFFFFF8 ∧ s.segCheck (s.seg 4) 0x3FFFFFF8 8 .r 8 = none ∧
      s.tlbHit (2 ^ 31 + 0x3FFFFFF8) .load ⟨1, 2 ^ 31, 30, 2 ^ 31, true, true, false, false, 0⟩ ∧
      s.tlbHit (2 ^ 31 + 0x3FFFFFF8) .object ⟨1, 2 ^ 31, 30, 2 ^ 31, true, true, false, false, 0⟩ ∧
      (2 ^ 31 + 0x3FFFFFF8) % 2 ^ 30 + 8 ≤ 2 ^ 30 ∧
      (s.seg 0).space = .global ∧ scopeWide .die = true ∧ s.segCheck (s.seg 0) 0x3FFFFFF8 8 .r 8 = none ∧
      s.tlbHit (2 ^ 30 + 0x3FFFFFF8) .load ⟨1, 2 ^ 30, 30, 2 ^ 30, true, true, false, false, 0⟩ ∧
      s.kSound 0 ∧ s.cleanAt 0 1 (2 ^ 31 + 0x3FFFFFF8) ∧ s.cleanAt 0 1 (2 ^ 31 + 0x3FFFFFFF) ∧ s.cleanAt 0 1 (2 ^ 30 + 0x3FFFFFF8) ∧
      s.segCheck (s.seg 4) 0x3FFFFFF0 16 .r 16 = none ∧ s.segCheck (s.seg 4) 0x3FFFFFF0 16 .w 16 = none ∧
      s.segCheck (s.seg 0) 0x3FFFFFF8 8 .w 8 = none ∧ s.mustWait s.myCluster .die = false ∧
      (∀ l ∈ (s.cluster s.myCluster).l1, l.sealedLine = false) ∧ (2 ^ 30 + 0x3FFFFFF8) % 128 + 8 ≤ 128 ∧
      s.tlbHit (2 ^ 30 + 0x3FFFFFF8) .store ⟨1, 2 ^ 30, 30, 2 ^ 30, true, true, false, false, 0⟩ := by
  refine ⟨?_, w0_admits rfl rfl rfl rfl, ?_⟩
  · unfold State.Issues State.Ready
    decide +kernel
  · unfold State.tlbHit State.kSound Memory.sound State.cleanAt
    decide +kernel

theorem met_OrderedLocalAccesses :
    let s := wg [(1, 0x6FF8)]
    s.Issues 0 ∧ s.segCheck (s.seg 3) 0x6FF8 8 .r 8 = none ∧ s.segCheck (s.seg 3) 0x6FF8 8 .w 8 = none ∧
      s.localClear (s.seg 3) 0x6FF8 8 ∧ s.mustWait s.myCluster .pod = false := by
  unfold State.Issues State.Ready State.localClear Memory.sound
  decide +kernel

/-- A dirty line at an address of ASID 1. -/
def dirtyAt (va : Nat) : L1Line := { lineAt va with dirty := BitVec.allOnes 128 }

/-- The translation of the page at 2 GiB, where the object segment of `w0` begins. -/
def objPage : TlbEntry := ⟨1, 2 ^ 31, 30, 2 ^ 31, true, true, false, false, 0⟩

/-- The translation of the page at 1 GiB, where the global segment of `w0` begins. -/
def dataPage : TlbEntry := ⟨1, 2 ^ 30, 30, 2 ^ 30, true, true, false, false, 0⟩

theorem met_FenceAndScoreboardResults :
    let d := withL1 w0 [dirtyAt (2 ^ 30), { lineAt 0 with sealedLine := true }]
    let b := w0.updCore 0 fun c => { c with scb := [⟨1, 0x100, 8, 0x200, 8⟩] }
    w0.mustWait w0.myCluster .die = false ∧ d.Issues 0 ∧ d.mustWait d.myCluster .die = true ∧ w0.val (.g 1) = 0 ∧
      (w0.core w0.me.core).scb = [] ∧ b.Issues 0 ∧ (b.core b.me.core).scb ≠ [] ∧
      (b.core b.me.core).storeWaits 0x108 8 = false ∧ (b.core b.me.core).storeWaits 0x107 1 = true := by
  unfold State.Issues State.Ready
  decide +kernel

theorem met_CacheForms :
    let h := withL1 w0 [dirtyAt (2 ^ 30)]
    let p := withL1 w0 [{ lineAt (2 ^ 30) with valid := 1 }]
    w0.Issues 0 ∧ w0.admits (w0.tenantOf w0.myCluster) ∧ (w0.seg 0).space = .global ∧ (w0.seg 3).space ≠ .global ∧
      (w0.seg 0).effLimit (w0.spadSize w0.myCluster) ≥ 0 + 1 ∧ w0.tlbHit (2 ^ 30) .prefetch dataPage ∧
      (w0.cluster w0.myCluster).l1Find (w0.asidOf w0.myCluster) (2 ^ 30 / 128) = none ∧
      p.Issues 0 ∧ (p.cluster p.myCluster).l1Find (p.asidOf p.myCluster) (2 ^ 30 / 128) = some { lineAt (2 ^ 30) with valid := 1 } ∧
      w0.segCheck (w0.seg 3) 0 1 .r 1 = none ∧ w0.segCheck (w0.seg 3) 0 1 .w 1 = none ∧ w0.segCheck (w0.seg 0) 0 1 .r 1 = none ∧
      w0.tlbHit (2 ^ 30) .load dataPage ∧ w0.tlbHit (2 ^ 30) .cacheDrop dataPage ∧ h.Issues 0 ∧
      (h.cluster h.myCluster).l1Find (h.asidOf h.myCluster) (2 ^ 30 / 128) = some (dirtyAt (2 ^ 30)) ∧
      (dirtyAt (2 ^ 30)).dirty ≠ 0 := by
  refine ⟨w0_issues, w0_admits rfl rfl rfl rfl, ?_⟩
  unfold State.Issues State.Ready State.tlbHit
  decide +kernel

theorem met_ReserveFormsAreSent :
    let s := wg [(1, 0x3FFFFFF8)]
    let u := s.updMe fun t => { t with segs := t.segs.set 0 { t.segs[0] with base := BitVec.ofNat 57 (2 ^ 30 + 4), limit := 2 ^ 29 },
                                       ctx := { t.ctx with g := t.ctx.g.set 1 8 } }
    s.Issues 0 ∧ s.admits s.myTenant ∧ (s.val (.g 1) + s.val (.g 2)).toNat = 0x3FFFFFF8 ∧ (s.seg 0).space = .global ∧
      s.segCheck (s.seg 0) 0x3FFFFFF8 8 .r 8 = none ∧ s.segCheck (s.seg 0) 0x3FFFFFF8 8 .w 8 = none ∧
      s.tlbHit (2 ^ 30 + 0x3FFFFFF8) .reserve dataPage ∧ (2 ^ 30 + 0x3FFFFFF8) % 8 = 0 ∧ s.cleanAt 0 1 (2 ^ 30 + 0x3FFFFFF8) ∧
      u.Issues 0 ∧ u.segCheck (u.seg 0) 8 8 .r 8 = none ∧ u.segCheck (u.seg 0) 8 8 .w 8 = none ∧ (u.seg 0).space = .global ∧
      u.tlbHit (2 ^ 30 + 12) .reserve dataPage ∧ (2 ^ 30 + 12) % 8 ≠ 0 := by
  refine ⟨?_, w0_admits rfl rfl rfl rfl, ?_⟩
  · unfold State.Issues State.Ready
    decide +kernel
  · unfold State.tlbHit State.Issues State.Ready State.cleanAt
    decide +kernel

theorem met_LoggedFormsAppend :
    let s := wg [(1, 0x3FFFFFF8)]
    s.Issues 0 ∧ s.admits s.myTenant ∧ s.segCheck (s.seg 0) 0x3FFFFFF8 8 .r 8 = none ∧
      s.segCheck (s.seg 0) 0x3FFFFFF8 8 .w 8 = none ∧ s.tlbHit (2 ^ 30 + 0x3FFFFFF8) .reserve dataPage ∧
      (2 ^ 30 + 0x3FFFFFF8) % 2 ^ 30 + 8 ≤ 2 ^ 30 ∧ s.unwatched (2 ^ 30 + 0x3FFFFFF8) 8 1 ∧
      s.logFull (sliceOf (dataPage.phys (2 ^ 30 + 0x3FFFFFF8))) (s.logLoad (sliceOf (dataPage.phys (2 ^ 30 + 0x3FFFFFF8)))) = false ∧
      8 = Size.bytes .d ∧ s.segCheck (s.seg 0) 0x3FFFFFF8 4 .r 4 = none := by
  refine ⟨?_, w0_admits rfl rfl rfl rfl, ?_⟩
  · unfold State.Issues State.Ready
    decide +kernel
  · unfold State.tlbHit State.unwatched
    decide +kernel

theorem met_SealFormsAreSent :
    let s := wg [(1, 0x3FFFFFF0), (2, 5), (3, 1)]
    let t := s.updMe fun t => { t with segs := t.segs.set 1 { t.segs[0] with s := false } }
    s.Issues 0 ∧ s.admits s.myTenant ∧ s.objOk 0x3FFFFFF0 16 (2 ^ 31 + 0x3FFFFFF0) objPage ∧ (s.val (.g 1)).toNat = 0x3FFFFFF0 ∧
      (s.seg 0).limit ≠ 0 ∧ (s.seg 0).s = true ∧ (s.seg 0).space = .global ∧ (s.seg 5).limit = 0 ∧
      t.Issues 0 ∧ t.objOk 0x3FFFFFF0 16 (2 ^ 31 + 0x3FFFFFF0) objPage ∧ (t.seg 1).limit ≠ 0 ∧ (t.seg 1).s = false := by
  refine ⟨?_, w0_admits rfl rfl rfl rfl, ?_⟩
  · unfold State.Issues State.Ready
    decide +kernel
  · unfold State.objOk State.tlbHit State.Issues State.Ready
    decide +kernel

/-- `w0` with selector 3 in s0 and a segment table at 1 GiB. -/
def selState : State :=
  ((wg [(1, 3), (2, 8)]).updMe fun t => { t with ctx := { t.ctx with sel := t.ctx.sel.set 0 3 } }).updDev fun d =>
    { d with tasks := d.tasks.set 0 ⟨1, 2 ^ 30⟩ }

theorem met_SegmentForms :
    let s := withL1 selState [lineAt (2 ^ 30)]
    s.Issues 0 ∧ (s.val (.g 3)).toNat % 256 = 0 ∧ (s.val (.g 1)).toNat % 256 = 3 ∧
      s.segEntry (s.servedTask s.ctl.acting) 3 = 2 ^ 30 + 96 ∧
      s.tlbHit (2 ^ 30 + 96) .load dataPage ∧ (2 ^ 30 + 96) % 128 + 32 ≤ 128 ∧
      (s.cluster s.myCluster).l1Find (s.asidOf s.myCluster) ((2 ^ 30 + 96) / 128) = some (lineAt (2 ^ 30)) ∧
      (lineAt (2 ^ 30)).holds 96 32 ∧
      s.unwatched (2 ^ 30 + 96) 32 2 ∧ s.unwatched (2 ^ 30 + 96) 32 1 ∧ (s.me.ctx.sel[1]).toNat = 0 ∧
      (s.me.ctx.sel[0]).toNat = 3 ∧ (s.val (.g 1)).toNat + (s.val (.g 2)).toNat ≤ (s.seg 0).limit.toNat ∧
      (∀ x ∈ (s.cluster s.myCluster).l1, l1Set x.va = l1Set ((2 ^ 30 + 96) / 128) → x.dirty = 0) ∧
      (wg [(1, 0xFFFFFFFFFFFFFFFF)]).Issues 0 := by
  unfold State.Issues State.Ready State.tlbHit State.unwatched L1Line.holds
  decide +kernel

theorem met_SegmentForms_entry : selState.entryStorable 3 dataPage := by
  refine ⟨?_, by decide +kernel, fun l h => ?_⟩
  · unfold State.tlbHit
    decide +kernel
  · have : (selState.cluster selState.myCluster).l1Find (selState.asidOf selState.myCluster)
      (selState.segEntry (selState.servedTask selState.ctl.acting) 3 / 128) = none := by decide +kernel
    rw [this] at h
    cases h

theorem met_SegmentForms_giveTake :
    selState.Issues 0 ∧ selState.admits selState.myTenant ∧ selState.objOk (selState.val (.g 3)).toNat 16 (2 ^ 31) objPage ∧
      (selState.me.ctx.sel[0]).toNat ≠ 0 ∧ (selState.tlbUsed (2 ^ 31) .object).entryStorable 3 dataPage ∧
      (selState.seg 0).g = true ∧ (selState.seg 0).w = true ∧ (selState.seg 0).space = .global := by
  refine ⟨?_, w0_admits rfl rfl rfl rfl, ?_, by decide +kernel, ⟨?_, by decide +kernel, fun l h => ?_⟩, by decide +kernel⟩
  · unfold State.Issues State.Ready
    decide +kernel
  · unfold State.objOk State.tlbHit
    decide +kernel
  · unfold State.tlbHit
    decide +kernel
  · have : ((selState.tlbUsed (2 ^ 31) .object).cluster (selState.tlbUsed (2 ^ 31) .object).myCluster).l1Find
      ((selState.tlbUsed (2 ^ 31) .object).asidOf (selState.tlbUsed (2 ^ 31) .object).myCluster)
      ((selState.tlbUsed (2 ^ 31) .object).segEntry
        ((selState.tlbUsed (2 ^ 31) .object).servedTask (selState.tlbUsed (2 ^ 31) .object).ctl.acting) 3 / 128) = none := by
      decide +kernel
    rw [this] at h
    cases h

theorem met_RemoteAccessesAreSent : w0.Issues 0 ∧ w0.plain (.g 1) = true ∧ w0.plainDst .gz = true ∧ w0.admits w0.myTenant :=
  ⟨w0_issues, by decide, by decide, w0_admits rfl rfl rfl rfl⟩

theorem met_ObjectFormsAreSent :
    let s := wg [(1, 0x3FFFFFF0), (2, 0x3FFFFFF0)]
    s.Issues 0 ∧ s.admits s.myTenant ∧ s.objOk (s.val (.g 1)).toNat 16 (2 ^ 31 + 0x3FFFFFF0) objPage ∧
      s.segCheck (s.seg 4) (s.val (.g 2)).toNat 16 .o 16 = none ∧ (s.seg 4).base.toNat + (s.val (.g 2)).toNat < 2 ^ 57 := by
  refine ⟨?_, w0_admits rfl rfl rfl rfl, ?_⟩
  · unfold State.Issues State.Ready
    decide +kernel
  · unfold State.objOk State.tlbHit
    decide +kernel

theorem met_PayloadFormsAreSent :
    let s := wg [(1, 0x3FFFFFE0), (2, 0x6FC3), (3, 0x6FE4)]
    s.Issues 0 ∧ s.admits s.myTenant ∧ s.objOk (s.val (.g 1)).toNat 16 (2 ^ 31 + 0x3FFFFFE0) objPage ∧
      8 * field 0x6FC3 3 12 = 0x6FC0 ∧ s.tcmOk 0x6FC0 64 .r 8 ∧ s.tcmOk 0x6FC0 64 .w 8 ∧
      s.tcmClear ((s.seg 3).base.toNat + 0x6FC0) 64 ∧
      bit 0x6FE4 3 = false ∧ granules (0x6FE4 % 8) = 2 ∧ 16 * field 0x6FE4 4 11 = 0x6FE0 ∧ s.tcmOk 0x6FE0 32 .r 16 ∧
      (2 ^ 31 + 0x3FFFFFE0) % 32 = 0 ∧ s.objOk (s.val (.g 1)).toNat 32 (2 ^ 31 + 0x3FFFFFE0) objPage ∧
      s.tcmClear ((s.seg 3).base.toNat + 0x6FE0) 32 := by
  refine ⟨?_, w0_admits rfl rfl rfl rfl, ?_⟩
  · unfold State.Issues State.Ready
    decide +kernel
  · unfold State.objOk State.tlbHit State.tcmOk State.tcmClear Memory.sound
    decide +kernel

theorem met_PackedIntegerResults : w0.Issues 0 ∧ w0.plain (.g 1) = true ∧ w0.plainDst (.g 2) = true := ⟨w0_issues, by decide⟩

theorem met_PermuteResults : w0.Issues 0 ∧ w0.plain (.g 1) = true ∧ w0.plainDst (.g 2) = true := ⟨w0_issues, by decide⟩

theorem met_PackedFloatResults : w0.Issues 0 ∧ w0.plain (.g 1) = true ∧ w0.plainDst (.g 2) = true ∧ fmtFloat .w = none ∧
    fmtFloat .s ≠ none := ⟨w0_issues, by decide, by decide, rfl, by unfold fmtFloat; exact nofun⟩

theorem met_ScalarFloatResults :
    let q := w0.updMe fun t => { t with ctx := { t.ctx with psw := t.ctx.psw ||| BitVec.ofNat 64 (2 ^ 21) } }
    w0.Issues 0 ∧ pswRq w0.me.ctx.psw = false ∧ w0.plain (.g 1) = true ∧ w0.plainDst .gz = true ∧
      q.me.run = .active ∧ pswRq q.me.ctx.psw = true := ⟨w0_issues, by decide +kernel⟩

theorem met_SpecialOperands : Machine.Num.isNan (.nan true) = true ∧ Machine.Num.isNan (.fin false 0 0) = false ∧
    fp16 ∈ [fp32, fp16, bf16] ∧ sto ≤ 4 ∧ (0 : Nat) < 1 ∧ 2 ^ 16 - 1 < 2 ^ 16 := by decide

theorem met_UnitAndModeResults :
    let q := w0.updMe fun t => { t with ctx := { t.ctx with psw := t.ctx.psw ||| BitVec.ofNat 64 (2 ^ 21) } }
    w0.Issues 0 ∧ q.Issues 0 ∧ pswRq q.me.ctx.psw = true := by
  unfold State.Issues State.Ready
  decide +kernel

theorem met_UnitAndModeResults_finish :
    let e : SfuEntry := ⟨32768, .frcp, some (.g 3), none, 0x40000000, 0, w0.me.ctx.psw, 0⟩
    let f : SfuEntry := ⟨32768, .qeq, none, some 4, 1, 1, w0.me.ctx.psw, 0⟩
    let s := ((w0.updThread 32768 fun t => { t with run := .sfu, slot := none }).updCore 0 fun c => { c with sfu := [e, f] }).latch
      ⟨.sfuOperationFinish, 0, 0, 0, .none⟩
    (s.core s.ctl.ev.a).sfu = [e, f] ∧ 32768 ≤ e.tid ∧ (s.threads.find e.tid).isSome = true ∧ (s.thread e.tid).run = .sfu ∧
      (s.thread e.tid).slot = none ∧ s.breakpoint (s.thread e.tid).ctx.gtid (s.thread e.tid).ctx.pc.toNat = false ∧
      e.rd = some (.g 3) ∧ e.pd = none ∧ f.rd = none ∧ f.pd = some 4 ∧ f.tid = 32768 := by
  decide +kernel

theorem met_UnitAndModeResults_operands :
    f32 0x7FC00000 = .nan false ∧ f32 0x7F800000 = .inf false ∧ (f32 0x80000000 matches .fin true 0 _) = true ∧
      (f32 0x40400000 matches .fin false _ _) = true ∧ readQ 0 = .fin false 0 1 ∧
      readQ (BitVec.ofNat 64 (2 ^ 63 + 2 * 2 ^ 57 + 3 * 4 + 2)) = .fin true 3 2 ∧
      readQ (BitVec.ofNat 64 (2 ^ 58)) = .ind true ∧ readQ (BitVec.ofNat 64 (63 * 2 ^ 57)) = .ind false ∧
      readQ (BitVec.ofNat 64 (63 * 2 ^ 57 + 2)) = .pay (BitVec.ofNat 64 (63 * 2 ^ 57 + 2)) ∧
      f32 0x3E000000 = .fin false (2 ^ 23) (-26) ∧ f32 0xC0400000 = .fin true (3 * 2 ^ 22) (-22) := by
  decide +kernel

/-- The value of FP32 0x3E000000 is 2^−3, and that of 0xC0400000 is the integer −3. -/
theorem met_UnitAndModeResults_values : (Machine.Num.fin false (2 ^ 23) (-26)).value = (2 : ℚ) ^ (-3 : ℤ) ∧
    (Machine.Num.fin true (3 * 2 ^ 22) (-22)).value = ((-3 : ℤ) : ℚ) := by
  constructor <;> norm_num [Num.value, zpow_neg]

/-- Operands of the clauses of `RoundedArithmetic`: a format of each pair, an exact zero, a sum of lanes that is not zero, a widening. -/
theorem met_RoundedArithmetic : fp16 ∈ [fp32, fp16, bf16] ∧ fp4 ∈ [fp16, bf16, fp4] ∧ fp4.w < fp16.w ∧ (fp4.read 0x9).finite = true ∧
    fp16.read 0xFC00 = .inf true ∧ fp16.w < fp32.w ∧ (fp16.read 0x8000).finite = true ∧ (0 : Nat) < 32 ∧ sto ≤ 4 ∧
    (match fp32.read 0xC0400000 with | .fin p m e => p && m == 3 * 2 ^ 22 && e == -22 | _ => false) = true ∧
    (0 : Nat) < 64 / fp16.w := by decide +kernel

theorem met_RoundedArithmetic_sum : (([Machine.Num.fin false 3 0, .fin true 1 (-1)] : List Machine.Num).map (·.value)).sum ≠ 0 := by
  norm_num [Num.value, zpow_neg]

/-- `w0` with a command at TCM offset 0x1000: word 0 with a record place. -/
def withCmd (r : Nat) : State := { wg [(1, 0x1000)] with mem := w0.mem.write (tcmKey 0 0x1000) (leBytes 8 (r / 16 * 2 ^ 16)) }

/-- A job record at a place of the TCM, with its word 0. -/
def withRecord (r w : Nat) : State := { wg [(1, BitVec.ofNat 64 (r / 16 * 32))] with mem := w0.mem.write (tcmKey 0 r) (leBytes 8 w) }

theorem met_IssueResults : (withCmd 0x6FF0).Issues 0 ∧ (withCmd 0x6FF0).ctl.retry = false ∧ (withCmd 0x6FF0).tcmOk 0x1000 32 .r 32 ∧
    16 * wf (wordAt (wordsOf 4 ((withCmd 0x6FF0).mem.read ((withCmd 0x6FF0).tcmAt 0x1000) 32)) 0) 16 11 = 0x6FF0 ∧
    16 * wf (wordAt (wordsOf 4 ((withCmd 0x7F0).mem.read ((withCmd 0x7F0).tcmAt 0x1000) 32)) 0) 16 11 = 0x7F0 ∧
    (withCmd 0x7F0).Issues 0 ∧
    (withCmd 0x6FF0).tcmClear (((withCmd 0x6FF0).seg 3).base.toNat + 0x1000) 32 ∧
    ((withCmd 0x6FF0).core 0).storeWaits 0x6FF0 16 = false ∧ (withCmd 0x6FF0).kickLoad .cl 0 < Engine.room .cl ∧
    ((withCmd 0x6FF0).core 0).scb.length < 16 := by
  unfold State.Issues State.Ready State.tcmOk State.tcmClear Memory.sound
  decide +kernel

theorem met_ObservationResults :
    let id := 0x6FF0 / 16 * 32
    let a := withRecord 0x6FF0 (id * 2 ^ 48)
    let b := withRecord 0x6FF0 (id * 2 ^ 48 + 1)
    let c := withRecord 0x6FF0 (id * 2 ^ 48 + 2 * 2 ^ 40 + 1)
    a.Issues 0 ∧ b.Issues 0 ∧ c.Issues 0 ∧ (a.val (.g 1)).toNat % 2 ^ 16 = id ∧
      field (a.recordWord 0 0x6FF0) 48 16 = id ∧ bit (a.recordWord 0 0x6FF0) 0 = false ∧ bit (b.recordWord 0 0x6FF0) 0 = true ∧
      field (b.recordWord 0 0x6FF0) 40 8 = 0 ∧ field (c.recordWord 0 0x6FF0) 40 8 = 2 ∧ bit (c.recordWord 0 0x6FF0) 2 = false ∧
      field (w0.recordWord 0 0x6FF0) 48 16 ≠ id ∧ 16 * ((wg [(1, 0x7F0 / 16 * 32)]).val (.g 1)).toNat / 32 < 0x800 ∧
      (withCmd 0x6FF0).tcmOk 0x1000 32 .r 32 ∧ (withCmd 0x6FF0).tcmClear (((withCmd 0x6FF0).seg 3).base.toNat + 0x1000) 32 ∧
      (withCmd 0x6FF0).matrixJobs 0 = [] := by
  unfold State.Issues State.Ready State.tcmOk State.tcmClear Memory.sound
  decide +kernel

theorem met_ObservationResults_waits :
    let b := (withRecord 0x6FF0 (0x6FF0 / 16 * 32 * 2 ^ 48 + 1)).updThread 32768 fun t =>
      { t with run := .waiting, slot := none, cont := .observe 0x6FF0 }
    let s : State := { b with msgs := b.msgs.set 9 (.waitEnd (.thread 32768)) }.latch ⟨.replyArrival, 9, 0, 0, .none⟩
    s.msgs.find s.ctl.ev.a = some (.waitEnd (.thread 32768)) ∧ s.awaits (.thread 32768) = false ∧
      (s.thread 32768).cont = .observe 0x6FF0 ∧ (s.thread 32768).run = .waiting ∧ (s.thread 32768).slot = none ∧
      bit (s.recordWord (s.thread 32768).core 0x6FF0) 0 = true ∧ field (s.recordWord (s.thread 32768).core 0x6FF0) 40 8 = 0 ∧
      s.breakpoint (s.thread 32768).ctx.gtid (s.thread 32768).ctx.pc.toNat = false ∧ s.ctl.need = none := by
  decide +kernel

/-- The firmware thread of core 0 acts. -/
def slot0 : State := (w0.setThread 0 { run := .active, slot := some 0 }).acting 0 0 false

/-- The handler thread of core 0 acts. -/
def slot1 : State := (w0.setThread 1 { run := .active, slot := some 1 }).acting 1 0 false

/-- `w0` with a pond of two clusters, 0 and 1. -/
def wide : State := w0.updPond 1 fun p => { p with w := 2 }

/-- `w0` with a trap handler at 0x100. -/
def handled : State := w0.updCluster 0 fun c => { c with regs := { c.regs with trapvec := 0x100 } }

/-- Every entry of cluster 0 is reserved. -/
def fullCluster : State := (List.range 8).foldl (fun s i => s.updCore i fun c => { c with reserved := 32 }) w0

theorem met_SpawnAndLaunchResults :
    w0.Issues 0 ∧ w0.ctl.acting ≠ w0.ctl.nextTid ∧ (wg [(1, 2)]).Issues 0 ∧ ((wg [(1, 2)]).val (.g 1)).toNat % 4 ≠ 0 ∧
      (wg [(1, 0xFFFFFFFF00000000)]).Issues 0 ∧ pswLvl w0.me.ctx.psw ≠ 2 ∧ 0 < w0.freeEntries 0 ∧
      (w0.cluster w0.myCluster).crew.isSome = true ∧ fullCluster.Issues 0 ∧ ¬0 < fullCluster.freeEntries 0 ∧
      fullCluster.roomiest 0 = none := by
  unfold State.Issues State.Ready
  decide +kernel

theorem met_SpawnAndLaunchResults_launch :
      (let t := w0.updMe fun t => { t with segs := t.segs.set 0 t.segs[3] }
       t.Issues 0 ∧ t.segCheck (t.seg 0) 0x6FC0 64 .r 64 = none ∧ (t.seg 0).space = .tcm ∧
         (t.core 0).loadWaits 0x6FC0 64 = false ∧ t.mem.sound (t.localKey (t.seg 0) 0x6FC0) 64 ∧
         (t.entryAway (threadAsker t.ctl.acting) t.myTenant
           (Lr.ofWords (wordsOf 8 (t.mem.read (t.localKey (t.seg 0) 0x6FC0) 64)))).isNone = true ∧
         t.mustWait t.myCluster .device = false ∧ t.segCheck (t.seg 0) 0x6FC1 64 .r 64 = some 0x20) ∧
      (let t := w0.updMe fun t => { t with segs := t.segs.set 0 { t.segs[4] with space := .object } }
       t.Issues 0 ∧ t.segCheck (t.seg 0) 0 64 .r 64 = none ∧ (t.seg 0).space = .object) ∧
      (let t := withL1 w0 [lineAt (2 ^ 30)]
       t.Issues 0 ∧ t.segCheck (t.seg 0) 64 64 .r 64 = none ∧ t.tlbHit (2 ^ 30 + 64) .load dataPage ∧
         (t.cluster t.myCluster).l1Find (t.asidOf t.myCluster) ((2 ^ 30 + 64) / 128) = some (lineAt (2 ^ 30)) ∧
         (lineAt (2 ^ 30)).holds 64 64 ∧ t.mustWait t.myCluster .device = false ∧
         (t.entryAway (threadAsker t.ctl.acting) t.myTenant (Lr.ofWords (wordsOf 8 ((lineAt (2 ^ 30)).bytes 64 64)))).isNone = true) := by
  unfold State.Issues State.Ready State.tlbHit Memory.sound L1Line.holds
  decide +kernel

theorem met_YieldExitMigrResults :
    slot0.Issues 0 ∧ slot0.isSlot0 = true ∧ slot1.Issues 0 ∧ slot1.isSlot1 = true ∧ slot1.lockstep = false ∧
      slot1.ctl.acting / 2 = slot1.me.core ∧ slot1.mustWait slot1.myCluster .device = false ∧ gang.Issues 0 ∧
      gang.lockstep = true ∧ w0.lockstep = false ∧ w0.me.slot.isSome = true ∧ 32768 ≤ w0.ctl.acting ∧
      (withL1 w0 [dirtyAt (2 ^ 30)]).Issues 0 ∧
      (withL1 w0 [dirtyAt (2 ^ 30)]).mustWait (withL1 w0 [dirtyAt (2 ^ 30)]).myCluster .device = true ∧
      (withL1 w0 [dirtyAt (2 ^ 30)]).writesBack 0 ∧
      w0.inPond w0.me.ident.pond 0 = true ∧ w0.inPond w0.me.ident.pond 1 = false ∧ wide.Issues 0 ∧
      wide.inPond wide.me.ident.pond 1 = true ∧ 1 ≠ wide.myCluster ∧ field wide.me.ctx.trw.toNat 0 8 = 0 ∧
      (wide.roomiest 1).isSome = true ∧ wide.lockstep = false := by
  unfold State.Issues State.Ready State.writesBack
  decide +kernel

/-- A thread in slot 2 of core 1 that forms a gang of 2 with core 0's. -/
def partner : State :=
  (w0.setThread 32769 { w0.thread 32768 with core := 1, run := .forming 2 }).updCore 1 fun c => { c with
    slots := c.slots.set 2 (.held 32769), entries := [32769] }

theorem met_GangResults :
    let us := partner.groupSlot 0 2 2
    let k := (w0.me.slot).getD 0
    w0.Issues 0 ∧ k = 2 ∧ slot0.Issues 0 ∧ slot0.me.slot.getD 0 < 2 ∧ gang.Issues 0 ∧ gang.me.inGang = true ∧ gang.lockstep = true ∧
      w0.groupSlot 0 2 2 = [some 32768, none] ∧ partner.Issues 0 ∧ us = [some 32768, some 32769] ∧
      partner.formingIn 2 32769 = true ∧ partner.formingElse 2 32769 = false ∧ partner.formingElse 2 32768 = false ∧
      partner.formingElse 4 32769 = true ∧ some 32769 ∈ partner.groupSlot 0 4 2 ∧
      (partner.thread 32769).ctx.gtid = partner.me.ctx.gtid ∧
      partner.breakpoint partner.me.ctx.gtid (partner.thread 32768).ctx.pc.toNat = false ∧ gang.isSlot0 = false ∧
      pswLvl w0.me.ctx.psw ≠ 2 ∧ w0.me.inGang = false ∧ w0.lockstep = false ∧ partner.lockstep = false := by
  unfold State.Issues State.Ready
  decide +kernel

/-- A group entry that is ready: state 1, FP32 sums, local core 0, root, delivery place 0x800. -/
def readyGroup : State := w0.updGroups 0 fun g => { g with
  entries := g.entries.set 5 #v[BitVec.ofNat 64 (2 ^ 62 + 2 * 2 ^ 56 + 255 * 2 ^ 40 + 2 ^ 16 + 0x80), 0, 0, 0] }

theorem met_MessageFormsAreSent :
    let n := wg [(1, 0x800000000), (2, 0x6FC0)]
    let g := readyGroup.put (.g 1) 5
    let l := g.updCore 0 fun c => { c with groupBad := [5] }
    let e := g.groupEntry (g.me.core / 2048) 5
    n.Issues 0 ∧ n.admits n.myTenant ∧ field (n.val (.g 1)).toNat 32 4 = 8 ∧ n.tcmOk 0x6FC0 64 .r 8 ∧
      n.tcmClear ((n.seg 3).base.toNat + 0x6FC0) 64 ∧
      8 < field ((wg [(1, 0x900000000)]).val (.g 1)).toNat 32 4 ∧ geState (w0.groupEntry (w0.me.core / 2048) 5) = 0 ∧
      g.Issues 0 ∧ (g.val (.g 1)).toNat % 2 ^ 12 = 5 ∧ geState e = 1 ∧ (geLocals e).contains (g.me.core % 2048) = true ∧
      geTen e = g.myTenant ∧ (g.core g.me.core).groupBad.contains 5 = false ∧ (g.core g.me.core).groupOpen.contains 5 = false ∧
      g.mustWait g.myCluster .device = false ∧ l.Issues 0 ∧ (l.core l.me.core).groupBad.contains 5 = true ∧
      w0.objOk 0 16 (2 ^ 31) objPage := by
  refine ⟨?_, w0_admits rfl rfl rfl rfl, ?_⟩
  · unfold State.Issues State.Ready
    decide +kernel
  · unfold State.tcmOk State.tcmClear Memory.sound State.objOk State.tlbHit State.Issues State.Ready
    decide +kernel

theorem met_MessageFormsAreSent_group : readyGroup.admits readyGroup.myTenant :=
  ⟨fun r => by
    show member (if r < 8 then (readyGroup.die r).groups.bitmap else (readyGroup.xdie (r - 8)).groups.bitmap) 0 = true
    split
    · by_cases h : r = 0
      · subst h
        decide +kernel
      · rw [show readyGroup.die r = {} from if_neg h]
        decide +kernel
    · show member (BitVec.allOnes 256) 0 = true
      decide +kernel, fun _ => by
    show member (BitVec.allOnes 256) 0 = true
    decide +kernel⟩

/-- `w0` with a free list of nodes that begins at offset 0 of the object segment. -/
def listed : State := w0.updCluster 0 fun c => { c with regs := { c.regs with nfl := 0 } }

/-- `w0` with a pair in the pool of its cluster. -/
def paired : State := w0.updCluster 0 fun c => { c with pool := { c.pool with pairs := [(1, 2)] } }

theorem met_NetFormResults :
    let s := wg [(1, 0x3FFFFFE3), (2, 0xFFFFFFE0FFFFFFE), (3, 0x480)]
    s.Issues 0 ∧ s.admits s.myTenant ∧ (s.seg 4).space = .object ∧
      s.segCheck (s.seg 4) ((s.val (.g 1)).toNat / 4 * 4) 32 .o 16 = none ∧ (s.seg 4).base.toNat + 0x3FFFFFE0 < 2 ^ 57 ∧
      s.tlbHit (2 ^ 31 + 0x3FFFFFE0) .object objPage ∧ s.tlbHit (2 ^ 31 + 0x3FFFFFE0 + 24) .object objPage ∧
      s.isLocal (objPage.phys (2 ^ 31 + 0x3FFFFFE0)) = true ∧
      (s.tlbUsed (2 ^ 31 + 0x3FFFFFE0) .object).tlbHit (2 ^ 31) .object objPage ∧
      (s.val (.g 3)).toNat / 2 ^ 10 ≠ 0 ∧ (w0.val (.g 1)).toNat / 2 ^ 10 = 0 ∧ bit (w0.val (.g 1)).toNat 7 = false ∧
      w0.mayAlloc w0.myCluster = true ∧ (w0.cluster w0.myCluster).regs.nfl = BitVec.allOnes 64 ∧ listed.Issues 0 ∧
      listed.mayAlloc listed.myCluster = true ∧
      (listed.cluster listed.myCluster).regs.nfl ≠ BitVec.allOnes 64 ∧ w0.me.aux.popped = none ∧
      (w0.cluster w0.myCluster).pool.pairs = [] ∧ paired.Issues 0 ∧ (paired.cluster paired.myCluster).pool.pairs = [(1, 2)] ∧
      (paired.cluster paired.myCluster).pool.waiting = [] ∧ w0.segCheck (w0.seg 0) 0 65536 .r 64 = none ∧
      w0.segCheck (w0.seg 0) 1 65536 .r 64 = some 0x22 := by
  refine ⟨?_, w0_admits rfl rfl rfl rfl, ?_⟩
  · unfold State.Issues State.Ready
    decide +kernel
  · unfold State.tlbHit State.Issues State.Ready
    decide +kernel

/-- `w0` with the page of its object segment homed on device 9 and a full limbo list. -/
def farLimbo : State := w0.updCluster 0 fun c => { c with
  tlb := [{ objPage with pa := 9 * 2 ^ 40 }], pool := { c.pool with limbo := List.replicate 65536 (0, 0) } }

theorem met_NetFormResults_full : 65536 ≤ (farLimbo.cluster farLimbo.myCluster).pool.limbo.length :=
  (List.length_replicate (n := 65536) (a := ((0, 0) : Nat × Nat))).ge

theorem met_NetFormResults_far :
    let s := farLimbo.updCluster 0 fun c => { c with pool := {} }
    s.Issues 0 ∧ (s.seg 4).space = .object ∧ s.segCheck (s.seg 4) 0 32 .o 16 = none ∧ s.tlbHit (2 ^ 31) .object { objPage with pa := 9 * 2 ^ 40 } ∧
      s.isLocal (({ objPage with pa := 9 * 2 ^ 40 } : TlbEntry).phys (2 ^ 31)) = false := by
  unfold State.tlbHit State.Issues State.Ready
  decide +kernel

theorem met_SystemRegisterResults : w0.Issues 0 ∧ w0.role w0.ctl.acting = .task ∧ slot0.Issues 0 ∧
    slot0.role slot0.ctl.acting ≠ .task ∧ w0.mayAlloc w0.myCluster = true ∧ (w0.pond (w0.pondOf w0.ctl.acting)).isSome = true := by
  unfold State.Issues State.Ready
  decide +kernel

theorem met_TrapEntryResults : 32768 ≤ handled.ctl.acting ∧ handled.me.inGang = false ∧
    handled.trapvec handled.ctl.acting &&& 0xFFFFFFFC ≠ 0 ∧ field handled.me.ctx.trw.toNat 0 8 ≠ 255 ∧
    w0.trapvec w0.ctl.acting &&& 0xFFFFFFFC = 0 ∧ w0.mustWait w0.myCluster .device = false ∧
    slot0.isSlot0 = true ∧ slot1.isSlot1 = true := by decide +kernel

theorem met_TrapAndReturnResults :
    let r := handled.updMe fun t => { t with ctx := { t.ctx with trw := 1 } }
    handled.Issues 0 ∧ field handled.me.ctx.trw.toNat 0 8 = 0 ∧ r.Issues 0 ∧ field r.me.ctx.trw.toNat 0 8 = 1 ∧
      32768 ≤ handled.ctl.acting ∧ handled.me.run = .active ∧ handled.me.inGang = false ∧ handled.ctl.lock = [] ∧
      handled.trapvec handled.ctl.acting &&& 0xFFFFFFFC ≠ 0 ∧ field handled.me.ctx.trw.toNat 0 8 ≠ 255 := by
  unfold State.Issues State.Ready
  decide +kernel

theorem met_DebugFormResults :
    let d := w0.updDev fun d => { d with dbg := d.dbg.set 0 #v[BitVec.ofNat 64 (2 ^ 63), 0, 0, 0, 0, 0, 0, 0] }
    w0.Issues 0 ∧ (w0.debugEntry (w0.servedTask w0.ctl.acting)).isNone = true ∧ d.Issues 0 ∧
      (d.debugEntry (d.servedTask d.ctl.acting)).isSome = true ∧
      (w0.cluster w0.myCluster).trace.gating = none ∧ (w0.cluster w0.myCluster).trace.lost = 0 ∧
      (w0.cluster w0.myCluster).trace.recs.length < 256 := by
  unfold State.Issues State.Ready
  decide +kernel

/-- The state with an event in the latch. -/
def at' (s : State) (k : EvKind) (a b c : Nat) (x : EvArg) : State := s.latch ⟨k, a, b, c, x⟩

/-- The state with a message in flight at number 9. -/
def withMsg (s : State) (m : Msg) : State := { s with msgs := s.msgs.set 9 m, ctl := { s.ctl with nextMsg := 10 } }

/-- `w0` with its thread in the run queue of core 0. -/
def ready : State := (w0.updThread 32768 fun t => { t with run := .ready, slot := none }).updCore 0 fun c => { c with
  slots := c.slots.set 2 .empty, fifo := [32768] }

/-- `w0` with its thread waiting for a reply that writes g3. -/
def waiting : State := w0.updThread 32768 fun t => { t with run := .waiting, slot := none, cont := .reply { rd := some (.g 3) } }

/-- `w0` with page tables for ASID 1: the page at 1 GiB, readable and writable. -/
def mapped : State :=
  let m := w0.mem.write 0 (leBytes 8 (2 ^ 63 + 0x1000))
  let m := m.write 0x1000 (leBytes 8 (2 ^ 63 + 0x2000))
  { w0 with mem := m.write 0x2008 (leBytes 8 (2 ^ 63 + 2 ^ 62 + 2 ^ 61 + 2 ^ 60 + 2 ^ 30)) }

/-- Its thread waits for a walk to an address. -/
def walking (va : Nat) : State := withMsg (mapped.updThread 32768 fun t => { t with run := .waiting }) (.walk ⟨0, 1, 0, va, .load, .thread 32768, 0⟩)

theorem met_ThreadRowResults_barrel :
    (32768 : Nat) ≤ 32768 ∧ (w0.threads.find 32768).isSome = true ∧
    (let s := at' ready .tadpoleBinding 0 7 0 .none
     (s.core s.ctl.ev.a).fifo = [32768] ∧ (s.thread 32768).core = 0 ∧ (∀ i : Fin 8, (s.thread 32768).ctx.sel[i] = 0) ∧
       s.ctl.ev.b = 7 ∧ s.ctl.ev.c ≠ 1 ∧ (s.core 0).slots.toList.getD 7 .empty = .empty ∧ (s.thread 32768).run = .ready ∧
       (s.thread 32768).cont = .none ∧ s.mem.firstPoison (tcmKey 0 (0x7000 + 128 * (s.thread 32768).aux.entry)) 128 = none) ∧
    (let s := at' w0 .quantumExpiry 0 2 0 .none
     (s.core 0).slots.toList.getD 2 .empty = .held 32768 ∧ (s.thread 32768).run = .active ∧ (s.thread 32768).slot.isSome = true) ∧
    (let s := at' (wide.updThread 32768 fun t => { t with aux := { t.aux with migReq := some 1 } }) .hardwareMigration 32768 0 0 .none
     let u := s.thread 32768
     u.aux.migReq = some 1 ∧ u.inGang = false ∧ field u.ctx.trw.toNat 0 8 = 0 ∧ s.entryJobs u.core u.aux.entry = 0 ∧ u.run = .active ∧
       1 ≠ u.core / 8 ∧ (s.roomiest 1).isSome = true) ∧
    (let s := at' (w0.updThread 32768 fun t => { t with run := .waiting, cont := .depart 8 }) .migrationDeparture 32768 0 0 .none
     let u := s.thread 32768
     u.cont = .depart 8 ∧ s.entryJobs u.core u.aux.entry = 0 ∧ u.aux.appends = 0 ∧ s.awaits (.thread 32768) = false) ∧
    (let s := at' (w0.updThread 32768 fun t => { t with run := .waiting, cont := .depart 16385 }) .migrRetry 32768 0 0 .none
     (s.thread 32768).cont = .depart 16385 ∧ 16384 ≤ 16385) ∧
    (let s := at' (withMsg (w0.updThread 32768 fun t => { t with run := .moving, slot := none }) (.tadpole 32768 8)) .tadpoleArrival 9 0 0 .none
     s.msgs.find s.ctl.ev.a = some (.tadpole 32768 8) ∧ (s.thread 32768).cont = .none ∧ s.isSavedThread 32768 = false ∧
       s.breakpoint (s.thread 32768).ctx.gtid (s.thread 32768).ctx.pc.toNat = false) ∧
    (let s := at' (handled.updThread 32768 fun t => { t with run := .forming 2 }) .gangFormationTimeout 32768 0 0 .none
     let u := s.thread 32768
     u.run = .forming 2 ∧ u.aux.waitAt = 0 ∧ u.slot.isSome = true ∧ u.inGang = false ∧
       ((s.groupSlot 0 2 2).filterMap id).filter (s.formingIn 2) = [32768] ∧ s.isSavedThread 32768 = false ∧
       s.trapvec 32768 &&& 0xFFFFFFFC ≠ 0 ∧ field u.ctx.trw.toNat 0 8 ≠ 255) := by decide +kernel

theorem met_ThreadRowResults_replies :
    (let s := at' (withMsg waiting (.reply (.thread 32768) { value := 7 })) .replyArrival 9 0 0 .none
     s.isSavedThread 32768 = false ∧ s.msgs.find 9 = some (.reply (.thread 32768) { value := 7 }) ∧
       (s.thread 32768).run = .waiting ∧ (s.thread 32768).slot = none ∧ (s.thread 32768).aux.sample = none ∧
       (s.thread 32768).cont = .reply { rd := some (.g 3) }) ∧
    (let s := at' (withMsg waiting (.wake (.thread 32768) { fault := some (0x29, 64, 3) })) .wake 9 0 0 .none
     s.msgs.find 9 = some (.wake (.thread 32768) { fault := some (0x29, 64, 3) }) ∧ s.isSavedThread 32768 = false) ∧
    (let r : SliceReq := { who := .thread 32768, fill := true, code := true, write := none, va := 2 ^ 30, pa := 2 ^ 30, n := 128, asid := 1 }
     let s := at' (withMsg (w0.updThread 32768 fun t => { t with run := .waiting }) (.fill r 0 0 false false)) .icacheLineArrival 9 0 0 .none
     s.msgs.find s.ctl.ev.a = some (.fill r 0 0 false false) ∧ r.who = .thread 32768 ∧ s.isSavedThread 32768 = false ∧
       (s.cluster r.cluster).isOn = true ∧ (tlbFind (s.cluster r.cluster).tlb 1 r.va).1 = some dataPage ∧ dataPage.phys r.va = r.pa) ∧
    (let s := at' ((w0.updThread 32768 fun t => { t with run := .sfu, slot := none }).updCore 0 fun c => { c with
       sfu := [⟨32768, .frcp, some (.g 3), none, 0x40000000, 0, w0.me.ctx.psw, 0⟩] }) .sfuOperationFinish 0 0 0 .none
     (s.thread 32768).run = .sfu ∧ (s.thread 32768).slot = none ∧ (s.core 0).sfu.length = 1) ∧
    (let found (va : Nat) := (walking va).walkBy (walkAsker 9) 1 0 va .load
     (found (2 ^ 30)).isOk = true ∧ (match found 0 with | .error (c, _) => c != 0 | .ok _ => false) = true ∧
       (walking 0).walkStopped 0 1 0 (found 0).toOption = false ∧ (walking 0).ctl.need = none ∧
       (walking (2 ^ 30)).walkStopped 0 1 (2 ^ 30) (found (2 ^ 30)).toOption = false ∧ ((walking 0).cluster 0).isOn = true) := by
  decide +kernel

/-- A request of the thread of `w0` for memory at its slice, at 1 GiB. -/
def asks (fill : Bool) (wr : Option (List Byte)) : SliceReq :=
  { who := .thread 32768, fill := fill, write := wr, va := 2 ^ 30, pa := 2 ^ 30, n := 8, asid := 1 }

/-- `s` with its slice holding the line at a key. -/
def heldAt (s : State) (k : Nat) : State := s.updSlice (sliceOf k) fun x => { x with lines := k / 128 :: x.lines }

/-- `w0` with a counter object of value 5 at 2 GiB, its line held. -/
def counterAt : State :=
  let s := heldAt w0 (2 ^ 31)
  { s with mem := (s.mem.setTag (2 ^ 31) ⟨1, false, true⟩).write (2 ^ 31) [5] }

/-- A request of its thread to the counter's home. -/
def cntReq (op : HomeOp) : HomeReq := { who := .thread 32768, op := op, va := 2 ^ 31, pa := 2 ^ 31, asid := 1 }

/-- An append of `w0`'s thread to the log of the home of 1 GiB. -/
def logEntry : LogEntry := { pa := 2 ^ 30, op := .add, n := 8, val := 1, keyDev := 0, keyCount := 0, slice := 0, seq := 1 }

theorem met_SliceRowResults :
    (let s := at' (withMsg (w0.updCluster 0 fun c => { c with crew := none }) (.fill (asks true none) 5 0 true false)) .l1Fill 9 0 0 .none
     s.msgs.find s.ctl.ev.a = some (.fill (asks true none) 5 0 true false) ∧ (s.cluster 0).crew = none ∧
       (s.cluster 0).l1Find 1 (2 ^ 30 / 128) = none ∧ (s.threads.find 32768).isSome = true ∧ s.ctl.need = none ∧
       (s.cluster 0).isOn = true) ∧
    (let w : WriteBack := { cluster := 0, asid := 1, tenant := 0, gtid := 0, va := 2 ^ 30, pa := 2 ^ 30, key := 0, mask := 1, data := 7, waiters := [] }
     let s := at' (withMsg (heldAt w0 (2 ^ 30)) (.wb w)) .writeBackAtHome 9 0 0 .none
     s.msgs.find s.ctl.ev.a = some (.wb w) ∧ w.unsent = false ∧ w.ac = false ∧ s.finalMove w.pa = none ∧
       (s.die (sliceOf (s.key w.pa) / 256)).refresh ≠ 2 ∧ s.seals = [] ∧ s.lineHeld (s.key w.pa) w.key ∧
       (∀ i < 128, (s.mem.tag (s.key w.pa + i)).ty = 0 ∧ (s.mem.tag (s.key w.pa + i)).mark = false)) ∧
    (let r := asks false (some [1, 2])
     let s := at' (withMsg (heldAt w0 (2 ^ 30)) (.slice r)) .sliceRequest 9 0 0 .none
     s.msgs.find s.ctl.ev.a = some (.slice r) ∧ r.ac = false ∧ r.who.isFar = false ∧ s.isLocal (2 ^ 30) = true ∧ s.finalMove (2 ^ 30) = none ∧
       s.lineHeld (s.key (2 ^ 30)) r.key ∧ s.objBusy (s.key (2 ^ 30)) r.first = false ∧ s.seals = [] ∧
       (∀ i < 2, (s.mem.tag (2 ^ 30 + i)).ty = 0 ∧ (s.mem.tag (2 ^ 30 + i)).mark = false) ∧
       (s.die (sliceOf (s.key (2 ^ 30)) / 256)).refresh ≠ 2) ∧
    (let r := asks false none
     let s := at' (withMsg w0 (.slice r)) .sliceRequest 9 0 0 .none
     let h := at' (withMsg (heldAt w0 (2 ^ 30)) (.slice r)) .sliceRequest 9 0 0 .none
     (s.slice (sliceOf (s.key (2 ^ 30)))).lines.contains (s.key (2 ^ 30) / 128) = false ∧ s.lineFresh (2 ^ 30) r.key ∧
       r.split = none ∧ r.got = [] ∧ r.bad = none ∧ s.mem.sound (2 ^ 30) 8 ∧ s.wbPending r = false ∧ s.objBusy (2 ^ 30) 8 = false ∧
       (s.agentCluster (.thread 32768)).isSome = true ∧ s.agentTenant (.thread 32768) = 0 ∧
       h.msgs.find h.ctl.ev.a = some (.slice r) ∧ h.lineHeld (2 ^ 30) r.key) ∧
    (let r : FaultRec := { tenant := 3, cause := 0x40, kind := 4 }
     let s := at' (w0.updDie 0 fun d => { d with faults := [r] }) .faultRecordDeferred 0 0 0 .none
     let q := s.updDev fun d => { d with fqs := d.fqs.set 3 ⟨0x1000, 4⟩ }
     (s.die s.ctl.ev.a).faults = [r] ∧ (s.die 0).unmade = [] ∧ (s.putFault r).isNone = true ∧ (q.putFault r).isSome = true) := by
  unfold State.lineHeld State.lineFresh Memory.sound
  decide +kernel

theorem met_SliceRowResults_merge :
    let h := at' (withMsg (withL1 w0 [dirtyAt (2 ^ 30)]) (.fill (asks true none) 5 0 false false)) .l1Fill 9 0 0 .none
    h.ctl.need = none ∧ h.ctl.ev.b ≠ 1 ∧ (h.cluster 0).isOn = true ∧ (h.cluster 0).crew.map (·.asid) = some (asks true none).asid ∧
      (h.cluster 0).l1Find 1 (2 ^ 30 / 128) = some (dirtyAt (2 ^ 30)) := by
  decide +kernel

/-- A line that an acquire has passed (R147): it stands in the L1 when the thread that asked goes on, and is gone after. -/
def passedFill : State := at' (withMsg w0 (.fill { asks true none with passed := true } 5 0 false false)) .l1Fill 9 0 0 .none

theorem met_SliceRowResults_passed :
    let t := match exec .l1Fill passedFill with | .next t => t | _ => passedFill
    let u := match exec .l1Fill (at' t .l1Fill 9 1 0 .none) with | .next u => u | _ => t
    passedFill.ctl.ev.b ≠ 1 ∧ ((t.cluster 0).l1Find 1 (2 ^ 30 / 128)).isSome = true ∧
      t.ctl.agenda.map (·.2) = [.resume 32768, .ev ⟨.l1Fill, 9, 1, 0, .none⟩] ∧
      ((u.cluster 0).l1Find 1 (2 ^ 30 / 128)).isNone = true ∧ u.msgs.find 9 = none := by
  decide +kernel

theorem met_SliceRowResults_admits : (withMsg w0 (.slice (asks false none))).admits 0 := w0_admits rfl rfl rfl rfl

theorem met_HomeRowResults :
    (let s := at' (withMsg counterAt (.home (cntReq (.cntAdd 3)))) .eftOperation 9 0 0 .none
     let k := s.reqKey (cntReq (.cntAdd 3))
     s.msgs.find s.ctl.ev.a = some (.home (cntReq (.cntAdd 3))) ∧ (cntReq (.cntAdd 3)).ac = false ∧ s.finalMove (2 ^ 31) = none ∧
       k = 2 ^ 31 ∧ (s.die (sliceOf k / 256)).refresh ≠ 2 ∧ (s.obj k).busy = false ∧ (s.obj k).waiters = [] ∧ s.waitsFor k = [] ∧
       s.lineHeld k 0 ∧ s.isType k 1 = true ∧ s.mem.sound k 32 ∧ s.word k = 5 ∧ s.cleanAt 0 1 (2 ^ 31) ∧ s.ctl.need = none ∧
       (s.agentCluster (.thread 32768)).isSome = true) ∧
    (let v : Reservation := ⟨2 ^ 30, 8, 0, 1, 0, cntReq .free, some 1, false, 4⟩
     let sl := sliceOf (2 ^ 30)
     let s := at' (w0.updSlice sl fun x => { x with rsv := [v] }) .reservationRevocation sl 4 0 .none
     s.slices.findSome? (fun x => (x.2.rsv.find? (·.stamp == s.ctl.ev.b)).map fun v => (x.1, v)) = some (sl, v) ∧
       ∀ u ∈ ((heldAt s (2 ^ 30)).slice (sliceOf v.pa)).rsv, u.pa = v.pa → (heldAt s (2 ^ 30)).lineHeld u.pa u.req.key) ∧
    (let w : Waiter := ⟨cntReq (.waitGe 9), 0, false, false⟩
     let s := at' (counterAt.updObj (2 ^ 31) fun o => { o with waiters := [w], reading := true }) .overflowChainRead (2 ^ 31) 0 0 .none
     s.isType s.ctl.ev.a 2 = false ∧ (s.obj s.ctl.ev.a).waiters = [w] ∧
       field (s.word (s.ctl.ev.a + 8)) 54 5 < s.limit s.ctl.ev.a ∧ s.storeUse s.ctl.ev.a < 2048 ∧ s.waitsFor s.ctl.ev.a = []) ∧
    (let s := withMsg counterAt (.home (cntReq (.cntAdd 3)))
     let s := { s with msgs := s.msgs.set 8 (.home (cntReq (.cntAdd 4))) }
     let s := at' ((s.later 8 .eftOperation 9 0 0).later 8 .eftOperation 8 0 0) .omegaCombine 9 8 0 .none
     (Msg.home (cntReq (.cntAdd 3))).requests ≠ [] ∧ s.scheduled .eftOperation 9 = true ∧ s.scheduled .eftOperation 8 = true ∧
       s.msgs.find 8 = some (.home (cntReq (.cntAdd 4)))) ∧
    (let s := at' (withMsg w0 (.append logEntry (.thread 32768))) .logAppendArrival 9 0 0 .none
     let sl := sliceOf (s.key logEntry.pa)
     s.msgs.find 9 = some (.append logEntry (.thread 32768)) ∧ s.logFull sl (s.slice sl).log.length = false ∧ (s.slice sl).logWait = [] ∧
       s.logFull sl (2 ^ 26) = true) ∧
    (let s := at' (w0.updSlice 5 fun x => { x with logWait := [({ logEntry with seq := 6 }, .thread 32768)] }) .logAreaFullTimeout 5 6 0 .none
     (s.slice s.ctl.ev.a).logWait.find? (·.1.seq == s.ctl.ev.b) = some ({ logEntry with seq := 6 }, .thread 32768) ∧
       s.dev.fqs = [] ∧ (s.die 0).faults.length < 256) := by
  unfold State.lineHeld State.cleanAt Memory.sound
  decide +kernel

/-- A request over two principal nodes at 1 GiB. -/
def pairReq : HomeReq :=
  { who := .nobody, op := .free, va := 2 ^ 30, pa := 2 ^ 30, segBase := 2 ^ 30, segLimit := 2 ^ 20, asid := 1 }

/-- Two principal nodes at 1 GiB, mapped, and the check of their link; their line is held. -/
def nodes : State :=
  let s := heldAt mapped (2 ^ 30)
  let m := (s.mem.setTag (2 ^ 30) ⟨7, false, true⟩).setTag (2 ^ 30 + 32) ⟨7, false, true⟩
  withMsg { s with mem := m } (.pairCheck 0 32 pairReq true)

theorem met_HomeRowResults_node : (at' nodes .pairCheck 9 0 0 .none).node pairReq 0 = .node (2 ^ 30) (2 ^ 30) (2 ^ 30) 0 := by
  have h : (match (at' nodes .pairCheck 9 0 0 .none).node pairReq 0 with
    | .node k pa va key => k == 2 ^ 30 && pa == 2 ^ 30 && va == 2 ^ 30 && key == 0
    | _ => false) = true := by decide +kernel
  generalize (at' nodes .pairCheck 9 0 0 .none).node pairReq 0 = x at h ⊢
  cases x <;> simp_all

theorem met_HomeRowResults_pairs :
    let s := at' nodes .pairCheck 9 0 0 .none
    s.msgs.find s.ctl.ev.a = some (.pairCheck 0 32 pairReq true) ∧ s.pond 0 = none ∧ s.ctl.need = none ∧
      pairReq.who = .nobody ∧ s.lineHeld (2 ^ 30) 0 ∧ s.mem.sound (2 ^ 30) 32 ∧
      bit (s.word (2 ^ 30 + 8)) 60 = false ∧ (s.cluster pairReq.cluster).pool.pairs.length < 65536 := by
  unfold State.lineHeld Memory.sound
  decide +kernel

/-- The state with a job. -/
def withJob (s : State) (j : Nat) (x : Job) : State := { s with jobs := s.jobs.set j x }

/-- A job of `w0`'s thread with a command. -/
def jobOf (e : Engine) (ws : Vector Word 4) : Job :=
  { eng := e, core := 0, tid := 32768, id := 1, pond := 1, gtid := 0, tenant := 0, asid := 1, cmd := ws }

/-- A job of the acting thread that stands in its queue, by its ID. -/
theorem met_ObservationResults_drop :
    let id := 0x6FF0 / 16 * 32
    let s := withJob (withRecord 0x6FF0 (id * 2 ^ 48)) 1 { jobOf .mx #v[1, 0x10000800, 0x2000000000, 0] with id := id }
    s.Issues 0 ∧ (s.val (.g 1)).toNat % 2 ^ 16 = id ∧ field (s.recordWord s.me.core 0x6FF0) 48 16 = id ∧
      (s.jobs.find? fun j => j.2.tcmCore == s.me.core && j.2.pond == s.me.ident.pond && j.2.id == id && !j.2.finished).isSome = true ∧
      s.matrixJobs s.me.core ≠ [] := by
  unfold State.Issues State.Ready
  decide +kernel

/-- An MMA.F4: A at 0x800, its scales at 0x1000, B at 0, its scales at 0x2000. -/
def mmaJob : Job := jobOf .mx #v[1, 0x10000800, 0x2000000000, 0]

/-- `w0` with the MMA.F4 selected, its fill ended. -/
def mmaState : State := (withJob w0 1 mmaJob).updCluster 0 fun c => { c with mx := { c.mx with selected := some 1 } }

/-- A QMMA of a pond of two clusters by two, selected by all four, their rings filled. -/
def quadState : State :=
  let s := withJob (w0.updPond 1 fun p => { p with w := 2, h := 2 }) 1 (jobOf .qd #v[8, 0x10000800, 0x2000000000, 0])
  [(0, 0), (1, 0), (0, 1), (1, 1)].foldl (fun s p => s.updCluster (clusterAt p.1 p.2) fun c => { c with
    crew := (w0.cluster 0).crew, mx := { c.mx with selected := some 1, filled := true } }) s

/-- A copy of 128 bytes of TCM. -/
def copyJob : Job :=
  { jobOf .cp #v[0x10, 0x800, 0x1000, 128] with src := ⟨plainSeg 0 0x7000 .tcm false false, 0x800⟩, dst := ⟨plainSeg 0 0x7000 .tcm false false, 0x1000⟩ }

/-- The copy in the hart. -/
def copyState (x : Job) : State := (withJob w0 1 { x with accepted := true, phase := 2 }).updCluster 0 fun c => { c with
  copy := { c.copy with active := [1] } }

theorem met_EngineRowResults_selection :
    (let s := at' ((withJob w0 1 mmaJob).updCluster 0 fun c => { c with mx := { c.mx with quadNext := some 1 } }) .engineSelection 0 0 0 .none
     s.job 1 = some mmaJob ∧ s.mem.oneBit = [] ∧ s.mem.lostBits = [] ∧ s.ctl.ev.a = mmaJob.core / 8 ∧ (s.cluster 0).mx.selected = none ∧ (s.cluster 0).mx.quadNext = some 1) ∧
    (let s := at' ((withJob w0 1 mmaJob).updCluster 0 fun c => { c with mx := { c.mx with
       queues := c.mx.queues.set 0 [1] } }) .engineSelection 0 0 0 .none
     (s.cluster 0).mx.selected = none ∧ (s.cluster 0).mx.quadNext = none ∧ s.nextCore 0 = some (0, 1) ∧
       mmaJob.illegal = false ∧ mmaJob.eng = .mx ∧ s.mxCheck 0 mmaJob = 0) ∧
    (let s := at' mmaState .quadSignal 1 1 0 .none
     s.ctl.ev.b = 1 ∧ s.heldAtIssuer 1 = true ∧ (withJob w0 1 mmaJob).heldAtIssuer 1 = false) := by
  decide +kernel

theorem met_EngineRowResults_matrix :
    (let s := at' mmaState .mmaF4 1 0 0 .none
     s.job 1 = some mmaJob ∧ s.ctl.ev.a = 1 ∧ (s.cluster 0).mx.current = none ∧ (s.cluster 0).mx.selected = some 1 ∧
       (s.cluster 0).mx.filled = false ∧ (s.cluster 0).mx.fillEnd ≤ s.ctl.cycle ∧ s.bWaits 0 0 mmaJob = false ∧ s.modeBad 0 mmaJob = false ∧
       s.aWaits 0 mmaJob = false ∧ s.mem.firstPoison (tcmKey mmaJob.core (wf mmaJob.cmd[1] 0 16)) 32 = none) ∧
    (let s := at' quadState .qmma 1 0 0 .none
     let x := jobOf .qd #v[8, 0x10000800, 0x2000000000, 0]
     let ms := [clusterAt 0 0, clusterAt 1 0, clusterAt 0 1, clusterAt 1 1]
     s.job 1 = some x ∧ s.quadOf x = some ms ∧ s.heldAtIssuer 1 = true ∧ (s.cluster (x.core / 8)).mx.current ≠ some 1 ∧
       (∀ m ∈ ms, s.mayAccept m 1 = true) ∧ s.quadWaits ms x = false ∧ s.quadError ms x = 0) := by
  decide +kernel

theorem met_EngineRowResults_copy :
    (let x := { copyJob with cmd := #v[0x810, 0, 0, 0] }
     let s := at' (withJob w0 1 x) .cp1d 1 0 0 .none
     s.job 1 = some x ∧ s.ctl.ev.a = 1 ∧ x.illegal = true) ∧
    (let s := at' (withJob w0 1 copyJob) .cp1d 1 0 0 .none
     s.ctl.ev.a = 1 ∧ copyJob.illegal = false ∧ copyJob.preErr = 0 ∧ copyJob.eng = .cp ∧ copyJob.sgm = 0 ∧ copyJob.ty = 0x10) ∧
    (let x := jobOf .cp #v[0x12, 0, 0, 0x800]
     x.illegal = false ∧ x.preErr = 0 ∧ x.ty = 0x12 ∧ x.cnt = 0 ∧ x.idx % 8 = 0 ∧ x.idx + 8 * x.cnt ≤ 0x7000) ∧
    (let x := { copyJob with accepted := true, phase := 2 }
     let s := at' (copyState copyJob) .copyUnit 0 0 0 .none
     s.job 1 = some x ∧ s.ctl.ev.a = 0 ∧ (s.cluster 0).copy.stopped = [] ∧ (s.cluster 0).copy.nextAt ≤ s.ctl.cycle ∧
       s.movableFrom 0 = [1] ∧ x.phase = 2 ∧ x.unit < x.units ∧ x.dst.seg.space = .tcm ∧ x.ty = 0x10 ∧ x.src.seg.space = .tcm ∧
       s.mem.sound (s.jobKey x (x.src.seg.base.toNat + x.src.off + (x.unitAt x.unit).2.1)) (x.unitAt x.unit).2.2) ∧
    (let x := { copyJob with cmd := #v[0x14, 0xAB, 0x1000, 100], accepted := true, phase := 2 }
     let s := at' (copyState { copyJob with cmd := #v[0x14, 0xAB, 0x1000, 100] }) .copyUnit 0 0 0 .none
     s.job 1 = some x ∧ s.movableFrom 0 = [1] ∧ x.unit < x.units ∧ x.ty = 0x14) ∧
    (let x := { copyJob with accepted := true, phase := 2 }
     let s := at' (copyState copyJob) .jobCompletion 1 0 0 .none
     s.ctl.ev.a = 1 ∧ x.eng = .cp ∧ s.mustWait 0 (scopeOf x.csc) = false ∧ s.copyHeld 1 x = false ∧
       ∀ u ∈ s.threads, u.2.cont = .none) := by
  unfold Memory.sound
  decide +kernel

/-- A collective of 4 elements of group 5, and the core that contributes. -/
def clJob : Job := { jobOf .cl #v[0x22 + 5 * 2 ^ 38, 0, 0, 4] with src := ⟨plainSeg 0 0x7000 .tcm false false, 0x800⟩ }

/-- A group that is ready: integers of 32 bits, core 0 contributes, root, delivery at 0x800. -/
def group5 : Vector Word 4 := #v[BitVec.ofNat 64 (2 ^ 62 + 2 * 2 ^ 56 + 255 * 2 ^ 40 + 2 ^ 16 + 0x80), 0, 0, 0]

/-- It is group 5 at router 0. -/
def groupState : State := w0.updGroups 0 fun g => { g with entries := g.entries.set 5 group5 }

/-- A GSTORE's contribution of core 0. -/
def gpart : Contribution := { router := 0, group := 5, key := 0, vals := [7], flg := 0, who := .nobody, tenant := 0, num := 0, sig := 0 }

theorem met_GroupRowResults :
    (let s := at' (withJob w0 1 clJob) .clAllreduce 1 0 0 .none
     s.job s.ctl.ev.a = some clJob ∧ clJob.illegal = false ∧ clJob.preErr = 0 ∧
       geState (s.groupEntry (clJob.core / 2048) clJob.group) = 0) ∧
    (let s := at' (withJob groupState 1 clJob) .clAllreduce 1 0 0 .none
     s.groupEntry (clJob.core / 2048) clJob.group = group5 ∧ geState group5 = 1 ∧
       (geLocals group5).contains (clJob.core % 2048) = true ∧
       min clJob.chunk clJob.elems * fmtBytes (geFmt group5) ≤ 4096) ∧
    (let x := { clJob with accepted := true, phase := 2 }
     let s := at' ((withJob groupState 1 x).updCore 0 fun c => { c with clCur := some 1 }) .clChunk 0 0 0 .none
     (s.core s.ctl.ev.a).clCur = some 1 ∧ s.job 1 = some x ∧ x.core = s.ctl.ev.a ∧ x.phase = 2 ∧ x.pending = 0 ∧ x.inbox = [] ∧
       geState (s.groupEntry 0 x.group) = 1 ∧
       x.done < x.chunks ∧ x.sent < x.chunks ∧ x.sent < x.done + 4 ∧ x.src.seg.space = .tcm ∧ 0 < x.chunkElems x.sent ∧
       s.mem.sound (s.jobKey x (x.src.seg.base.toNat + x.src.off)) (4 * x.chunkElems x.sent) ∧ geState (s.groupEntry 0 x.group) ≠ 0 ∧
       ({ x with done := 1 } : Job).done = ({ x with done := 1 } : Job).chunks) ∧
    (let s := at' (withMsg groupState (.contribution gpart)) .groupContribution 9 0 0 .none
     s.msgs.find s.ctl.ev.a = some (.contribution gpart) ∧ gpart.who = .nobody ∧ gpart.ack = .nobody ∧
       member (s.routerMap gpart.router) gpart.tenant = true ∧ s.groupEntry gpart.router gpart.group = group5 ∧
       (geKeys gpart.router group5).contains gpart.key = true ∧ geTen group5 = gpart.tenant ∧ gePar group5 = 0xFF) ∧
    (let d : Delivery := { router := 0, group := 5, num := 0, vals := [7], flg := 0, err := 0, tenant := 0, store := true }
     let p : Part := { key := 0, vals := [7], flg := 0, who := .nobody, num := 0, sig := 0, err := 0 }
     let s := at' (withMsg (groupState.updGroups 0 fun g => { g with rounds := [⟨5, 0, [p], true⟩] }) (.delivery d)) .groupDelivery 9 0 0 .none
     s.msgs.find s.ctl.ev.a = some (.delivery d) ∧ d.ack = .nobody ∧ member (s.routerMap d.router) d.tenant = true ∧
       (s.groupsAt d.router).round d.group d.num = some ⟨5, 0, [p], true⟩ ∧
       p.key < 0x10000 ∧ p.who = .nobody ∧ d.err = 0 ∧ s.groupEntry d.router d.group = group5 ∧ geCtr group5 = 0 ∧
       (match s.crewPlace .nobody (2048 * d.router + p.key) p.chunk with | .ok k => k == 0 | .error _ => false) = true) ∧
    (let e := group5.set 0 (putField group5[0] 62 2 2)
     let s := w0.updGroups 0 fun g => { g with entries := g.entries.set 5 e, rounds := [⟨5, 0, [], false⟩] }
     geState e = 2 ∧ s.roundOpen 5 gpart.num = true) := by
  unfold Memory.sound
  decide +kernel

/-- A packet at router 0 that carries message 7 to cluster 1. -/
def pkt : Pkt := { vc := 1, flits := 2, tenant := 0, src := 0, dst := 1, msg := 7 }

/-- The packet in flight, at the head of the local input's buffer of its VC. -/
def packetState (p : Pkt) : State := (withMsg w0 (.torus p)).updRouter 0 fun r => { r with bufs := r.bufs.set 1 [9] }

/-- A handler message to core 0 from `w0`'s thread. -/
def netMsg : NetMsg := { header := BitVec.ofNat 64 (5 * 2 ^ 16), payload := [7], sender := .thread 32768, asked := true }

/-- A remote load and a remote store of 8 bytes of core 0's TCM. -/
def remoteOf (v : Option Word) : Remote := ⟨.thread 32768, 0, 0, .tcm, 0x800, 8, false, v⟩

/-- Its request at the head of core 0's interface queue. -/
def remoteState (v : Option Word) : State := (withMsg w0 (.remote (remoteOf v))).updCore 0 fun c => { c with
  net := { c.net with remote := [9] } }

/-- The pond of `w0` with a probe that started, its counter of value 5 at 2 GiB. -/
def probeState (n : Nat) : State := counterAt.updPond 1 fun p => { p with
  w := n, probe := { starts := [cntReq (.cntAdd 1)], token := some (0, 0, false) } }

theorem met_NetworkRowResults_torus :
    (let s := at' (withMsg w0 (.torus pkt)) .packetArrival 0 9 0 .none
     s.msgs.find s.ctl.ev.b = some (.torus pkt) ∧ s.ctl.ev.c = 0 ∧ member (s.router 0).bitmap pkt.tenant = true) ∧
    (let s := at' (withMsg (w0.updRouter 0 fun r => { r with bitmap := 0 }) (.torus pkt)) .packetArrival 0 9 0 .none
     s.msgs.find s.ctl.ev.b = some (.torus pkt) ∧ member (s.router 0).bitmap pkt.tenant = false) ∧
    (let s := at' ((packetState pkt).updRouter 0 fun r => { r with agelim := 0 }) .packetPromotion 0 9 1 .none
     s.msgs.find s.ctl.ev.b = some (.torus pkt) ∧ ((s.router 0).buf s.ctl.ev.c).head? = some s.ctl.ev.b ∧
       pkt.since + (s.router 0).agelim ≤ s.ctl.cycle) ∧
    (let s := at' ((packetState pkt).updPond 1 fun p => { p with w := 2 }) .packetGrant 0 ((packetState pkt).hopOf 0 pkt).1 0 .none
     (TorusOut.grant { (s.router 0).outs.get {} s.ctl.ev.b with scheduled := false } s.ctl.ev.b (s.router 0).weights
       (s.cands 0 s.ctl.ev.b)).isSome = true ∧ s.ctl.ev.b ≠ 0) ∧
    (let p := { pkt with dst := 0 }
     let s : State := { packetState p with msgs := (packetState p).msgs.set 7 (.reply (.thread 32768) {}) }
     let s := at' s .packetGrant 0 0 0 .none
     (TorusOut.grant { (s.router 0).outs.get {} 0 with scheduled := false } 0 (s.router 0).weights (s.cands 0 0)).map (·.1.id) = some 9 ∧
       s.ctl.ev.b = 0 ∧ p.msg ≠ 9 ∧ s.msgs.find p.msg = some (.reply (.thread 32768) {})) := by
  decide +kernel

theorem met_NetworkRowResults_messages :
    (let s := at' (withMsg w0 (.net netMsg 0)) .messageArrival 9 0 0 .none
     s.msgs.find s.ctl.ev.a = some (.net netMsg 0) ∧ netMsg.sender = .thread 32768 ∧ hdrDev netMsg.header = s.dev.id ∧
       hdrKind netMsg.header = 0 ∧ s.hostsTask 0 netMsg = true ∧ hdrHnd netMsg.header ≤ 239 ∧ (s.core 0).net.hUsed + 16 ≤ 2048 ∧
       (s.core 0).net.hTail + 16 ≤ 2048 ∧ (s.core 0).net.running = none) ∧
    (let s := at' (withMsg w0 (.net { netMsg with gtid := 3 } 0)) .messageArrival 9 0 0 .none
     s.hostsTask 0 { netMsg with gtid := 3 } = false ∧ netMsg.asked = true ∧ (s.agentCluster netMsg.sender).isSome = true) ∧
    (let s := at' (withMsg (w0.updCore 0 fun c => { c with net := { c.net with hUsed := 2040 } }) (.net netMsg 0)) .messageArrival 9 0 0 .none
     s.hostsTask 0 netMsg = true ∧ 2048 < (s.core 0).net.hUsed + 16) ∧
    (let s := withMsg w0 (.net netMsg 0)
     let s := at' { s with msgs := s.msgs.set 8 (.refusal 9) } .messageRetry 8 0 0 .none
     s.msgs.find s.ctl.ev.a = some (.refusal 9) ∧ s.msgs.find 9 = some (.net netMsg 0) ∧ netMsg.refusals < 63) ∧
    (let s := at' (w0.updCore 0 fun c => { c with net := { c.net with sUsed := 8 } }) .streamMessageMove 0 0 0 .none
     (s.core 0).net.sUsed ≠ 0 ∧ (s.core 0).net.sSkip = 0 ∧
       (s.core 0).net.rx.length + (s.ringWords 0 0x6800 (s.core 0).net.sHead).1.length ≤ 64) ∧
    (let s := w0.updCore 0 fun c => { c with net := { c.net with hUsed := 8 } }
     let s : State := { s with mem := s.mem.write (tcmKey 0 0) [0, 1] }
     let s := at' s .handlerStart 0 0 0 .none
     (s.cluster 0).crew = (w0.cluster 0).crew ∧ (s.cluster 0).crew.isSome = true ∧ (s.core 0).net.hUsed ≠ 0 ∧ (s.core 0).net.hSkip = 0 ∧ (s.core 0).net.running = none ∧
       (s.thread 1).run ≠ .faulted ∧
       (let r := s.ringWords 0 0x6000 (s.core 0).net.hHead
        ((r.2.kTouch 0 (hdrHnd (wordAt r.1 0))).kEntry 0 (hdrHnd (wordAt r.1 0))).toNat % 2 ^ 32 = 0x100)) ∧
    (∀ c, (w0.cluster 0).crew = some c → ∀ i < 5, Lr.sel c.launch i % 256 = 0) := by
  refine ⟨by decide +kernel, by decide +kernel, by decide +kernel, by decide +kernel, by decide +kernel, by decide +kernel, ?_⟩
  intro c hc
  cases Option.some.inj ((show (w0.cluster 0).crew = some _ from rfl).symm.trans hc)
  decide +kernel

theorem met_NetworkRowResults_remote :
    (let s := at' (remoteState (some 7)) .remoteAccessService 0 0 0 .none
     s.ctl.ev.b = 0 ∧ (s.core 0).net.remote = [9] ∧ s.msgs.find 9 = some (.remote (remoteOf (some 7))) ∧ s.remoteBad (remoteOf (some 7)) = 0 ∧
       s.dev.dumps.find 0 = none ∧ (s.core 0).storeWaits 0x800 8 = false) ∧
    (let s := at' (remoteState none) .remoteAccessService 0 0 0 .none
     s.msgs.find 9 = some (.remote (remoteOf none)) ∧ s.remoteBad (remoteOf none) = 0 ∧ (s.core 0).loadWaits 0x800 8 = false ∧
       s.mem.sound (tcmKey 0 0x800) 8 ∧ (s.agentCluster (remoteOf none).who).isSome = true) := by
  unfold Memory.sound
  decide +kernel

theorem met_NetworkRowResults_probe :
    (let s := at' (probeState 2) .probeToken 1 0 0 .none
     (s.pond 1).map (·.probe.token) = some (some (0, 0, false)) ∧ (s.pond 1).map (fun x => (x.suspended, x.isEnded, x.clusters.length)) = some (false, false, 2)) ∧
    (let s := at' (probeState 1) .probeToken 1 0 0 .none
     (s.pond 1).map (·.probe.token) = some (some (0, 0, false)) ∧ (s.pond 1).map (fun x => (x.clusters.length, s.roundsOpen x)) = some (1, false) ∧
       (s.cluster 0).probe.black = false ∧ s.ifBusy 0 = false ∧ (0 : Word) + (s.cluster 0).probe.count = 0) ∧
    (let s := at' (probeState 1) .phaseEnd 1 0 0 .none
     let r := cntReq (.cntAdd 1)
     (s.pond 1).map (fun x => (x.probe.starts, x.logDevs, s.merging x)) = some ([r], [], false) ∧ s.ctl.ev.b = 0 ∧ s.ctl.need = none ∧
       (s.pond 1).map (fun x => (x.suspended, s.recycling x)) = some (false, false) ∧ s.seals = [] ∧
       (s.slices.all fun x => x.2.log.isEmpty) = true ∧ (s.cluster 0).pool.limbo = [] ∧ s.retiring = [] ∧
       s.lineHeld (s.reqKey r) r.key ∧ s.mem.sound (s.reqKey r) 32 ∧
       s.isLocal r.pa = true ∧ s.isType (s.reqKey r) 1 = true ∧ (s.obj (s.reqKey r)).waiters = []) := by
  unfold State.lineHeld Memory.sound
  refine ⟨?_, ?_, ?_⟩ <;> decide +kernel

/-- A launch record, and a queue that holds it ready. -/
def launch0 : LaunchRec := ⟨0x100, 0, 0, 0, 0, 0, 0, 0⟩
def qrec : QRec := { launch := launch0, tenant := 0, seq := 0, dep := .met, image := some [] }
def queue0 (r : QRec) : LaunchQueue := { cfg := ⟨true, 0, 3, 16, 2, 0, 1, 1⟩, recs := [r] }
def queueState (r : QRec) : State := w0.updDev fun d => { d with queues := [(3, queue0 r)] }

/-- The pond of `w0` as it stands before its start. -/
def starting : State := w0.updPond 1 fun p => { p with state := .starting, launch := launch0, live := 1 }

/-- A read of 8 bytes of this device's memory by agent 4 of device 9. -/
def fpkt : FabricPacket := ⟨0, 9, 0, false, 0, 0x01, 3, 0, 2 ^ 30, 8, 4, []⟩

/-- Such a packet on its way out, which carries message 9 and was last sent by port 2. -/
def keptOut : Outbound := { p := { fpkt with sdev := 0, ddev := 9 }, xd := 0, carried := 9, last := 2 }

/-- A request of agent 4 that is outstanding as number 3, kept at port 2. -/
def kept (wr : Option (List Byte)) : State :=
  let q : SliceReq := { who := .nobody, fill := false, write := wr, va := 0, pa := 2 ^ 52, n := 8, asid := 1 }
  let s := withMsg w0 (.slice q)
  let s : State := { s with msgs := s.msgs.set 8 (.fabric keptOut) }
  (s.updPort 2 fun p => { p with sent := [8] }).updDev fun d => { d with agents := d.agents.set 4 { next := 4, out := [(3, 8)] } }

theorem met_SchedulerAndFabricRowResults_scheduler :
    (let s := at' (queueState { qrec with dep := .asked }) .dependenceMet 3 1 0 .none
     (s.queue 3).recs = [{ qrec with dep := .asked }] ∧ s.ctl.ev.b = 1) ∧
    (let s := at' (queueState qrec) .headBlocking 3 0 0 .none
     s.eligible s.ctl.ev.a = some qrec ∧ qrec.blocking = none) ∧
    (let s := at' (queueState qrec) .pondPlacement 0 0 0 .none
     s.dev.queues = [(3, queue0 qrec)] ∧ (queue0 qrec).cfg.prio < 4 ∧ (queue0 qrec).recs = [qrec] ∧ qrec.dep = .met ∧
       qrec.image.isSome = true ∧ (∀ x ∈ s.clusters, x.2.l1 = []) ∧ s.mayPlace 3 0 = true ∧ s.firstFit 0 (queue0 qrec).rect (Lr.width launch0) (Lr.height launch0) = some (2, 0)) ∧
    (let s := at' starting .pondPlacement 1 0 0 .none
     (s.pond 1).map (fun p => (p.state, p.launch, p.live)) = some (.starting, launch0, 1) ∧
       (s.pond 1).map (fun p => (s.pondWbs p, p.w, p.h, Lr.crew p.launch)) = some (false, 1, 1, 1)) ∧
    (let s := at' (w0.updPond 1 fun p => { p with live := 0 }) .pondEnd 1 0 0 .none
     (s.pond 1).map (fun p => (p.state, p.aborted, p.live, s.appending p, Lr.don p.launch)) = some (.running, false, 0, false, false) ∧
       s.ctl.need = none ∧ s.seals = [] ∧
       (s.pond 1).map (fun p => (p.logDevs, s.merging p)) = some ([], false) ∧ s.jobs = [] ∧
       s.slices = [] ∧ s.retiring = []) := by
  decide +kernel

theorem met_SchedulerAndFabricRowResults_fabric :
    (let s := at' w0 .fabricPacketArrival 2 0 0 (.fabric { fpkt with op := 11 })
     s.ctl.ev.arg = .fabric { fpkt with op := 11 } ∧ opAssigned 11 = false ∧ s.ctl.need = none) ∧
    (let s := at' w0 .fabricPacketArrival 2 0 0 (.fabric fpkt)
     opAssigned fpkt.op = true ∧ (s.fabricViolation 2 fpkt).isNone = true ∧
       fpkt.ddev = s.dev.id ∧ fpkt.op = 0x01 ∧ ((s.dedupOf fpkt).look fpkt.seq fpkt.ackt).1 = .fresh ∧
       let t := s.setDedup fpkt { seen := [(3, none)] }
       ((t.dedupOf fpkt).look fpkt.seq fpkt.ackt).1 = .parked) ∧
    (let s := at' (kept (some [1])) .endToEndAcknowledgement 4 3 0 .none
     s.outstanding 4 3 = some 8 ∧ s.msgs.find 8 = some (.fabric keptOut) ∧ s.ctl.need = none ∧ (s.dev.agents.get {} 4).wait = []) ∧
    (let s := at' (kept none) .endToEndAcknowledgement 4 3 0 .none
     s.msgs.find 9 = some (.slice { who := .nobody, fill := false, write := none, va := 0, pa := 2 ^ 52, n := 8, asid := 1 })) ∧
    (let s := at' (w0.updPort 2 fun p => { p with line := [(8, 1)] }) .linkResend 2 0 0 .none
     s.ctl.ev.b ≠ 1 ∧ (s.port 2).line ≠ [] ∧ (s.port 2).resends < 8) ∧
    (let s := at' (w0.updPort 2 fun p => { p with line := [(8, 1)], resends := 8 }) .linkResend 2 0 0 .none
     (s.port 2).line ≠ [] ∧ 8 ≤ (s.port 2).resends) := by
  decide +kernel

/-- The event of a command of function `f` with tag 7. -/
def cmdAt (s : State) (k : EvKind) (f : Nat) (c : HostCmd) : State := at' s k 0 0 0 (.cmd ⟨f, 7⟩ c)

theorem met_TableCommandResults :
    (cmdAt w0 .queueSet 3 (.queueSet 1 (queue0 qrec).cfg)).ctl.ev.arg = .cmd ⟨3, 7⟩ (.queueSet 1 (queue0 qrec).cfg) ∧
      ((⟨3, 7⟩ : CmdHdr).fn ≠ 0) ∧ ((⟨0, 7⟩ : CmdHdr).fn = 0) ∧ 4095 < 4096 ∧ queueOk (queue0 qrec).cfg = true ∧
      queueOk { (queue0 qrec).cfg with cap := 0 } = false ∧ wf (2 ^ 63 : Word) 60 3 = 0 ∧ wf (2 ^ 63 : Word) 0 12 = 0 ∧
    ((w0.fn 3).mrq.length < 64 ∧ 64 ≤ ((w0.updFn 3 fun f => { f with mrq := List.replicate 64 ⟨1, 0, 3, 7, []⟩ }).fn 3).mrq.length) ∧
    (let s := w0.updFn 0 fun f => { f with ide := true }
     (w0.fn 0).ide = false ∧ (s.fn 0).ide = true ∧ s.dev.staged.find 255 = none ∧
       (s.updDev fun d => { d with staged := d.staged.set 255 9 }).dev.staged.find 255 = some 9) ∧
    (groupEntryOk 0 group5 = true ∧ groupState.groupEntry 0 5 = group5 ∧ geState group5 = 1 ∧
      geState (w0.groupEntry 0 5) = 0 ∧ geState (w0.groupEntry 9 4095) = 0) ∧
    (let s := w0.updDev fun d => { d with ponds := [] }
     s.dev.ponds = [] ∧ s.ports = [] ∧ (w0.updPort 0 fun p => { p with up := true }).ports.any (·.2.up) = true ∧
       w0.dev.ponds.any (·.2.isLive) = true) ∧
    wf (2 ^ 63 : Word) 48 15 = 0 ∧ bit (2 ^ 63 : Word).toNat 63 = true ∧ bit w0.dev.chorus.cfg.toNat 63 = false ∧
    (w0.counterSet (.slice 2048)).isNone = true ∧ (w0.counterSet (.slice 2047)).isSome = true ∧
    (w0.counterSet (.port 127)).isSome = true ∧ (w0.counterSet (.router 2057)).isSome = true := by
  decide +kernel

/-- `w0`'s thread parked under token 6. -/
def tokenState : State := (w0.updThread 32768 fun t => { t with run := .faulted }).updDev fun d => { d with
  tokens := d.tokens.set 6 ⟨.thread 32768, 0x40, 2 ^ 30, none⟩ }

/-- A page move of 64 KiB under way. -/
def move0 : Move := { old := 0, new := 2 ^ 16, size := 2 ^ 16, leaf := 2 ^ 20, ctr := 0, status := 0x40, fn := 0, tag := 7 }
def moving (m : Move) : State := w0.updDev fun d => { d with moves := [(4, m)] }

/-- The pond of `w0` in a state of its life. -/
def pondIn (x : PondState) : State := w0.updPond 1 fun p => { p with state := x }

/-- A shootdown of which two clusters have not answered; its counter of value 5 at 2 GiB. -/
def shoot0 (n : Nat) : Shoot := ⟨1, 2 ^ 30, 2 ^ 16, 2 ^ 31, n, 0, 7, none⟩

theorem met_WorkCommandResults_commands :
    (let s := cmdAt w0 .launch 0 (.launch 3 launch0)
     s.refusal (hostAsker 0) 0 3 launch0 ≠ 0 ∧ (s.entryAway (hostAsker 0) 0 launch0).isNone = true ∧ s.ctl.need = none) ∧
    (let s := (w0.updFn 2 fun f => { f with win := some (1, 2 ^ 30, 2 ^ 16) })
     s.dev.boot.lmsCount < 2 ^ 30 ∧ (s.fn 3).win = none ∧ (s.fn 2).win = some (1, 2 ^ 30, 2 ^ 16) ∧
       2 ^ 30 ≤ (w0.updDev fun d => { d with boot := { d.boot with lmsCount := 2 ^ 30 } }).dev.boot.lmsCount) ∧
    (let s := cmdAt mapped .objSet 0 (.objSet 1 (2 ^ 30) 1 0)
     field (s.dev.asids.get 0 1).toNat 52 8 = 0 ∧ (s.walk 1 0 (2 ^ 30) .object).isOk = true ∧
       (s.walk 1 0 (2 ^ 40) .object).isOk = false ∧ (match s.walk 1 0 (2 ^ 40) .object with | .error (x, _) => x != 0 | .ok _ => false) = true ∧
       (match s.walk 1 0 (2 ^ 30) .object with | .ok e => s.isLocal (e.phys (2 ^ 30)) | .error _ => false) = true ∧
       2 ^ 30 % (16 * typeGranules 1) = 0 ∧ w0.stackShut 0 = false) ∧
    (tokenState.dev.tokens.find 5 = none ∧ tokenState.dev.tokens.find 6 = some ⟨.thread 32768, 0x40, 2 ^ 30, none⟩ ∧
      (tokenState.threads.find 32768).isSome = true ∧ tokenState.isSavedThread 32768 = false ∧
      tenantOfGtid (tokenState.thread 32768).ctx.gtid = 0 ∧ (0 : Nat) ≠ 3 ∧
      (tokenState.thread 32768).cont = .none ∧ (tokenState.thread 32768).inGang = false ∧
      (let t := tokenState.updCluster 0 fun c => { c with regs := { c.regs with trapvec := 0x100 } }
       (t.cluster 0).regs.trapvec &&& 0xFFFFFFFC ≠ 0) ∧ field (tokenState.thread 32768).ctx.trw.toNat 0 8 ≠ 255) ∧
    (w0.isLocal 0 = true ∧ w0.isLocal (2 ^ 16) = true ∧ w0.stackShut 0 = false ∧ w0.stackShut (2 ^ 16) = false ∧ w0.moveBusy 0 (2 ^ 16) = false ∧ w0.mem.wf = true ∧
      (w0.updSlice 0 fun x => { x with rsv := [⟨2 ^ 12, 8, 0, 1, 0, cntReq .free, some 1, false, 4⟩] }).moveBusy 0 (2 ^ 16) = true) ∧
    ((w0.updDev fun d => { d with forwards := [(0, 2 ^ 16, 2 ^ 16)] }).dev.forwards = [(0, 2 ^ 16, 2 ^ 16)] ∧ w0.dev.forwards = []) := by
  decide +kernel

theorem met_WorkCommandResults_ponds :
    ((w0.namedPond 0 1 0).isNone = true ∧ w0.namedPond 0 0 0 = (w0.pond 1).map fun p => (1, p)) ∧ (w0.pond 1).map (·.state) = some .running ∧
    (let s := pondIn (.saved 4096)
     (s.dev.ponds.find? fun p => p.2.state == .saved 4096).map (·.1) = some 1 ∧
       (s.pond 1).map (fun p => (s.firstBlocker p.tenant, s.firstFit p.tenant (s.queue p.queue).rect p.w p.h)) = some (none, none) ∧
       s.stackShut 4096 = false ∧ (s.updDie (sliceOf (s.key 4096) / 256) fun d => { d with refresh := 2 }).stackShut 4096 = true ∧
       let t := s.updQueue 0 fun _ => { queue0 qrec with recs := [] }
       (t.pond 1).map (fun p => (t.firstBlocker p.tenant, t.firstFit p.tenant (t.queue p.queue).rect p.w p.h)) = some (none, some (2, 0))) ∧
    (w0.dev.dumps.find 3 = none ∧ (w0.die 7).paused = false ∧ (w0.cluster 2047).crew = none ∧ (w0.cluster 2047).powered = true ∧
      (w0.cluster 0).crew.isSome = true ∧
      let s := w0.updCluster 9 fun c => { c with powered := false }
      (s.cluster 9).powered = false ∧ (s.cluster 9).gatingCmd = none ∧ s.scheduled .clusterPowerUp 9 = false) := by
  decide +kernel

theorem met_WorkCommandResults_work :
    (let s := at' (counterAt.updDev fun d => { d with shoots := [(4, shoot0 2)] }) .shootdownCluster 4 0 1 .none
     s.dev.shoots.find s.ctl.ev.a = some (shoot0 2) ∧ (s.cluster 0).isOn = true ∧ s.ctl.ev.c = 1 ∧ s.homeShut (shoot0 2).ctr = false ∧
       (∀ l ∈ (s.cluster 0).l1, l.dirty = 0) ∧ s.wbInFlight 0 = false ∧
       ((s.updCluster 0 fun c => { c with powered := false }).cluster 0).isOn = false ∧ (s.fn 0).mrq.length < 64 ∧
       s.isLocal (shoot0 2).ctr = true ∧ s.isType (s.key (shoot0 2).ctr) 1 = true ∧ (s.obj (s.key (shoot0 2).ctr)).waiters = [] ∧
       s.lineHeld (s.key (shoot0 2).ctr) (s.lineKey (s.key (shoot0 2).ctr)) ∧ s.mem.sound (s.key (shoot0 2).ctr) 16 ∧
       (shoot0 2).move = none) ∧
    ((moving move0).dev.moves.find 4 = some move0 ∧ move0.final = false ∧ move0.dirty.length ≤ 64 ∧
      64 < { move0 with dirty := List.range 65 }.dirty.length ∧ move0.pass < 8 ∧ (moving move0).pageBusy move0 = false ∧
      (moving move0).stackShut move0.old = false ∧ (moving move0).stackShut move0.new = false ∧ (moving move0).stackShut move0.leaf = false ∧
      (moving move0).isLocal move0.leaf = true ∧
      { move0 with final := true, finalStart := w0.ctl.cycle }.finalStart + 3800 ≥ w0.ctl.cycle) ∧
    (let s := at' (pondIn (.preempting 0 7 4096)) .preempt 1 0 0 .none
     let u := (s.unbindAll (s.pondThreads 1)).1
     s.ctl.ev.arg = .none ∧ (s.unbindAll (s.pondThreads 1)).2 = true ∧
       (match s.pond 1 with
        | some p => p.state == .preempting 0 7 4096 && u.pondQuiet 1 p && !u.pondWbs p && !u.stackShut 4096 &&
            (p.clusters.all fun cl => (u.cluster cl).l1.all fun l => l.dirty == 0)
        | none => false) = true) ∧
    (let s := at' w0 .resume 1 0 7 .none
     s.ctl.ev.arg = .none ∧ (s.pond 1).map (fun p => (p.state, s.pondWbs p)) = some (.running, false) ∧ (s.fn 0).mrq.length < 64) ∧
    (let d : DumpState := ⟨1, 2 ^ 30, 0xA000, 0x40, 0, 7, 0, []⟩
     let s := at' ((w0.updCore 3 fun c => { c with noBind := true }).updDev fun x => { x with dumps := [(3, d)] }) .dump 3 0 0 .none
     let ended := at' s .dump 3 5 0 .none
     s.dev.dumps.find 3 = some d ∧ s.ctl.ev.arg = .none ∧ s.ctl.need = none ∧ s.ctl.ev.b = 0 ∧ s.dumpThreads 3 = [] ∧
       (let u := (s.dumpRun 3 d).1
        u.ctl.need = none ∧ u.dumpAway d = false ∧ (u.fn d.fn).mrq.length < 64) ∧
       0 < ended.ctl.ev.b ∧ ended.dumpAway d = false) := by
  unfold State.lineHeld Memory.sound
  decide +kernel

/-- An image that passes the checks of fuses that are zero, with the five components. -/
def image0 : BootImage := ⟨0, 0, true, true, 3, true, [(0, [1]), (1, [2]), (2, [3]), (3, [4]), (4, [5])]⟩

/-- The part after its boot. -/
def booted : State := w0.updDev fun d => { d with boot := { d.boot with bootok := true } }

/-- `w0` with a window of function 2 to the page at 1 GiB. -/
def windowed : State := mapped.updFn 2 fun f => { f with win := some (1, 2 ^ 30, 2 ^ 16) }

/-- Cluster 9 with a trace record, and while it is gated. -/
def traced (n : Nat) (g : Option Nat) : State := w0.updCluster 9 fun c => { c with
  trace := { c.trace with recs := [#v[1, 2, 3, 4, 5, 6, 7, 8]], ring := 0, ringSize := n, gating := g }, gatingCmd := some (0, 7) }

theorem met_HostRowResults :
    (let c : HostCmd := .devSet 5
     let s := at' booted .mcq 0 0 0 (.cmd ⟨0, 7⟩ c)
     s.ctl.ev.arg = .cmd ⟨0, 7⟩ c ∧ s.dev.boot.bootok = true ∧ (s.fn 0).mcq = [] ∧ (s.fn 0).busy = false ∧ (s.fn 0).mrqWait = [] ∧ s.barWrites 0 = false ∧ c.kind = some .devSet ∧
       State.reset.dev.boot.bootok = false ∧ (booted.updFn 0 fun f => { f with mcq := List.replicate 64 (⟨0, 7⟩, c) }).dev.boot.bootok = true ∧
       64 ≤ (List.replicate 64 c).length ∧ (s.updFn 0 fun f => { f with busy := true }).fn 0 = { busy := true }) ∧
    ((w0.fn 0).mrq = [] ∧ ((w0.putCompletion ⟨1, 0, 0, 7, []⟩).fn 0).mrq = [⟨1, 0, 0, 7, []⟩] ∧ w0.dev.meq = [] ∧
      (w0.postMeq { tenant := 0, cause := 0x83, kind := 4 }).dev.meq = [{ tenant := 0, cause := 0x83, kind := 4 }]) ∧
    (let s := at' windowed .bar2Access 2 0 0 (.bar2 0 none 8)
     let h := heldAt windowed (2 ^ 30)
     (s.fn 2).win = some (1, 2 ^ 30, 2 ^ 16) ∧ (s.fn 3).win = none ∧ 2 ^ 16 < 2 ^ 16 + 8 ∧ 0 + 8 ≤ 2 ^ 16 ∧
       (h.walk 1 0 (2 ^ 30) .hostRead).isOk = true ∧ (h.walk 1 0 (2 ^ 30) .hostWrite).isOk = true ∧ h.isLocal (2 ^ 30) = true ∧
       h.homeShut (2 ^ 30) = false ∧ h.stackShut (2 ^ 30) = false ∧ s.barAhead 2 s.ctl.ev.b = false ∧
       (h.walkBy (hostAsker 258) 1 0 (2 ^ 30) .hostRead).isOk = true ∧ (h.walkBy (hostAsker 258) 1 0 (2 ^ 30) .hostWrite).isOk = true ∧
       (s.later 8 .bar2Access 2 1 0).barAhead 2 0 = true ∧ h.seals = [] ∧ h.lineHeld (h.key (2 ^ 30)) 0 ∧ h.mem.scan (h.key (2 ^ 30)) 8 = (h.mem, 0, 0)) ∧
    ((∀ p ∈ w0.dev.ponds, p.2.tenant = 3 → p.2.isEnded = true) ∧ (queueState qrec).dev.queues.find 3 = some (queue0 qrec)) ∧
    (w0.dev.boot.check image0 = 0 ∧ w0.dev.boot.check { image0 with lmsValid := false } = 3 ∧
      (w0.updDev fun d => { d with boot := { d.boot with recovery := true } }).dev.boot.recovery = true ∧
      { w0 with flash := some image0 }.flash = some image0) ∧
    (bit w0.dev.chorus.cfg.toNat 63 = false ∧
      bit (w0.updDev fun d => { d with chorus := { d.chorus with cfg := 2 ^ 63 } }).dev.chorus.cfg.toNat 63 = true ∧ w0.dev.chorus.ringSize = 0) ∧
    (let s := at' (traced 16 none) .traceDrain 9 0 0 .none
     (s.cluster 9).trace.recs = [#v[1, 2, 3, 4, 5, 6, 7, 8]] ∧ s.ringUsed ⟨0, 16⟩ < 16 ∧ ((traced 0 none).cluster 9).trace.ringSize = 0 ∧
       (w0.cluster 9).trace.recs = [] ∧ (w0.cluster 9).trace.gating = none) ∧
    (let s := at' (traced 0 (some 5)) .traceDrainTimeout 9 0 0 .none
     (s.cluster 9).trace.gating = some 5 ∧ s.ctl.ev.b ≠ 1 ∧ (s.cluster 9).gatingCmd = some (0, 7) ∧
       (∀ l ∈ (s.cluster 9).l1, l.dirty = 0) ∧ s.wbInFlight 9 = false) := by
  unfold State.lineHeld
  refine ⟨?_, ?_, ?_, ?_, ?_, ?_, ?_, ?_⟩ <;> decide +kernel

/-- A thread about to fetch ADD g4, g6, g2. -/
def placed : State := State.reset.placeWord 0x0408C400

theorem met_StepRunsDecodedWord_due :
    State.reset.ctl.agenda.head? = some (0, .ev ⟨.boot, 0, 0, 0, .none⟩) ∧ 0 ≤ State.reset.ctl.cycle ∧ beforeBoot .boot = true ∧
      State.reset.dev.boot.bootok = false ∧ beforeBoot .wake = false ∧ placed.dev.boot.bootok = true ∧ ∀ x ∈ State.reset.dies, x.2.paused = false := by
  decide +kernel

theorem met_StepRunsDecodedWord :
    (∀ x, placed.ctl.agenda.head? = some x → placed.ctl.cycle < x.1) ∧ placed.ctl.turns = [0] ∧
      (placed.core 0).slots.toList.getD (placed.coreCycle 0 % 8) .empty = .held 32768 ∧ (placed.gangOf 32768).head? = some 32768 ∧
      (∀ u ∈ placed.gangOf 32768, placed.seated u = true) ∧ (placed.thread 32768).run = .active ∧ (placed.cluster 0).isOn = true ∧
      (∀ u ∈ placed.gangOf 32768, (placed.core (placed.thread u).core).noBind = false) ∧ placed.quantumDue 32768 = false := by
  refine ⟨fun x hx => ?_, ?_⟩
  · cases (show placed.ctl.agenda.head? = none from by rfl).symm.trans hx
  · decide +kernel

/-- The word that `placed` fetches decodes to the addition. -/
theorem met_StepRunsDecodedWord_word : decodeWord 0x0408C400 = .ok (.add 0 (.g 4) (.g 6) (.g 2)) := by rfl

theorem met_StepRunsDecodedWord_fetch :
    (match (placed.updCtl fun c => { c with turns := [] }).fetch 32768 with
      | .word w _ => w == 0x0408C400
      | _ => false) = true ∧
    (match (({ placed with clusters := placed.clusters.map fun x => (x.1, { x.2 with icache := [], tlb := [] }) } : State).updThread 32768
        fun t => { t with ctx := { t.ctx with pc := 0x100000 } }).fetch 32768 with
      | .trap c => c == 0x20
      | _ => false) = true ∧
    (match decodeWord 0xFFFFFFFF with | .error _ => true | .ok _ => false) = true := by
  decide +kernel

/-- The step from `placed` is the addition. -/
theorem test_step_runs_add :
    (match step (placed.updThread 32768 fun t => { t with ctx := { t.ctx with g := (t.ctx.g.set 6 5).set 2 7 } }) with
      | .next t => (t.thread 32768).ctx.g[4] == 12 && (t.thread 32768).ctx.pc == 4
      | _ => false) = true := by
  decide +kernel

theorem met_MemoryStaysCanonical : State.reset.mem.wf = true ∧
    (match step State.reset with | .next _ => true | _ => false) = true := by
  decide +kernel

/-! ## Words that the clauses on decoding name -/

theorem met_reserved_words :
    (let w : BitVec 32 := 0x10000203
     bits w.toNat 26 6 = 4 ∧ bits w.toNat 0 9 = 3 ∧ bits w.toNat 9 4 ≠ 0) ∧
    (let w : BitVec 32 := 0x0C00002A
     bits w.toNat 26 6 = 3 ∧ bits w.toNat 0 5 ≤ 10 ∧ bits w.toNat 5 4 ≠ 0) ∧
    (let w : BitVec 32 := 0x140007E1
     bits w.toNat 26 6 = 5 ∧ bits w.toNat 11 2 < 3 ∧ 64 < bits w.toNat 5 6 + bits w.toNat 0 5 + 1) ∧
    (let w : BitVec 32 := 0x14001D00
     bits w.toNat 11 2 = 3 ∧ 5 ≤ bits w.toNat 8 3) ∧
    (let w : BitVec 32 := 0x14001C40
     bits w.toNat 11 2 = 3 ∧ bits w.toNat 8 3 < 5 ∧ bits w.toNat 6 2 ≠ 0) ∧
    (let w : BitVec 32 := 0x68000003
     bits w.toNat 26 6 = 26 ∧ bits w.toNat 0 2 = 3 ∧ 5 ≤ bits (0x68000014 : BitVec 32).toNat 2 7) := by
  decide

/-- A word for each clause of `IllegalWords`: major 0x00; major 0x01 with minor 0x1FF; BFX of a field that ends at bit 64; PNOT with pb not
zero; ADD with rd code 15; and ADD. -/
theorem met_IllegalWords :
    (∀ r ∈ formRows, r.major ≠ bits 0x00000000 26 6) ∧
    ((∃ r ∈ formRows, r.major = bits 0x040001FF 26 6) ∧ ∀ r ∈ formRows, ¬ r.holds 0x040001FF) ∧
    ((∃ r ∈ formRows, r.major = bits 0x140007E1 26 6) ∧ overlong 0x140007E1) ∧
    (∃ r ∈ formRows, r.holds 0x10000203 ∧ ¬ overlong 0x10000203 ∧ ¬ r.clear 0x10000203) ∧
    (∃ r ∈ formRows, r.holds 0x041E0000 ∧ ¬ overlong 0x041E0000 ∧ r.clear 0x041E0000 ∧ ¬ r.coded 0x041E0000) ∧
    (∃ r ∈ formRows, r.holds 0x0668C400 ∧ ¬ overlong 0x0668C400 ∧ r.clear 0x0668C400 ∧ r.coded 0x0668C400) := by
  unfold FormRow.holds FormRow.clear FormRow.coded overlong
  refine ⟨?_, ?_, ?_, ?_, ?_, ?_⟩ <;> decide +kernel

/-! ## The spec's worked examples -/

/-- Whether an instruction on `w0` with some registers leaves this value in a register, and these flags (STATUS[31:24]). -/
def leaves (i : Instr) (l : List (Fin 10 × Word)) (r : Fin 10) (v : Word) (flags : Nat) : Bool :=
  match exec i (wg l) with
  | .next t => t.me.ctx.g[r] == v && field t.me.ctx.psw.toNat 24 8 == flags
  | _ => false

/-- The example of R127. -/
theorem test_bfi : leaves (.bfi 0 (.g 5) (.g 2) 60 3) [(5, 0x0123456789ABCDEF), (2, 0xA)] 5 0xA123456789ABCDEF 0 = true := by
  decide +kernel

/-- The table of R128: DZ is flag 1, OF flag 2. -/
theorem test_divs : leaves (.divs 0 (.g 1) (.g 2) (.g 3)) [(2, -7), (3, 2)] 1 (-3) 0 = true := by decide +kernel
theorem test_rems : leaves (.rems 0 (.g 1) (.g 2) (.g 3)) [(2, -7), (3, 2)] 1 (-1) 0 = true := by decide +kernel
theorem test_div : leaves (.div 0 (.g 1) (.g 2) (.g 3)) [(2, 0xFFFFFFFFFFFFFFF9), (3, 2)] 1 0x7FFFFFFFFFFFFFFC 0 = true := by
  decide +kernel
theorem test_divs_corner : leaves (.divs 0 (.g 1) (.g 2) (.g 3)) [(2, 0x8000000000000000), (3, -1)] 1 0x8000000000000000 4 = true := by
  decide +kernel
theorem test_rem_zero : leaves (.rem 0 (.g 1) (.g 2) (.g 3)) [(2, 13)] 1 13 2 = true := by decide +kernel

/-- The example after R199. -/
theorem test_vadds : leaves (.vadds 0 (.g 1) (.g 2) (.g 3) .h) [(2, 0x7FF0000180000005), (3, 0x0020FFFFFFFF0003)] 1
    0x7FFF000080000008 128 = true := by decide +kernel
theorem test_vadd : leaves (.vadd 0 (.g 1) (.g 2) (.g 3) .h) [(2, 0x7FF0000180000005), (3, 0x0020FFFFFFFF0003)] 1
    0x801000007FFF0008 0 = true := by decide +kernel

/-- The example after R205. -/
theorem test_vf4blk : leaves (.vf4blk 0 (.g 5) (.g 1) (.g 2) .bh) [(1, 0x3FF0C0703EA03F20), (2, 0xBEA03FA03F700000)] 5
    0x0000004894305F12 0 = true := by decide +kernel

/-- The example after R70: the block of R61 against ones, accumulated. -/
theorem test_accF4 : accF4 {} (0x48, fp4Block [0x12, 0x5F, 0x30, 0x94]) (0x60, fp4Block [0x22, 0x22, 0x22, 0x22]) =
    ({ val := 0xF000 }, 0) := by decide +kernel

/-- Its drain with the band scales 2.0 and 0.5, in FP32 and in BF16. -/
theorem test_drain : (((drainFixed fp32 { val := 0xF000 } (bf16.read 0x4000) (bf16.read 0x3F00)).run { frm := rne, srg := 0 }).1,
    ((drainFixed bf16 { val := 0xF000 } (bf16.read 0x4000) (bf16.read 0x3F00)).run { frm := rne, srg := 0 }).1) =
    (0x3F700000, 0x3F70) := by decide +kernel

/-- The round trip's hypotheses are met: ADD r4, r6, r2 is well formed and its word is the one R128's table gives. -/
theorem met_EncodingRoundTrip : WellFormed (.add 0 (.g 4) (.g 6) (.g 2)) = true ∧
    encode (.add 0 (.g 4) (.g 6) (.g 2)) = some 0x0408C400 := by decide +kernel

end Sys2Proof.Tests
end

section
/-! SUPPORT. Values of majors 0x03 to 0x06 as R127 to R130 state them, and the bits of the status word. -/
namespace Sys2Proof.Machine

theorem bit_toNat (w : Word) (i : Nat) : bit w.toNat i = w.getLsbD i := by
  rw [BitVec.getLsbD, Nat.testBit_eq_decide_div_mod_eq]; rfl

/-- A field put into a word, bit by bit: the bound on `i` is the word's, so that a field may reach past bit 63. -/
theorem putField_getLsbD (w : Word) (lo n v : Nat) {i : Nat} (hi : i < 64) :
    (putField w lo n v).getLsbD i = if lo ≤ i ∧ i < lo + n then v.testBit (i - lo) else w.getLsbD i := by
  simp only [putField, BitVec.getLsbD_or, BitVec.getLsbD_and, BitVec.getLsbD_not, BitVec.getLsbD_ofNat, hi,
    Nat.testBit_mul_two_pow, Nat.testBit_two_pow_sub_one, Nat.testBit_mod_two_pow, decide_true, Bool.true_and]
  by_cases hl : lo ≤ i
  · have hn : i - lo < n ↔ i < lo + n := by omega
    by_cases h : i < lo + n <;> simp [hl, hn, h]
  · simp [hl]

/-! ## Predicates of the status word (R14) -/

theorem pswPred_of_ne (w : Word) {p : Pred} (hp : p ≠ 0) : pswPred w p.toNat = w.getLsbD p.toNat := by
  have h0 : p.toNat ≠ 0 := BitVec.toNat_ne_iff_ne.2 hp
  rw [pswPred, bit_toNat, beq_false_of_ne h0, Bool.false_or]

/-- A write of a predicate other than p0 changes its own bit and no other. -/
theorem pswSetPred_getLsbD (w : Word) {p : Pred} (hp : p ≠ 0) (b : Bool) (i : Nat) :
    (pswSetPred w p.toNat b).getLsbD i = if i = p.toNat then b else w.getLsbD i := by
  have h0 : p.toNat ≠ 0 := BitVec.toNat_ne_iff_ne.2 hp
  have h15 : p.toNat < 16 := p.isLt
  rw [pswSetPred, if_neg (by omega)]
  by_cases hi : i < 64
  · have hlo : p.toNat ≤ i ∧ i < p.toNat + 1 ↔ i = p.toNat := by omega
    simp only [putField_getLsbD w _ _ _ hi, hlo]
    split
    · next h => subst h; cases b <;> simp [b2n]
    · rfl
  · rw [BitVec.getLsbD_of_ge _ _ (by omega), BitVec.getLsbD_of_ge _ _ (by omega), if_neg (by omega)]

namespace State

@[simp] theorem putPred_psw (s : State) (p : Pred) (b : Bool) :
    (s.putPred p b).me.ctx.psw = pswSetPred s.me.ctx.psw p.toNat b := by simp [putPred]

theorem putPred_zero_ctx (s : State) (b : Bool) : (s.putPred 0 b).me.ctx = s.me.ctx := by
  simp [putPred, pswSetPred]

theorem pred_zero (s : State) : s.pred 0 = true := rfl

theorem pred_putPred_self (s : State) (p : Pred) (b : Bool) : (s.putPred p b).pred p = if p = 0 then true else b := by
  split
  · next h => rw [h, pred_zero]
  · next h => rw [pred, pswPred_of_ne _ h, putPred_psw, pswSetPred_getLsbD _ h, if_pos rfl]

theorem putPred_psw_getLsbD_ne (s : State) (p : Pred) (b : Bool) {i : Nat} (h : i ≠ p.toNat) :
    (s.putPred p b).me.ctx.psw.getLsbD i = s.me.ctx.psw.getLsbD i := by
  by_cases hp : p = 0
  · rw [hp, putPred_zero_ctx]
  · rw [putPred_psw, pswSetPred_getLsbD _ hp, if_neg h]

theorem pred_putPred_ne (s : State) {p q : Pred} (b : Bool) (h : q ≠ p) : (s.putPred p b).pred q = s.pred q := by
  by_cases hq : q = 0
  · rw [hq, pred_zero, pred_zero]
  · rw [pred, pred, pswPred_of_ne _ hq, pswPred_of_ne _ hq, putPred_psw_getLsbD_ne s p b (BitVec.toNat_ne_iff_ne.2 h)]

end State

/-! ## Bit fields and shifts by an amount in the word (R127) -/

theorem signed_toNat {n : Nat} (x : BitVec (n + 1)) : signed (n + 1) x.toNat = x.toInt := by
  have h : x.toNat < 2 ^ n ↔ 2 * x.toNat < 2 ^ (n + 1) := by rw [Nat.pow_succ]; omega
  simp only [signed, Nat.mod_eq_of_lt x.isLt, Nat.add_sub_cancel, BitVec.toInt_eq_toNat_cond, h]

theorem field_toNat (a : Word) (lo n : Nat) : field a.toNat lo n = ((a >>> lo).setWidth n).toNat := by
  simp [field, Nat.shiftRight_eq_div_pow]

theorem bfxVal_eq (a : Word) (p : BitVec 6) (l : BitVec 5) :
    bfxVal a p l = ((a >>> p.toNat).setWidth (l.toNat + 1)).setWidth 64 := by
  rw [bfxVal, field_toNat, BitVec.ofNat_toNat]

theorem bfxsVal_eq (a : Word) (p : BitVec 6) (l : BitVec 5) :
    bfxsVal a p l = ((a >>> p.toNat).setWidth (l.toNat + 1)).signExtend 64 := by
  rw [bfxsVal, sextWord, field_toNat, signed_toNat, BitVec.signExtend]

theorem bfiVal_getLsbD (t a : Word) (p : BitVec 6) (l : BitVec 5) {i : Nat} (hi : i < 64) :
    (bfiVal t a p l).getLsbD i =
      if p.toNat ≤ i ∧ i ≤ p.toNat + l.toNat then a.getLsbD (i - p.toNat) else t.getLsbD i := by
  simp only [bfiVal, putField_getLsbD t _ _ _ hi, ← Nat.add_assoc, Nat.lt_succ_iff]
  rfl

theorem toNat_imm6 (n : BitVec 6) : (BitVec.ofNat 64 n.toNat).toNat % 64 = n.toNat := by
  have := n.isLt
  simp only [BitVec.toNat_ofNat]
  omega

theorem shl6_imm (a : Word) (n : BitVec 6) : shl6 a (BitVec.ofNat 64 n.toNat) = a <<< n.toNat := by
  rw [shl6, toNat_imm6]

theorem shr6_imm (a : Word) (n : BitVec 6) : shr6 a (BitVec.ofNat 64 n.toNat) = a >>> n.toNat := by
  rw [shr6, toNat_imm6]

theorem sra6_imm (a : Word) (n : BitVec 6) : sra6 a (BitVec.ofNat 64 n.toNat) = a.sshiftRight n.toNat := by
  rw [sra6, toNat_imm6]

theorem rol6_imm (a : Word) (n : BitVec 6) :
    rol6 a (BitVec.ofNat 64 n.toNat) = a <<< n.toNat ||| a >>> (64 - n.toNat) := by
  rw [rol6, toNat_imm6, BitVec.rotateLeft_def, Nat.mod_eq_of_lt n.isLt]

theorem ror6_imm (a : Word) (n : BitVec 6) :
    ror6 a (BitVec.ofNat 64 n.toNat) = a >>> n.toNat ||| a <<< (64 - n.toNat) := by
  rw [ror6, toNat_imm6, BitVec.rotateRight_def, Nat.mod_eq_of_lt n.isLt]

/-! ## Products and quotients (R128); DZ is flag 2, OF flag 4 -/

/-- The model takes the high word of the 128-bit product as an unsigned number; modulo 2^64 it is the quotient
rounded down. -/
theorem mulhS_eq (a b : Word) : mulhS a b = BitVec.ofInt 64 (a.toInt * b.toInt / 2 ^ 64) := by
  apply BitVec.eq_of_toNat_eq
  simp only [mulhS, wrapInt, BitVec.toNat_ofNat, BitVec.toNat_ofInt]
  generalize a.toInt * b.toInt = x
  omega

theorem divU_of_ne {a b : Word} (h : b ≠ 0) : divU a b = (a / b, 0) := by
  rw [divU, if_neg h, BitVec.udiv_def]

theorem remU_of_ne {a b : Word} (h : b ≠ 0) : remU a b = (a % b, 0) := by
  rw [remU, if_neg h, BitVec.umod_def]

theorem divS_of_ne {a b : Word} (h : b ≠ 0) (ho : ¬(a = minWord ∧ b = 0xFFFFFFFFFFFFFFFF)) :
    divS a b = (BitVec.ofInt 64 (a.toInt.tdiv b.toInt), 0) := by
  rw [divS, if_neg h, if_neg ho]

theorem remS_of_ne {a b : Word} (h : b ≠ 0) (ho : ¬(a = minWord ∧ b = 0xFFFFFFFFFFFFFFFF)) :
    remS a b = (BitVec.ofInt 64 (a.toInt.tmod b.toInt), 0) := by
  rw [remS, if_neg h, if_neg ho]

theorem divU_zero (a : Word) : divU a 0 = (0xFFFFFFFFFFFFFFFF, 2) := rfl
theorem remU_zero (a : Word) : remU a 0 = (a, 2) := rfl
theorem divS_zero (a : Word) : divS a 0 = (0xFFFFFFFFFFFFFFFF, 2) := rfl
theorem remS_zero (a : Word) : remS a 0 = (a, 2) := rfl
theorem divS_overflow : divS 0x8000000000000000 0xFFFFFFFFFFFFFFFF = (0x8000000000000000, 4) := rfl
theorem remS_overflow : remS 0x8000000000000000 0xFFFFFFFFFFFFFFFF = (0, 4) := rfl

end Sys2Proof.Machine
end

section
/-! SUPPORT. One lemma for each form of majors 0x01 to 0x06: what it leaves when a ready thread issues it. -/

namespace Sys2Proof.Machine

/-! ## No flag set is no change -/

theorem Tbl_set_set {α : Type} (t : Tbl α) (k : Nat) (v w : α) : (t.set k v).set k w = t.set k w := by
  induction t with
  | nil => simp [Tbl.set]
  | cons x t ih =>
    obtain ⟨j, u⟩ := x
    simp only [Tbl.set]
    split
    · simp [Tbl.set]
    · next hne =>
      split
      · simp [Tbl.set]
      · next hlt => simp only [Tbl.set, hne, hlt, if_false, ih]

/-- Flags 0 write the status word back as it was, and completing the word writes the same thread again. -/
theorem State.done_putFlags_zero (s : State) : (s.putFlags 0).done = s.done := by
  simp [State.done, State.advance, State.putFlags, State.updMe, State.updThread, State.setThread, State.updCtl,
    State.thread, State.me, Tbl_find_set_self, Tbl_set_set, pswOrFlags]

section
variable {gd : Guard} {rd ra rb : Reg} {s : State} {v : Word} {f : Word → Word → Word}

/-- A word whose body writes one register. -/
theorem perform_put {body : M Unit} (hi : s.Issues gd) (hb : body.run s = .ok ((), s.put rd v)) :
    perform gd s body = .next (s.put rd v).done := by
  obtain ⟨hg, hr⟩ := hi
  rw [perform_ok hg hb (hr.put rd v), State.done, State.put_pc]

theorem alu1_ok {f : Word → Word} (hi : s.Issues gd) (ha : s.plain ra = true) (hd : s.plainDst rd = true)
    (hv : f (s.val ra) = v) : alu1 gd rd ra f s = .next (s.put rd v).done := by
  subst hv
  exact perform_put hi ((M_bind_ok (readReg_plain ha)).trans (writeReg_plain _ hd))

theorem alu2_ok (hi : s.Issues gd) (ha : s.plain ra = true) (hb : s.plain rb = true) (hd : s.plainDst rd = true)
    (hv : f (s.val ra) (s.val rb) = v) : alu2 gd rd ra rb f s = .next (s.put rd v).done := by
  subst hv
  exact perform_put hi (((M_bind_ok (readReg_plain ha)).trans (M_bind_ok (readReg_plain hb))).trans (writeReg_plain _ hd))

theorem aluFlags_ok {f : Word → Word → Word × Byte} {x : Byte} (hi : s.Issues gd) (ha : s.plain ra = true)
    (hb : s.plain rb = true) (hd : s.plainDst rd = true) (hv : f (s.val ra) (s.val rb) = (v, x)) :
    aluFlags gd rd ra rb f s = .next ((s.put rd v).putFlags x).done := by
  obtain ⟨hg, hr⟩ := hi
  rw [aluFlags, perform_ok (s' := (s.put rd v).putFlags x) hg ?_ ((hr.put rd v).putFlags x)]
  · simp [State.done, State.putFlags]
  · rw [M_bind_ok (readReg_plain ha), M_bind_ok (readReg_plain hb), hv, M_bind_ok (writeReg_plain v hd), orFlags_run]

theorem aluFlags_ok_none {f : Word → Word → Word × Byte} (hi : s.Issues gd) (ha : s.plain ra = true)
    (hb : s.plain rb = true) (hd : s.plainDst rd = true) (hv : f (s.val ra) (s.val rb) = (v, 0)) :
    aluFlags gd rd ra rb f s = .next (s.put rd v).done := by
  rw [aluFlags_ok hi ha hb hd hv, State.done_putFlags_zero]

end

section
variable {gd : Guard} {pd : Pred} {s : State} {b : Bool}

/-- A word whose body writes one predicate. -/
theorem perform_putPred {body : M Unit} (hi : s.Issues gd) (hb : body.run s = .ok ((), s.putPred pd b)) :
    perform gd s body = .next (s.putPred pd b).done := by
  obtain ⟨hg, hr⟩ := hi
  rw [perform_ok hg hb (hr.putPred pd b), State.done]
  simp [State.putPred]

theorem cmp2_ok {ra rb : Reg} {f : Word → Word → Bool} (hi : s.Issues gd) (ha : s.plain ra = true)
    (hb : s.plain rb = true) (hv : f (s.val ra) (s.val rb) = b) : cmp2 gd pd ra rb f s = .next (s.putPred pd b).done := by
  subst hv
  exact perform_putPred hi ((M_bind_ok (readReg_plain ha)).trans (M_bind_ok (readReg_plain hb)))

theorem cmpK_ok {ra : Reg} {k : BitVec 8} {f : Word → Word → Bool} (hi : s.Issues gd) (ha : s.plainK ra k)
    (hk : s.kSound k) (hv : f (s.valK ra k) (s.kEntry s.me.core k.toNat) = b) :
    cmpK gd pd ra k f s = .next (s.putPred pd b).done := by
  subst hv
  exact perform_putPred hi ((M_bind_ok (readRegK_plain ha)).trans (M_bind_ok (readK_sound hk)))

theorem pred2_ok (hi : s.Issues gd) (pd pa pb : Pred) (f : Bool → Bool → Bool) :
    pred2 gd pd pa pb f s = .next (s.putPred pd (f (s.pred pa) (s.pred pb))).done :=
  perform_putPred hi ((M_bind_ok (readPred_run s pa)).trans (M_bind_ok (readPred_run s pb)))

end

end Sys2Proof.Machine
end

section
/-! SUPPORT. Words of majors 0x03 to 0x05 that do not decode (R80, R85 to R87). -/

namespace Sys2Proof.Laws

theorem zero_of_ne {x : Nat} {f : Except DecodeError Form} (h : x ≠ 0) : zero x f = .error .reserved := if_neg h

theorem decodeWord_error {w : BitVec 32} {e : DecodeError} (h : decodeForm w.toNat = .error e) :
    decodeWord w = .error e := by
  rw [decodeWord, h]; rfl

theorem decodeForm_cmp {w : Nat} (h : bits w 26 6 = 3) : decodeForm w = decCmp w (BitVec.ofNat 5 (bits w 21 5)) := by
  simp only [decodeForm, h]

theorem decodeForm_pred {w : Nat} (h : bits w 26 6 = 4) : decodeForm w = decPred w (BitVec.ofNat 5 (bits w 21 5)) := by
  simp only [decodeForm, h]

theorem decodeForm_bits {w : Nat} (h : bits w 26 6 = 5) : decodeForm w = decBits w (BitVec.ofNat 5 (bits w 21 5)) := by
  simp only [decodeForm, h]

/-- A code up to 10 in the five bits [4:0] leaves bit 4 clear: it is a compare of registers. -/
theorem decCmp_reserved {w : Nat} {g : Guard} (hf : bits w 0 5 ≤ 10) (h : bits w 5 4 ≠ 0) :
    decCmp w g = .error .reserved := by
  have hs : bits w 0 5 = bits w 0 4 + 16 * bits w 4 1 := bits_split w 0 4 1
  have h4 : bits w 4 1 = 0 := by omega
  have hc : bits w 0 4 ≤ 10 := by omega
  rw [decCmp, if_pos h4]
  interval_cases bits w 0 4 <;> exact zero_of_ne h

/-- PNOT and PMOV. -/
theorem decPred_reserved {w : Nat} {g : Guard} (hf : bits w 0 9 = 3 ∨ bits w 0 9 = 4) (h : bits w 9 4 ≠ 0) :
    decPred w g = .error .reserved := by
  rcases hf with hf | hf <;> simp only [decPred, hf, zero_of_ne h]

theorem decBits_overlong {w : Nat} {g : Guard} (ho : bits w 11 2 < 3) (h : 64 < bits w 5 6 + bits w 0 5 + 1) :
    decBits w g = .error .minor := by
  rw [decBits]
  interval_cases bits w 11 2 <;> exact if_pos h

theorem decBits_unassigned {w : Nat} {g : Guard} (ho : bits w 11 2 = 3) (h : 5 ≤ bits w 8 3) :
    decBits w g = .error .minor := by
  have h8 : bits w 8 3 < 8 := Nat.mod_lt _ (by decide)
  simp only [decBits, ho]
  interval_cases bits w 8 3 <;> rfl

theorem decBits_reserved {w : Nat} {g : Guard} (ho : bits w 11 2 = 3) (hs : bits w 8 3 < 5) (h : bits w 6 2 ≠ 0) :
    decBits w g = .error .reserved := by
  simp only [decBits, ho]
  interval_cases bits w 8 3 <;> exact zero_of_ne h

end Sys2Proof.Laws
end

section
/-! The statements on majors 0x03 to 0x06 (R127 to R130). -/

namespace Sys2Proof.Laws

open Sys2Proof.Machine

/-- Settles O5, form by form; a word's refusal is that of `decBits`. -/
theorem bitFieldResults : Obligations.BitFieldResults := by
  intro gd rd ra p l n s hi ha hd _
  refine ⟨alu1_ok hi ha hd (bfxVal_eq _ p l), alu1_ok hi ha hd (bfxsVal_eq _ p l), fun ht => ?_,
    alu1_ok hi ha hd (shl6_imm _ n), alu1_ok hi ha hd (shr6_imm _ n), alu1_ok hi ha hd (sra6_imm _ n),
    alu1_ok hi ha hd (rol6_imm _ n), alu1_ok hi ha hd (ror6_imm _ n), fun w hw => ⟨?_, fun ho hs h => ?_⟩⟩
  · exact ⟨bfiVal (s.val rd) (s.val ra) p l, fun i h => bfiVal_getLsbD _ _ p l h, alu2_ok hi ht ha hd rfl⟩
  · rintro (⟨ho, h⟩ | ⟨ho, h⟩)
    · exact decodeWord_error ((decodeForm_bits hw).trans (decBits_overlong ho h))
    · exact decodeWord_error ((decodeForm_bits hw).trans (decBits_unassigned ho h))
  · exact decodeWord_error ((decodeForm_bits hw).trans (decBits_reserved ho hs h))

/-- Settles O6, by the cases of R128's table: a divisor that is not zero, zero, and the quotient that overflows. -/
theorem multiplyDivideResults : Obligations.MultiplyDivideResults := by
  intro gd rd ra rb s hi ha hb hd
  refine ⟨alu2_ok hi ha hb hd BitVec.mul_def, alu2_ok hi ha hb hd rfl, alu2_ok hi ha hb hd (mulhS_eq _ _),
    fun h => ?_, fun h => ?_, fun h ho => ?_, fun h1 h2 => ?_⟩
  · exact ⟨aluFlags_ok_none hi ha hb hd (divU_of_ne h), aluFlags_ok_none hi ha hb hd (remU_of_ne h)⟩
  · exact ⟨aluFlags_ok hi ha hb hd (h ▸ divU_zero _), aluFlags_ok hi ha hb hd (h ▸ remU_zero _),
      aluFlags_ok hi ha hb hd (h ▸ divS_zero _), aluFlags_ok hi ha hb hd (h ▸ remS_zero _)⟩
  · exact ⟨aluFlags_ok_none hi ha hb hd (divS_of_ne h ho), aluFlags_ok_none hi ha hb hd (remS_of_ne h ho)⟩
  · exact ⟨aluFlags_ok hi ha hb hd (by rw [h1, h2, divS_overflow]),
      aluFlags_ok hi ha hb hd (by rw [h1, h2, remS_overflow])⟩

/-- Settles O7: each compare is one of the two forms of R129. -/
theorem compareResults : Obligations.CompareResults := by
  intro gd p ra rb rk k s hi ha hb hrk hk
  refine ⟨⟨cmp2_ok hi ha hb rfl, cmp2_ok hi ha hb decide_not.symm, cmp2_ok hi ha hb rfl, cmp2_ok hi ha hb rfl,
      cmp2_ok hi ha hb rfl, cmp2_ok hi ha hb rfl, cmp2_ok hi ha hb rfl, cmp2_ok hi ha hb rfl, cmp2_ok hi ha hb rfl,
      cmp2_ok hi ha hb rfl, cmp2_ok hi ha hb decide_not.symm⟩,
    ⟨cmpK_ok hi hrk hk rfl, cmpK_ok hi hrk hk decide_not.symm, cmpK_ok hi hrk hk rfl, cmpK_ok hi hrk hk rfl,
      cmpK_ok hi hrk hk rfl, cmpK_ok hi hrk hk rfl, cmpK_ok hi hrk hk rfl, cmpK_ok hi hrk hk rfl, cmpK_ok hi hrk hk rfl,
      cmpK_ok hi hrk hk rfl, cmpK_ok hi hrk hk decide_not.symm⟩,
    s.putPred_zero_ctx, fun w hw hf h => decodeWord_error ((decodeForm_cmp hw).trans (decCmp_reserved hf h))⟩

/-- Settles O8, form by form; what a predicate write leaves is read off the bits of the status word. -/
theorem predicateResults : Obligations.PredicateResults := by
  intro gd pd pa pb s hi
  refine ⟨pred2_ok hi pd pa pb _, pred2_ok hi pd pa pb _, pred2_ok hi pd pa pb _, pred2_ok hi pd pa pa _,
    pred2_ok hi pd pa pa _, s.pred_zero,
    fun b => ⟨s.pred_putPred_self pd b, fun q hq => s.pred_putPred_ne b hq, fun i h => ?_, fun w hw hf h => ?_⟩⟩
  · exact s.putPred_psw_getLsbD_ne pd b (by have := pd.isLt; omega)
  · exact decodeWord_error ((decodeForm_pred hw).trans (decPred_reserved hf h))

end Sys2Proof.Laws
end

section
/-! SUPPORT. Lanes of a word built from lanes (R46), and what each permute of R202 puts in a lane. -/

namespace Sys2Proof.Machine

/-! ## Lanes (R46) -/

theorem pack_div (w k : Nat) (xs : List Nat) : pack w xs / 2 ^ (w * k) = pack w (xs.drop k) := by
  induction k generalizing xs with
  | zero => simp
  | succ k ih =>
    cases xs with
    | nil => simp [pack]
    | cons x t =>
      have hx : pack w (x :: t) / 2 ^ w = pack w t := by
        rw [pack, Nat.add_mul_div_left _ _ (Nat.two_pow_pos w), Nat.div_eq_of_lt (Nat.mod_lt _ (Nat.two_pow_pos w)),
          Nat.zero_add]
      rw [Nat.mul_succ, Nat.add_comm, Nat.pow_add, ← Nat.div_div_eq_div_mul, hx, ih, List.drop_succ_cons]

theorem lane_lt (w : Nat) (a : Word) (k : Nat) : lane w a k < 2 ^ w := Nat.mod_lt _ (Nat.two_pow_pos w)

theorem wrapInt_lt (n : Nat) (i : Int) : wrapInt n i < 2 ^ n := by
  have h : (0 : Int) < (2 ^ n : Nat) := Int.natCast_pos.2 (Nat.two_pow_pos n)
  exact (Int.toNat_lt (Int.emod_nonneg _ h.ne')).2 (Int.emod_lt_of_pos _ h)

/-- A lane that lies in the word is the list's entry, cut to the width. -/
theorem lane_packW {w k x : Nat} {xs : List Nat} (hk : w * k + w ≤ 64) (hx : xs[k]? = some x) :
    lane w (packW w xs) k = x % 2 ^ w := by
  obtain ⟨hlt, rfl⟩ := List.getElem?_eq_some_iff.1 hx
  have hw : 2 ^ 64 = 2 ^ (w * k) * 2 ^ (64 - w * k) := by rw [← Nat.pow_add]; congr 1; omega
  have hd : 2 ^ w ∣ 2 ^ (64 - w * k) := Nat.pow_dvd_pow 2 (by omega)
  rw [lane, field, packW, BitVec.toNat_ofNat, hw, Nat.mod_mul_right_div_self, Nat.mod_mod_of_dvd _ hd, pack_div,
    List.drop_eq_getElem_cons hlt, pack, Nat.add_mul_mod_self_left, Nat.mod_mod]

/-- The same for an entry of the lane's width. -/
theorem lane_packW_of_lt {w k x : Nat} {xs : List Nat} (hk : w * k + w ≤ 64) (hx : xs[k]? = some x) (h : x < 2 ^ w) :
    lane w (packW w xs) k = x := by
  rw [lane_packW hk hx, Nat.mod_eq_of_lt h]

theorem lanes_length (w : Nat) (a : Word) : (lanes w a).length = 64 / w := by simp [lanes]

theorem lanes_getElem? {w k : Nat} (a : Word) (hk : k < 64 / w) : (lanes w a)[k]? = some (lane w a k) := by
  simp [lanes, hk]

/-- A word has only whole lanes. -/
theorem lane_fits {w k : Nat} (hk : k < 64 / w) : w * k + w ≤ 64 :=
  (Nat.mul_le_mul_left w hk).trans (Nat.mul_div_le 64 w)

/-! ## Permutes (R202) -/

section
variable {w k : Nat} (a b : Word)

theorem lane_shuffled (hk : k < 64 / w) :
    lane w (packW w ((lanes w b).map fun y => if bit y (w - 1) then 0 else lane w a (y % (64 / w)))) k =
      if bit (lane w b k) (w - 1) then 0 else lane w a (lane w b k % (64 / w)) := by
  refine lane_packW_of_lt (lane_fits hk) (by rw [List.getElem?_map, lanes_getElem? b hk]; rfl) ?_
  split
  · exact Nat.two_pow_pos w
  · exact lane_lt _ _ _

theorem lane_broadcast {x : Nat} (hk : k < 64 / w) :
    lane w (packW w (List.replicate (64 / w) (lane w a x))) k = lane w a x :=
  lane_packW_of_lt (lane_fits hk) (List.getElem?_replicate_of_lt hk) (lane_lt _ _ _)

theorem lane_reversed (hk : k < 64 / w) :
    lane w (packW w (lanes w a).reverse) k = lane w a (64 / w - 1 - k) := by
  refine lane_packW_of_lt (lane_fits hk) ?_ (lane_lt _ _ _)
  rw [List.getElem?_reverse (by rwa [lanes_length]), lanes_length, lanes_getElem? a (by omega)]

/-- The lower half comes from the first word and the upper half from the second. -/
theorem lane_packed (l : LaneI) (hk : k < 64 / laneW l) :
    lane (laneW l) (packW (laneW l) (lanes (2 * laneW l) a ++ lanes (2 * laneW l) b)) k =
      if k < 64 / laneW l / 2 then lane (2 * laneW l) a k % 2 ^ laneW l
      else lane (2 * laneW l) b (k - 64 / laneW l / 2) % 2 ^ laneW l := by
  have hn : 64 / (2 * laneW l) = 64 / laneW l / 2 := by rw [Nat.mul_comm, Nat.div_div_eq_div_mul]
  have he : 64 / laneW l = 2 * (64 / laneW l / 2) := by cases l <;> rfl
  split
  · next h =>
    apply lane_packW (lane_fits hk)
    rw [List.getElem?_append_left (by rwa [lanes_length, hn]), lanes_getElem? a (by rwa [hn])]
  · next h =>
    apply lane_packW (lane_fits hk)
    rw [List.getElem?_append_right (by rw [lanes_length, hn]; omega), lanes_length, hn, lanes_getElem? b (by omega)]

theorem lane_unpacked (hk : k < 64 / w / 2) :
    lane (2 * w) (packW (2 * w) ((List.range (32 / w)).map fun i => wrapInt (2 * w) (signed w (lane w a i)))) k =
      wrapInt (2 * w) (signed w (lane w a k)) := by
  have hd : 64 / (2 * w) = 64 / w / 2 := by rw [Nat.mul_comm, Nat.div_div_eq_div_mul]
  have hr : 64 / (2 * w) = 32 / w := (Nat.div_div_eq_div_mul 64 2 w).symm
  refine lane_packW_of_lt (lane_fits (by rwa [hd])) ?_ (wrapInt_lt _ _)
  rw [List.getElem?_map, List.getElem?_range (by omega)]
  rfl

end

end Sys2Proof.Machine
end

section
/-! SUPPORT. Words of major 0x1A that do not decode (R80, R202). -/

namespace Sys2Proof.Laws

theorem decodeForm_perm {w : Nat} (h : bits w 26 6 = 26) : decodeForm w = decPerm w (BitVec.ofNat 5 (bits w 21 5)) := by
  simp only [decodeForm, h]

theorem decPerm_laneCode3 {w : Nat} {g : Guard} (h : bits w 0 2 = 3) : decPerm w g = .error .minor := by
  rw [decPerm, h]; rfl

theorem decPerm_unassigned {w : Nat} {g : Guard} (h : 5 ≤ bits w 2 7) : decPerm w g = .error .minor := by
  obtain ⟨o, ho⟩ := Nat.exists_eq_add_of_le' h
  rw [decPerm, ho]
  cases laneI (bits w 0 2) <;> rfl

end Sys2Proof.Laws
end

section
/-! The statement on the permutes (R202). -/

namespace Sys2Proof.Laws

open Sys2Proof.Machine

/-- Settles O30: each permute writes one register, whose lanes are read off the list that it packs; a word's refusal is that
of `decPerm`. -/
theorem permuteResults : Obligations.PermuteResults := by
  intro gd rd ra rb l s hi ha hb hd
  refine ⟨⟨_, fun k hk => lane_shuffled _ _ hk, alu2_ok hi ha hb hd rfl⟩,
    ⟨_, fun k hk => lane_broadcast _ hk, alu2_ok hi ha hb hd rfl⟩,
    ⟨_, fun k hk => lane_reversed _ hk, alu1_ok hi ha hd rfl⟩,
    ⟨_, fun k hk => lane_packed _ _ l hk, alu2_ok hi ha hb hd rfl⟩,
    ⟨_, fun k hk => lane_unpacked _ hk, alu1_ok hi ha hd rfl⟩, fun x hx h => ?_⟩
  refine decodeWord_error ((decodeForm_perm hx).trans ?_)
  rcases h with h | h
  · exact decPerm_laneCode3 h
  · exact decPerm_unassigned h

end Sys2Proof.Laws
end

section
/-! SUPPORT. Taking an exception and returning from one (R402 to R404): a cause after the effect, the entry of a worker thread
whose handler is set, and the return. -/

namespace Sys2Proof.Machine

/-! ## Causes after the effect (R403) -/

theorem raiseAfter_run {s : State} (h : s.ctl.after = none) (c addr : Nat) :
    (raiseAfter c addr).run s = .ok ((), s.updCtl fun x => { x with after := some (c, addr) }) := by
  simp only [raiseAfter, M_modify, State.updCtl, h]

/-- A ready thread completes a word that has raised a cause other than a watchpoint's, which alone is counted here. -/
theorem State.complete_raised {s : State} (h : s.Ready) {c : Nat} (hc : c ≠ 0xA1) (addr : Nat) (npc : BitVec 32) :
    (s.updCtl fun x => { x with after := some (c, addr) }).complete npc true =
      (s.advance npc).takeTrap s.ctl.acting c s.me.ctx.pc.toNat npc.toNat addr s.me.word := by
  obtain ⟨hrun, -, -, hbp⟩ := h
  generalize hu : (s.updCtl fun x => { x with after := some (c, addr) }) = u
  have hrun' : (u.thread u.ctl.acting).run = .active := by subst hu; exact hrun
  have hb : (true && !u.isSlot0 && u.breakpoint (u.servedTask u.ctl.acting) (u.thread u.ctl.acting).ctx.pc.toNat) = false := by
    subst hu
    rw [Bool.true_and, Bool.and_eq_false_iff, Bool.not_eq_false']
    exact hbp
  have ha : u.ctl.after = some (c, addr) := by subst hu; rfl
  simp only [State.complete, hb, ha, hrun', Bool.and_false, Bool.false_eq_true, if_false, hc]
  subst hu
  rfl

/-- A word that only raises a cause after its effect. -/
theorem perform_raiseAfter {gd : Guard} {s : State} (hi : s.Issues gd) {c : Nat} (hc : c ≠ 0xA1) (addr : Nat) :
    perform gd s (raiseAfter c addr) = .next (s.done.takeTrap s.ctl.acting c s.me.ctx.pc.toNat
      (s.me.ctx.pc + 4).toNat addr s.me.word) := by
  obtain ⟨hg, hr⟩ := hi
  have ⟨_, _, hnone, _⟩ := hr
  simp only [perform, performTo, hg, if_true, M_bind, raiseAfter_run hnone, M_pure, State.finish,
    State.complete_raised hr hc, State.done]

/-! ## A trap on a thread in the rotation (R402) -/

theorem performTo_trap {gd : Guard} {s : State} {body : M (BitVec 32)} {c a : Nat} (hg : guardHolds s gd = true)
    (hr : s.me.run = .active) (hb : body.run s = .error (.trap c a)) : performTo gd s body = .next (s.trapped c a) := by
  have hr' : (s.thread s.ctl.acting).run = .active := hr
  simp only [performTo, hg, if_true, hb, State.finish, hr']
  rfl

/-- A worker thread outside a gang, with a handler and TND below 255, enters the handler, and nothing else changes. -/
theorem State.takeTrap_handled {s : State} {tid : Nat} (hw : 32768 ≤ tid) (hg : (s.thread tid).inGang = false)
    (hv : s.trapvec tid &&& 0xFFFFFFFC ≠ 0) (hd : field (s.thread tid).ctx.trw.toNat 0 8 ≠ 255)
    (c pc epc addr : Nat) (word : BitVec 32) :
    s.takeTrap tid c pc epc addr word = s.updThread tid fun t =>
      { t.trapEntry c epc addr word (s.trapvec tid) with cont := .none, aux := { t.aux with sample := none } } := by
  have hdis : s.disband tid = s := by simp [State.disband, hg]
  simp only [State.takeTrap, Nat.not_lt.2 hw, if_false, hdis, hv, hd]

/-- A cause raised from outside is the thread's own precise trap when the thread is in the rotation. -/
theorem State.trapBy_active {s : State} {tid : Nat} (hr : (s.thread tid).run = .active) (c addr : Nat) :
    s.trapBy tid c addr =
      (s.updCtl fun x => { x with acting := tid, retry := false, after := none, lock := [] }).trapped c addr := by
  generalize hu : (s.updCtl fun x => { x with acting := tid, retry := false, after := none, lock := [] }) = u
  have hr' : (u.thread u.ctl.acting).run = .active := by subst hu; exact hr
  simp only [State.trapBy, hu, State.finish, hr']
  rfl

/-- What a precise trap leaves of a worker thread that enters its handler: EPC is the word's own offset. -/
theorem State.trapBy_handled {s : State} {tid : Nat} (hw : 32768 ≤ tid) (hr : (s.thread tid).run = .active)
    (hg : (s.thread tid).inGang = false) (hv : s.trapvec tid &&& 0xFFFFFFFC ≠ 0)
    (hd : field (s.thread tid).ctx.trw.toNat 0 8 ≠ 255) (c addr : Nat) :
    let t := s.trapBy tid c addr
    t.me.trap.cause = BitVec.ofNat 8 c ∧ t.me.trap.epc = (s.thread tid).ctx.pc ∧ t.me.trap.eword = (s.thread tid).word ∧
      t.me.ctx.pc = s.trapvec tid &&& 0xFFFFFFFC ∧ t.me.ctx.g = (s.thread tid).ctx.g ∧ t.mem = s.mem := by
  let u := s.updCtl fun x => { x with acting := tid, retry := false, after := none, lock := [] }
  have ht : s.trapBy tid c addr = u.updMe fun t =>
      { t.trapEntry c u.me.ctx.pc.toNat addr u.me.word (u.trapvec tid) with
        cont := .none, aux := { t.aux with sample := none } } :=
    (State.trapBy_active hr c addr).trans (State.takeTrap_handled (s := u) hw hg hv hd ..)
  rw [ht]
  simp only [State.me_updMe]
  exact ⟨rfl, (BitVec.ofNat_toNat ..).trans (BitVec.setWidth_eq ..), rfl, rfl, rfl, rfl⟩

/-! ## The handler's address under an update of its thread (R280, R341) -/

/-- A thread that has never been written is not in the rotation. -/
theorem State.find_of_active {s : State} {tid : Nat} (h : (s.thread tid).run = .active) :
    s.threads.find tid = some (s.thread tid) := by
  cases hf : s.threads.find tid with
  | some t => simp [State.thread, hf]
  | none =>
    have hidle : (Thread.initial tid).run = .idle := by unfold Thread.initial; split <;> rfl
    simp [State.thread, hf, hidle] at h

/-- TRAPVEC of a listed thread hangs on where the thread is, not on its registers. -/
theorem State.trapvec_updThread {s : State} {tid : Nat} {f : Thread → Thread}
    (hl : s.threads.find tid = some (s.thread tid)) (hi : (f (s.thread tid)).ident = (s.thread tid).ident)
    (hc : (f (s.thread tid)).core = (s.thread tid).core) (ha : (f (s.thread tid)).aux = (s.thread tid).aux) :
    (s.updThread tid f).trapvec tid = s.trapvec tid := by
  have hs : (s.updThread tid f).threads.find tid = some (f (s.thread tid)) := Tbl_find_set_self ..
  have hsaved : (s.updThread tid f).isSavedThread tid = s.isSavedThread tid := by
    simp only [State.isSavedThread, hs, hl, hi]
    rfl
  simp only [State.trapvec, hsaved, State.thread_updThread, hi, hc, ha]
  rfl

/-! ## Words that cannot run (R80, R17) -/

/-- An illegal word outside a gang traps in its thread alone. -/
theorem execIllegalWord_alone {s : State} (h : s.ctl.lock = []) :
    execIllegalWord s = .next ((s.updMe fun t => { t with word := s.me.word }).trapBy s.ctl.acting
      (illegalCause s.ctl.ev.a s.me.word s.me.ctx.psw) 0) := by
  simp only [execIllegalWord, h]
  rfl

/-! ## ERET (R404) -/

/-- The acting thread as ERET leaves it before the word is completed: TND lowered, and LVL 0 at the last level. -/
def State.leaveTrapLevel (s : State) : State :=
  s.updMe fun t => { t with ctx := { t.ctx with
    trw := putField t.ctx.trw 0 8 (field s.me.ctx.trw.toNat 0 8 - 1),
    psw := if field s.me.ctx.trw.toNat 0 8 = 1 then putField t.ctx.psw 36 2 0 else t.ctx.psw } }

theorem State.Ready.leaveTrapLevel {s : State} (h : s.Ready) : s.leaveTrapLevel.Ready := by
  apply h.of_eq <;> simp [State.leaveTrapLevel]

theorem execEret_outside {gd : Guard} {s : State} (hi : s.Issues gd) (h : field s.me.ctx.trw.toNat 0 8 = 0) :
    execEret gd s = .next (s.trapped 0x05 0) := by
  obtain ⟨hg, hr⟩ := hi
  have ⟨hrun, _⟩ := hr
  refine performTo_trap hg hrun ?_
  simp only [M_bind, M_get, h, if_true]
  rfl

theorem execEret_inside {gd : Guard} {s : State} (hi : s.Issues gd) (h : field s.me.ctx.trw.toNat 0 8 ≠ 0) :
    execEret gd s = .next (s.leaveTrapLevel.advance (s.me.trap.epc &&& 0xFFFFFFFC)) := by
  obtain ⟨hg, hr⟩ := hi
  have hlast : field s.me.ctx.trw.toNat 0 8 - 1 = 0 ↔ field s.me.ctx.trw.toNat 0 8 = 1 := by omega
  refine performTo_ok hg ?_ hr.leaveTrapLevel
  simp only [M_bind, M_get, h, if_false, M_pure, M_set, Thread.trapReturn, hlast]
  rfl

end Sys2Proof.Machine
end

section
/-! The statement on TRAP, BRK, ERET and the words that cannot run (R281, R403, R404). -/

namespace Sys2Proof.Laws

open Sys2Proof.Machine

/-- Settles O44, form by form; the two words that cannot run share the entry of a handler. -/
theorem trapAndReturnResults : Obligations.TrapAndReturnResults := by
  intro gd n s
  refine ⟨fun hi => ⟨?_, ?_, ?_, ?_⟩, fun hw hr hg hl hv hd => ?_⟩
  · exact (exec_trap gd n s).trans (perform_raiseAfter hi (by decide) _)
  · exact (exec_brk gd s).trans (perform_raiseAfter hi (by decide) _)
  · exact fun h => (exec_eret gd s).trans (execEret_outside hi h)
  · exact fun h => (exec_eret gd s).trans (execEret_inside hi h)
  · refine List.forall_mem_cons.2 ⟨?_, List.forall_mem_singleton.2 ?_⟩
    · -- the word that is put back was the thread's own, so its registers and its handler's address are as before
      have hme : (s.updMe fun t => { t with word := s.me.word }).thread s.ctl.acting = s.me := State.thread_updThread ..
      have htv : (s.updMe fun t => { t with word := s.me.word }).trapvec s.ctl.acting = s.trapvec s.ctl.acting :=
        State.trapvec_updThread (State.find_of_active hr) rfl rfl rfl
      have h := State.trapBy_handled (s := s.updMe fun t => { t with word := s.me.word }) hw (by rwa [hme])
        (by rwa [hme]) (by rwa [htv]) (by rwa [hme]) (illegalCause s.ctl.ev.a s.me.word s.me.ctx.psw) 0
      rw [hme, htv] at h
      exact ⟨_, (exec_illegalWord s).trans (execIllegalWord_alone hl), h⟩
    · exact ⟨_, exec_fetchTrap s, State.trapBy_handled hw hr hg hv hd _ _⟩

end Sys2Proof.Laws
end
